-- ==== Sys2Proof/Word.lean ====
section
/-! DEFINITION. The bit-vector words of the part and the sparse-table type that holds every numbered collection. -/

namespace Sys2Proof

/-- A byte of memory (R5). -/
abbrev Byte := BitVec 8
/-- A halfword: the unit of instruction length (R113). -/
abbrev Half := BitVec 16
/-- A v register, a tile element, an accumulator element (R53). -/
abbrev Word := BitVec 32
/-- An s register, a v pair, an address, a control register (R53, R54, R306). -/
abbrev DWord := BitVec 64

/-- A numbered collection, held sparsely: pairs of a number and a value, numbers strictly rising,
and no pair whose value is the collection's default (`Tab.get` and `Tab.put` of `Machine/Ops.lean`). -/
abbrev Tab (α : Type) := List (Nat × α)

end Sys2Proof
end

