-- ==== Sys2Proof/Syntax.lean ====
section
/-! DEFINITION. The instructions and the steps of the part: one constructor of `Instr` per row of the opcode table.

A row with an encoding carries its instruction's fields; a row without one (a step the part, the host or Castle
takes of its own accord: R30, R214, R306 ...) carries what selects its target. -/

namespace Sys2Proof

/-- The scopes of R176, by their codes 0-5. -/
inductive Scope where
  | gang | team | cluster | partition | tenant | system
  deriving DecidableEq, Repr

/-- The integer conditions of R132, by their codes 0-7. -/
inductive ICond where
  | eq | ne | ltS | geS | ltU | geU | leS | gtS
  deriving DecidableEq, Repr

/-- The floating conditions of R132, by their codes 0-7. -/
inductive FCond where
  | eq | ne | lt | le | gt | ge | unord | ord
  deriving DecidableEq, Repr

/-- The shift kinds of VSHI (R118, R448), by their codes 0-3. -/
inductive ShKind where
  | shl | shrU | shrS | rot
  deriving DecidableEq, Repr

/-- The formats of VCVT (R135), by their codes 0-6. -/
inductive Fmt where
  | int | uint | f32 | f64 | bf16 | t8 | t6
  deriving DecidableEq, Repr

/-- The selectors of GETV (R136), by their codes 0-5. -/
inductive GSel where
  | tid | lane | gang | quad | plane | pawn
  deriving DecidableEq, Repr

/-- The operations of VREDU (R136), by FN6 - 0x20. -/
inductive RedOp where
  | add | and | or | xor | minS | maxS | minU | maxU | fadd | fmin | fmax
  deriving DecidableEq, Repr

/-- The operations of ATOM (R138), by their codes 0x0-0xA. -/
inductive AtomOp where
  | add | and | or | xor | minS | maxS | minU | maxU | xchg | cas | fadd
  deriving DecidableEq, Repr

/-- The operations of NMRED (R138), by their codes 0x0-0x7. -/
inductive NmOp where
  | add | fadd | maxS | minS | maxU | minU | fmax | fmin
  deriving DecidableEq, Repr

/-- The operations of TATOM (R139), by their codes 0-7. -/
inductive TatomOp where
  | add | minS | maxS | minU | and | or | xor | xchg
  deriving DecidableEq, Repr

/-- The HINT field of LD and ST (R150), by its codes 0-2. -/
inductive Hint where
  | normal | streaming | bypass
  deriving DecidableEq, Repr

/-- The kinds of FENCE (R188), by their codes 0-3. -/
inductive FenceKind where
  | acq | rel | ar | nm
  deriving DecidableEq, Repr

/-- The levels of a tile (R155, R401), by their codes 0-2. -/
inductive Level where
  | scr | ring | gwin
  deriving DecidableEq, Repr

/-- What a translation is asked for (R149). -/
inductive Access where
  | read | write | exec | atom
  deriving DecidableEq, Repr

/-- The rings of R308: one kill log and one error queue per partition, three rings per die. -/
inductive RingId where
  | kill | error | fault (die : Nat) | service (die : Nat) | plog (die : Nat)
  deriving DecidableEq, Repr

/-- Who sent a request that a router, a die link, a host port or the test port refused (R333). -/
inductive ReqSrc where
  | context (ctxid : DWord) | host (pid : Nat)
  deriving DecidableEq, Repr

/-- A partition that Castle is told to form (R303). -/
structure PDesc where
  pid : Nat
  x0 : Nat
  y0 : Nat
  width : Nat
  height : Nat
  tenant : Nat
  world : Nat
  /-- SCOPEPOL (R197, R305) -/
  scopePol : BitVec 2
  /-- HBPERIOD in ms (R338), and the power budget in watts and the mask of allowed clock codes (R344, R348) -/
  hbPeriod : Nat
  budget : Nat
  mask : BitVec 6
  deriving DecidableEq, Repr

/-- What an AMO of a host hart does to the word (R199): RISC-V's nine. -/
inductive AmoOp where
  | swap | add | and | or | xor | min | max | minu | maxu
  deriving DecidableEq, Repr

/-- One access of a host hart (R199, R321): instruction fetch, load, store, LR, SC or AMO, at a virtual address. -/
inductive HartAccess where
  | fetch (va : DWord)
  | load (va : DWord) (size : Nat) (rd : Nat)
  | store (va : DWord) (size : Nat) (value : DWord)
  | lr (va : DWord) (size : Nat) (rd : Nat)
  | sc (va : DWord) (size : Nat) (rd : Nat) (value : DWord)
  | amo (op : AmoOp) (va : DWord) (size : Nat) (rd : Nat) (value : DWord)
  deriving DecidableEq, Repr

/-- One access that enters the mesh at a port (R21, R320): a read of bytes or a write of bytes at a physical address. -/
inductive MeshAccess where
  | read (pa : Nat) (len : Nat)
  | write (pa : Nat) (bytes : List Byte)
  deriving DecidableEq, Repr

/-- The hart that executes an SFENCE.VMA, and the ASID that its operand selects, or all (R172). -/
structure FenceOf where
  hart : Nat
  asid : Option Nat
  deriving DecidableEq, Repr

/-- A packet that crosses a die link (R331): the dies that receive and send it, and whether it is to or from Castle. -/
structure DieCross where
  die : Nat
  source : Nat
  castle : Bool
  deriving DecidableEq, Repr

/-- Where a host port's transaction enters (R21): the port, the partition of its physical function, the virtual function if it is
one's, and the router. -/
structure PortFn where
  port : Nat
  pf : Nat
  vf : Option Nat
  router : Nat
  deriving DecidableEq, Repr

/-! ### Fields of the encodings, format by format (R116 to R141) -/

/-- Format C (R116). -/
structure FC where
  s : BitVec 5
  d : BitVec 6
  deriving DecidableEq, Repr

/-- Format A (R118, R418). -/
structure FA where
  lm : BitVec 3
  vb : BitVec 6
  va : BitVec 6
  vd : BitVec 6
  p : BitVec 2
  w : BitVec 2
  deriving DecidableEq, Repr

/-- Format A with a condition and a destination predicate in VD (R132, R424, R434). -/
structure FCmp (C : Type) where
  lm : BitVec 3
  vb : BitVec 6
  va : BitVec 6
  cond : C
  pd : BitVec 3
  p : BitVec 2
  w : BitVec 2
  deriving DecidableEq, Repr

/-- VSEL: format A with the selecting predicate in LM (R444). -/
structure FSel where
  ps : BitVec 3
  vb : BitVec 6
  va : BitVec 6
  vd : BitVec 6
  p : BitVec 2
  w : BitVec 2
  deriving DecidableEq, Repr

/-- Format I (R118, R420). -/
structure FI where
  imm : BitVec 9
  va : BitVec 6
  vd : BitVec 6
  p : BitVec 2
  w : BitVec 2
  deriving DecidableEq, Repr

/-- VCMPI (R424). -/
structure FCmpI where
  imm : BitVec 9
  va : BitVec 6
  cond : ICond
  pd : BitVec 3
  p : BitVec 2
  w : BitVec 2
  deriving DecidableEq, Repr

/-- VSHI (R448). -/
structure FShi where
  kind : ShKind
  amount : BitVec 5
  va : BitVec 6
  vd : BitVec 6
  p : BitVec 2
  w : BitVec 2
  deriving DecidableEq, Repr

/-- VMOVI: imm15 = IMM9 * 64 + VA (R442). -/
structure FMovi where
  imm : BitVec 15
  vd : BitVec 6
  p : BitVec 2
  w : BitVec 2
  deriving DecidableEq, Repr

/-- Format U of VUNA and VSFU (R133, R134): FN6 is the constructor. -/
structure FU where
  lm : BitVec 3
  va : BitVec 6
  vd : BitVec 6
  p : BitVec 2
  w : BitVec 2
  deriving DecidableEq, Repr

/-- VCVT (R135, R426): the element index E and the two formats. -/
structure FCvt where
  e : BitVec 3
  src : Fmt
  dst : Fmt
  va : BitVec 6
  vd : BitVec 6
  p : BitVec 2
  w : BitVec 2
  deriving DecidableEq, Repr

/-- QXCH (R136). -/
structure FQx where
  va : BitVec 6
  vd : BitVec 6
  p : BitVec 2
  w : BitVec 2
  deriving DecidableEq, Repr

/-- QBCAST (R136): the source quad lane in LM[1:0]. -/
structure FQb where
  n : BitVec 2
  va : BitVec 6
  vd : BitVec 6
  p : BitVec 2
  w : BitVec 2
  deriving DecidableEq, Repr

/-- VVOTE (R136): destination and source predicates. -/
structure FVote where
  ps : BitVec 3
  pd : BitVec 3
  p : BitVec 2
  w : BitVec 2
  deriving DecidableEq, Repr

/-- VBALLOT (R136). -/
structure FBallot where
  ps : BitVec 3
  vd : BitVec 6
  p : BitVec 2
  w : BitVec 2
  deriving DecidableEq, Repr

/-- VSETI (R136). -/
structure FSeti where
  va : BitVec 6
  n : BitVec 2
  p : BitVec 2
  w : BitVec 2
  deriving DecidableEq, Repr

/-- VMOVX (R136). -/
structure FMovx where
  n : BitVec 2
  vd : BitVec 6
  p : BitVec 2
  w : BitVec 2
  deriving DecidableEq, Repr

/-- VSTX (R136). -/
structure FStx where
  n : BitVec 2
  vs : BitVec 6
  p : BitVec 2
  w : BitVec 2
  deriving DecidableEq, Repr

/-- GETV (R136). -/
structure FGetv where
  sel : GSel
  vd : BitVec 6
  p : BitVec 2
  w : BitVec 2
  deriving DecidableEq, Repr

/-- VMOVU (R136): hi selects bits 63:32 of s[sa]. -/
structure FMovu where
  hi : BitVec 1
  sa : BitVec 5
  vd : BitVec 6
  p : BitVec 2
  w : BitVec 2
  deriving DecidableEq, Repr

/-- VREDU (R136). -/
structure FRedu where
  op : RedOp
  va : BitVec 6
  vd : BitVec 6
  p : BitVec 2
  w : BitVec 2
  deriving DecidableEq, Repr

/-- Format F (R118, R435). -/
structure FF where
  vc : BitVec 5
  vb : BitVec 6
  va : BitVec 6
  vd : BitVec 6
  w : BitVec 2
  deriving DecidableEq, Repr

/-- VBDOT.T8 and VBDOT.T6: bits 2:1 hold the scale byte select (R421). -/
structure FBdot where
  vc : BitVec 5
  vb : BitVec 6
  va : BitVec 6
  vd : BitVec 6
  bs : BitVec 2
  deriving DecidableEq, Repr

/-- VBDOT.I8 (R421). -/
structure FBdotI where
  vb : BitVec 6
  va : BitVec 6
  vd : BitVec 6
  deriving DecidableEq, Repr

/-- VREQ (R110). -/
structure FReq where
  vb : BitVec 6
  va : BitVec 6
  vd : BitVec 6
  w : BitVec 2
  deriving DecidableEq, Repr

/-- LD (R382): size 8 * 2^sz bits. -/
structure FLd where
  hint : Hint
  sc : Scope
  acq : BitVec 1
  sx : BitVec 1
  sz : BitVec 2
  va : BitVec 6
  vd : BitVec 6
  p : BitVec 2
  w : BitVec 2
  deriving DecidableEq, Repr

/-- ST (R398). -/
structure FSt where
  hint : Hint
  sc : Scope
  rel : BitVec 1
  sz : BitVec 2
  va : BitVec 6
  vd : BitVec 6
  p : BitVec 2
  w : BitVec 2
  deriving DecidableEq, Repr

/-- ATOM and NMRED (R352, R390): wide is SZ = 3. -/
structure FRmw (O : Type) where
  wide : BitVec 1
  sc : Scope
  op : O
  va : BitVec 6
  vd : BitVec 6
  p : BitVec 2
  w : BitVec 2
  deriving DecidableEq, Repr

/-- Format T (R407). -/
structure FT where
  peer : BitVec 1
  core : BitVec 2
  h : BitVec 5
  va : BitVec 6
  vd : BitVec 6
  p : BitVec 2
  w : BitVec 2
  deriving DecidableEq, Repr

/-- Format Q: TATOM (R403). -/
structure FTatom where
  peer : BitVec 1
  core : BitVec 2
  op : TatomOp
  h : BitVec 5
  va : BitVec 6
  vd : BitVec 6
  w : BitVec 2
  deriving DecidableEq, Repr

/-- Format S of UOP (R414): FN8 is the constructor. -/
structure FS where
  sb : BitVec 5
  sa : BitVec 5
  sd : BitVec 5
  w : BitVec 2
  deriving DecidableEq, Repr

/-- UADDI (R413). -/
structure FSi where
  imm : BitVec 13
  sa : BitVec 5
  sd : BitVec 5
  w : BitVec 2
  deriving DecidableEq, Repr

/-- Format X (R118, R367, R387): FUNC7 is the constructor. -/
structure FX where
  re : BitVec 1
  sd : BitVec 5
  sb : BitVec 5
  sa : BitVec 5
  w : BitVec 2
  deriving DecidableEq, Repr

/-- TQPOP: RE is 1 (R253). -/
structure FXr where
  sd : BitVec 5
  sb : BitVec 5
  sa : BitVec 5
  w : BitVec 2
  deriving DecidableEq, Repr

/-- XSTAT: RE is 1 and SB is 0 (R460). -/
structure FXstat where
  sd : BitVec 5
  sa : BitVec 5
  w : BitVec 2
  deriving DecidableEq, Repr

/-- Format K with two s registers: BINIT, KARM (R359, R209). -/
structure FKss where
  sb : BitVec 5
  sa : BitVec 5
  idx : BitVec 4
  w : BitVec 2
  deriving DecidableEq, Repr

/-- Format K with an object and a scope: BARV, BWAIT, KSIGN (R357, R364, R210). -/
structure FKsc where
  sc : Scope
  idx : BitVec 4
  w : BitVec 2
  deriving DecidableEq, Repr

/-- Format K with an object and one s register: BEXP, BSTAT, PLOG (R358, R363, R392). -/
structure FKs where
  sa : BitVec 5
  idx : BitVec 4
  w : BitVec 2
  deriving DecidableEq, Repr

/-- FENCE (R188). -/
structure FFence where
  sc : Scope
  kind : FenceKind
  w : BitVec 2
  deriving DecidableEq, Repr

/-- MARM (R292). -/
structure FMarm where
  sc : Scope
  sa : BitVec 5
  w : BitVec 2
  deriving DecidableEq, Repr

/-- Format K with one s register alone: MWAIT, SYSCALL (R293, R298). -/
structure FKsa where
  sa : BitVec 5
  w : BitVec 2
  deriving DecidableEq, Repr

/-- RGET and RPUT (R394): cons is the side IDX4[0]. -/
structure FRing where
  cons : BitVec 1
  h : BitVec 5
  sb : BitVec 5
  w : BitVec 2
  deriving DecidableEq, Repr

/-- TALLOC (R401). -/
structure FTalloc where
  level : Level
  h : BitVec 5
  sb : BitVec 5
  w : BitVec 2
  deriving DecidableEq, Repr

/-- TFREE (R405). -/
structure FTfree where
  h : BitVec 5
  w : BitVec 2
  deriving DecidableEq, Repr

/-- TINFO (R406). -/
structure FTinfo where
  h : BitVec 5
  sb : BitVec 5
  w : BitVec 2
  deriving DecidableEq, Repr

/-- LMAP (R385): lm1-lm7. -/
structure FLmap where
  m : BitVec 3
  sa : BitVec 5
  w : BitVec 2
  deriving DecidableEq, Repr

/-- GETS and SETS (R374, R396): vk is IDX4[3], hi is IDX4[0], num is SB. -/
structure FSpec where
  vk : BitVec 1
  hi : BitVec 1
  sa : BitVec 5
  num : BitVec 5
  w : BitVec 2
  deriving DecidableEq, Repr

/-- TRAP and BRK (R291). -/
structure FCode where
  code : BitVec 4
  w : BitVec 2
  deriving DecidableEq, Repr

/-- The instructions and steps of the part, one per row of the opcode table, in the table's order. -/
inductive Instr where
  /-- MOV (R116): 16-bit copy of vs into vd, equivalent to VMOV. -/
  | mov (f : FC)
  /-- NOP (R116): The word 0x0000 reads and writes no register, raises nothing and takes one issue slot. -/
  | nop
  /-- VADD_C (R116): 16-bit wrapping add vd := vd + vs. -/
  | vaddC (f : FC)
  /-- VSUB_C (R116): 16-bit wrapping subtract vd := vd - vs. -/
  | vsubC (f : FC)
  /-- VMUL_C (R116): 16-bit low-half multiply vd := vd * vs. -/
  | vmulC (f : FC)
  /-- VAND_C (R116): 16-bit bitwise AND into vd. -/
  | vandC (f : FC)
  /-- VOR_C (R116): 16-bit bitwise OR into vd. -/
  | vorC (f : FC)
  /-- VXOR_C (R116): 16-bit bitwise XOR into vd. -/
  | vxorC (f : FC)
  /-- VSHL_C (R116): 16-bit shift left of vd by vs[4:0]. -/
  | vshlC (f : FC)
  /-- VSHR_U_C (R116): 16-bit logical shift right of vd. -/
  | vshrUC (f : FC)
  /-- VSHR_S_C (R116): 16-bit arithmetic shift right of vd. -/
  | vshrSC (f : FC)
  /-- VMIN_S_C (R116): 16-bit signed minimum into vd. -/
  | vminSC (f : FC)
  /-- VMAX_S_C (R116): 16-bit signed maximum into vd. -/
  | vmaxSC (f : FC)
  /-- VFADD_C (R116): 16-bit FP32 add into vd. -/
  | vfaddC (f : FC)
  /-- VFSUB_C (R116): 16-bit FP32 subtract into vd. -/
  | vfsubC (f : FC)
  /-- VFMUL_C (R116): 16-bit FP32 multiply into vd. -/
  | vfmulC (f : FC)
  /-- VFMAX_C (R116): 16-bit FP32 maximumNumber into vd. -/
  | vfmaxC (f : FC)
  /-- VADD (R418): Wrapping 32-bit add with optional routing of vb. -/
  | vadd (f : FA)
  /-- VSUB (R441): Wrapping 32-bit subtract. -/
  | vsub (f : FA)
  /-- VMUL (R441): Low 32 bits of the product. -/
  | vmul (f : FA)
  /-- VMULH_S (R441): High 32 bits of the signed product. -/
  | vmulhS (f : FA)
  /-- VMULH_U (R441): High 32 bits of the unsigned product. -/
  | vmulhU (f : FA)
  /-- VMIN_S (R441): Signed minimum. -/
  | vminS (f : FA)
  /-- VMIN_U (R441): Unsigned minimum. -/
  | vminU (f : FA)
  /-- VMAX_S (R441): Signed maximum. -/
  | vmaxS (f : FA)
  /-- VMAX_U (R441): Unsigned maximum. -/
  | vmaxU (f : FA)
  /-- VAND (R418): Bitwise AND. -/
  | vand (f : FA)
  /-- VOR (R441): Bitwise OR. -/
  | vor (f : FA)
  /-- VXOR (R441): Bitwise XOR. -/
  | vxor (f : FA)
  /-- VSHL (R441): Shift left by b[4:0]. -/
  | vshl (f : FA)
  /-- VSHR_U (R441): Logical shift right by b[4:0]. -/
  | vshrU (f : FA)
  /-- VSHR_S (R441): Arithmetic shift right by b[4:0]. -/
  | vshrS (f : FA)
  /-- VADD_SAT (R418): Signed saturating 32-bit add. -/
  | vaddSat (f : FA)
  /-- VADD64 (R419): Wrapping 64-bit add on register pairs. -/
  | vadd64 (f : FA)
  /-- VSUB64 (R449): Wrapping 64-bit subtract on register pairs. -/
  | vsub64 (f : FA)
  /-- VCMP (R425): Integer compare writing a destination predicate. -/
  | vcmp (f : FCmp ICond)
  /-- VFADD (R433): FP32 add rounded once under FRM. -/
  | vfadd (f : FA)
  /-- VFSUB (R433): FP32 subtract rounded once under FRM. -/
  | vfsub (f : FA)
  /-- VFMUL (R433): FP32 multiply rounded once under FRM. -/
  | vfmul (f : FA)
  /-- VFMIN (R433): FP32 minimumNumber. -/
  | vfmin (f : FA)
  /-- VFMAX (R433): FP32 maximumNumber. -/
  | vfmax (f : FA)
  /-- VFCMP (R434): FP32 compare writing a destination predicate. -/
  | vfcmp (f : FCmp FCond)
  /-- VHADD (R438): Elementwise BF16-pair add. -/
  | vhadd (f : FA)
  /-- VHMUL (R438): Elementwise BF16-pair multiply. -/
  | vhmul (f : FA)
  /-- VDADD (R429): FP64 add on register pairs. -/
  | vdadd (f : FA)
  /-- VDMUL (R429): FP64 multiply on register pairs. -/
  | vdmul (f : FA)
  /-- VSEL (R444): Selects va or vb by predicate ps. -/
  | vsel (f : FSel)
  /-- TATOM (R403): Atomic read-modify-write of a 32-bit element of an own or peer SCR tile. -/
  | tatom (f : FTatom)
  /-- VADDI (R420): Add of a sign-extended 9-bit immediate. -/
  | vaddi (f : FI)
  /-- VANDI (R420): AND with a sign-extended 9-bit immediate. -/
  | vandi (f : FI)
  /-- VORI (R443): OR with a sign-extended 9-bit immediate. -/
  | vori (f : FI)
  /-- VXORI (R443): XOR with a sign-extended 9-bit immediate. -/
  | vxori (f : FI)
  /-- VSHI (R448): Shift or rotate by an immediate amount of a selected kind. -/
  | vshi (f : FShi)
  /-- VCMPI (R425): Integer compare with an immediate writing a predicate. -/
  | vcmpi (f : FCmpI)
  /-- VMOVI (R442): Loads a sign-extended 15-bit immediate. -/
  | vmovi (f : FMovi)
  /-- VMOV (R450): Copies va, optionally routed. -/
  | vmov (f : FU)
  /-- VNOT (R450): Bitwise NOT. -/
  | vnot (f : FU)
  /-- VNEG (R450): Two's-complement negate. -/
  | vneg (f : FU)
  /-- VABS (R450): Integer absolute value. -/
  | vabs (f : FU)
  /-- VCLZ (R450): Count of leading zero bits. -/
  | vclz (f : FU)
  /-- VPOPC (R450): Count of one bits. -/
  | vpopc (f : FU)
  /-- VBREV (R450): Bit reversal. -/
  | vbrev (f : FU)
  /-- VFNEG (R451): Inverts the FP32 sign bit. -/
  | vfneg (f : FU)
  /-- VFABS (R451): Clears the FP32 sign bit. -/
  | vfabs (f : FU)
  /-- VFFLOOR (R451): Rounds to an integral FP32 value towards minus infinity. -/
  | vffloor (f : FU)
  /-- VFCEIL (R451): Rounds to an integral FP32 value towards plus infinity. -/
  | vfceil (f : FU)
  /-- VFTRUNC (R451): Rounds to an integral FP32 value towards zero. -/
  | vftrunc (f : FU)
  /-- VFRINT (R451): Rounds to an integral FP32 value under FRM. -/
  | vfrint (f : FU)
  /-- VSEXT_B (R450): Sign-extends the low byte. -/
  | vsextB (f : FU)
  /-- VSEXT_H (R450): Sign-extends the low halfword. -/
  | vsextH (f : FU)
  /-- VZEXT_B (R450): Zero-extends the low byte. -/
  | vzextB (f : FU)
  /-- VZEXT_H (R450): Zero-extends the low halfword. -/
  | vzextH (f : FU)
  /-- VRCP (R447): Correctly rounded reciprocal, interlocked. -/
  | vrcp (f : FU)
  /-- VRSQ (R447): Correctly rounded reciprocal square root. -/
  | vrsq (f : FU)
  /-- VSQRT (R446): IEEE square root under FRM. -/
  | vsqrt (f : FU)
  /-- VEX2 (R447): Correctly rounded 2 to the x. -/
  | vex2 (f : FU)
  /-- VLG2 (R447): Correctly rounded base-2 logarithm. -/
  | vlg2 (f : FU)
  /-- VSIN (R447): Correctly rounded sine. -/
  | vsin (f : FU)
  /-- VCOS (R447): Correctly rounded cosine. -/
  | vcos (f : FU)
  /-- VTANH (R447): Correctly rounded hyperbolic tangent. -/
  | vtanh (f : FU)
  /-- VDIV_U (R446): Unsigned integer division vd / va. -/
  | vdivU (f : FU)
  /-- VDIV_S (R446): Signed integer division vd / va. -/
  | vdivS (f : FU)
  /-- VREM_U (R446): Unsigned integer remainder. -/
  | vremU (f : FU)
  /-- VREM_S (R446): Signed integer remainder. -/
  | vremS (f : FU)
  /-- VFDIV (R446): IEEE FP32 division under FRM. -/
  | vfdiv (f : FU)
  /-- VCVT (R427): Converts between numeric formats, reading or writing element E of packed sides. -/
  | vcvt (f : FCvt)
  /-- QXCH_H (R453): Reads va from quad lane x xor 1. -/
  | qxchH (f : FQx)
  /-- QXCH_V (R453): Reads va from quad lane x xor 2. -/
  | qxchV (f : FQx)
  /-- QXCH_D (R453): Reads va from quad lane x xor 3. -/
  | qxchD (f : FQx)
  /-- QBCAST (R453): Broadcasts va from a chosen quad lane. -/
  | qbcast (f : FQb)
  /-- VVOTE_ANY (R454): Sets pd if ps is 1 in any contributing gang lane. -/
  | vvoteAny (f : FVote)
  /-- VVOTE_ALL (R454): Sets pd if ps is 1 in every contributing gang lane. -/
  | vvoteAll (f : FVote)
  /-- VBALLOT (R454): Writes a 64-bit gang-lane mask of ps to a pair. -/
  | vballot (f : FBallot)
  /-- VSETI (R455): Sets an index register from the low byte of va. -/
  | vseti (f : FSeti)
  /-- VMOVX (R455): Reads the window register selected by an index register. -/
  | vmovx (f : FMovx)
  /-- VSTX (R455): Writes the window register selected by an index register. -/
  | vstx (f : FStx)
  /-- GETV (R455): Reads a per-thread value such as TID, LANE or PAWN. -/
  | getv (f : FGetv)
  /-- VMOVU (R455): Moves half of a gang s register into a v register. -/
  | vmovu (f : FMovu)
  /-- VREDU (R454): Fixed-tree reduction of va over the gang's contributing lanes, interlocked. -/
  | vredu (f : FRedu)
  /-- VFMA (R436): Fused FP32 multiply-add rounded once. -/
  | vfma (f : FF)
  /-- VFNMA (R436): Fused FP32 c minus a times b rounded once. -/
  | vfnma (f : FF)
  /-- VMAD (R440): Wrapping integer multiply-add. -/
  | vmad (f : FF)
  /-- VHFMA (R439): Fused BF16-pair multiply-add. -/
  | vhfma (f : FF)
  /-- VDFMA (R430): Fused FP64 multiply-add on pairs. -/
  | vdfma (f : FF)
  /-- VDOT2 (R431): BF16 two-product dot plus FP32 addend, rounded once. -/
  | vdot2 (f : FF)
  /-- VBDOT_T8 (R422): Block-scaled T8 block dot accumulated by block_step. -/
  | vbdotT8 (f : FBdot)
  /-- VBDOT_T6 (R422): Block-scaled T6 block dot accumulated by block_step. -/
  | vbdotT6 (f : FBdot)
  /-- VBDOT_I8 (R422): INT8 block dot added with wrap into an INT32 accumulator. -/
  | vbdotI8 (f : FBdotI)
  /-- VREQ (R110): Re-scales packed T8/T6 elements from an old to a new SX8 scale. -/
  | vreq (f : FReq)
  /-- LD (R383): Global load of 8 to 64 bits, optionally acquire, interlocked. -/
  | ld (f : FLd)
  /-- ST (R398): Global store of 8 to 64 bits, optionally release. -/
  | st (f : FSt)
  /-- ATOM (R354): Atomic read-modify-write at the home bank, returning the old value. -/
  | atom (f : FRmw AtomOp)
  /-- NMRED (R248): Sends a near-memory reduction update to the base die. -/
  | nmred (f : FRmw NmOp)
  /-- TLD (R407): Loads a tile element of an own, peer or GWIN tile. -/
  | tld (f : FT)
  /-- TST (R407): Stores a tile element of an own, peer or GWIN tile. -/
  | tst (f : FT)
  /-- UADD (R414): 64-bit uniform add per gang. -/
  | uadd (f : FS)
  /-- USUB (R414): 64-bit uniform subtract. -/
  | usub (f : FS)
  /-- UMUL (R414): Low 64 bits of the uniform product. -/
  | umul (f : FS)
  /-- UMULH_U (R414): High 64 bits of the unsigned uniform product. -/
  | umulhU (f : FS)
  /-- UAND (R414): Uniform bitwise AND. -/
  | uand (f : FS)
  /-- UOR (R414): Uniform bitwise OR. -/
  | uor (f : FS)
  /-- UXOR (R414): Uniform bitwise XOR. -/
  | uxor (f : FS)
  /-- USHL (R414): Uniform shift left. -/
  | ushl (f : FS)
  /-- USHR_U (R414): Uniform logical shift right. -/
  | ushrU (f : FS)
  /-- USHR_S (R414): Uniform arithmetic shift right. -/
  | ushrS (f : FS)
  /-- UMIN_S (R414): Uniform signed minimum. -/
  | uminS (f : FS)
  /-- UMIN_U (R414): Uniform unsigned minimum. -/
  | uminU (f : FS)
  /-- UMAX_S (R414): Uniform signed maximum. -/
  | umaxS (f : FS)
  /-- UMAX_U (R414): Uniform unsigned maximum. -/
  | umaxU (f : FS)
  /-- USLT_S (R414): Uniform signed less-than, 1 or 0. -/
  | usltS (f : FS)
  /-- USLT_U (R414): Uniform unsigned less-than, 1 or 0. -/
  | usltU (f : FS)
  /-- USEQ (R414): Uniform equality, 1 or 0. -/
  | useq (f : FS)
  /-- UADDI (R413): Uniform add of a sign-extended 13-bit immediate per gang. -/
  | uaddi (f : FSi)
  /-- XSTAT (R460): Returns the team's command or matrix-engine status word. -/
  | xstat (f : FXstat)
  /-- CPY (R367): Posts a copy command per gang to the cluster copy engine. -/
  | cpy (f : FX)
  /-- CPYM (R240): Posts a multicast copy to the tiles of several receiver teams. -/
  | cpym (f : FX)
  /-- CPYZ (R242): Posts a command that writes zeros and sets zero flags. -/
  | cpyz (f : FX)
  /-- MLDS (R387): Posts a matrix request that loads the shadow weight plane. -/
  | mlds (f : FX)
  /-- MSTRM (R387): Posts a matrix request that streams rows into an accumulator tile. -/
  | mstrm (f : FX)
  /-- MDRN (R387): Posts a matrix request that drains accumulator rows to a tile. -/
  | mdrn (f : FX)
  /-- MZACC (R387): Posts a matrix request that clears accumulator rows. -/
  | mzacc (f : FX)
  /-- TQPUSH (R254): Pushes up to 32 entries into a task queue per gang. -/
  | tqpush (f : FX)
  /-- TQPOP (R255): Pops entries from a task queue per gang, possibly holding. -/
  | tqpop (f : FXr)
  /-- DGST (R369): System-team command that posts a SHA-512 digest of a physical range. -/
  | dgst (f : FX)
  /-- BINIT (R359): Initialises a barrier object's EXPECT and PEND, leaving any error phase. -/
  | binit (f : FKss)
  /-- BARV (R357): Each real thread makes a release and then one arrival at a barrier object. -/
  | barv (f : FKsc)
  /-- BWAIT (R364): Waits for the current phase of a barrier object to complete, then acquires. -/
  | bwait (f : FKsc)
  /-- BEXP (R358): Adds expected bytes to a barrier object's PEND. -/
  | bexp (f : FKs)
  /-- BSTAT (R363): Reads a barrier object's state word into an s register. -/
  | bstat (f : FKs)
  /-- FENCE (R188): Orders the thread's accesses by kind ACQ, REL, AR or NM at a scope. -/
  | fence (f : FFence)
  /-- MARM (R292): Checks an address and arms the thread's monitor on its line. -/
  | marm (f : FMarm)
  /-- MWAIT (R293): Holds the thread until its armed line is written or a timeout. -/
  | mwait (f : FKsa)
  /-- KARM (R377): Arms a convergence register with a descriptor address and EXPECT. -/
  | karm (f : FKss)
  /-- KSIGN (R379): Each real thread releases and adds a signature to a convergence register. -/
  | ksign (f : FKsc)
  /-- RGET (R394): Takes the next ring slot as producer or consumer, waiting up to 1,024 cc. -/
  | rget (f : FRing)
  /-- RPUT (R394): Returns a ring slot as FILLED or FREE. -/
  | rput (f : FRing)
  /-- TALLOC (R401): Allocates a tile handle at a level from a shape descriptor. -/
  | talloc (f : FTalloc)
  /-- TFREE (R405): Frees a tile handle and its units. -/
  | tfree (f : FTfree)
  /-- TINFO (R406): Returns a tile's shape and ring state word. -/
  | tinfo (f : FTinfo)
  /-- LMAP (R385): Sets a lane-map descriptor from an s register. -/
  | lmap (f : FLmap)
  /-- PLOG (R392): Writes a record to the partition's program log. -/
  | plog (f : FKs)
  /-- GETS (R375): Reads a special register into an s or v register. -/
  | gets (f : FSpec)
  /-- SETS (R396): Writes a special register from an s or v register. -/
  | sets (f : FSpec)
  /-- SYSCALL (R298): Holds the thread in the team's system-call gather. -/
  | syscall (f : FKsa)
  /-- TRAP (R291): Every issued thread traps USER_TRAP with a code. -/
  | trap (f : FCode)
  /-- HRET (R290): Returns a handler thread to the block table at TRAPPC. -/
  | hret (w : BitVec 2)
  /-- BRK (R291): Every issued thread traps BRK with a code. -/
  | brk (f : FCode)
  /-- YIELD (R461): Holds the thread until its pass has issued its last instruction. -/
  | yield (w : BitVec 2)
  /-- XLSPAWN (R261): Host instruction that releases and enters a launch into the slice's launch table. -/
  | xlspawn (rd : BitVec 5)
  /-- XLJWAIT (R265): Host instruction that acquires a completion counter and waits below a target. -/
  | xljwait (rd : BitVec 5) (rs1 : BitVec 5) (rs2 : BitVec 5)
  /-- XLQPUSH (R458): Host instruction that pushes entries to a task queue in FAIL mode. -/
  | xlqpush (rd : BitVec 5) (rs1 : BitVec 5) (rs2 : BitVec 5)
  /-- PASS_START (R35): The core starts a pass for a chosen team and entry, forms groups and starts prefetch. -/
  | passStart (core : Nat)
  /-- REGISTER_LINE_FETCH (R73): A prefetched or demanded register line arrives from the context image. -/
  | registerLineFetch (core : Nat) (team : Nat) (block : Nat) (slot : Nat)
  /-- SUCCESSOR_EVALUATION (R30): After all results of its pass, a thread's successor is computed and it joins that entry. -/
  | successorEvaluation (core : Nat)
  /-- ENTRY_AGE_TICK (R37): Every 256 cc without a pass of its team an entry's age rises by 1. -/
  | entryAgeTick (core : Nat) (team : Nat)
  /-- RESULT_WRITEBACK (R45): A variable-latency result such as VSFU, VREDU, VBDOT, peer TLD, TATOM or an s reply is written. -/
  | resultWriteback (team : Nat)
  /-- LOAD_REPLY (R384): The replies of a group's global load return and the destinations are written together. -/
  | loadReply (team : Nat)
  /-- STORE_PERFORMED_AT_HOME (R186): A store reaches its home bank, updating coherence order, zero flags, dirty bits and monitors. -/
  | storePerformedAtHome (core : Nat) (idx : Nat)
  /-- ATOM_AT_HOME (R189): An ATOM's indivisible read-modify-write is performed at its home bank and its reply sent. -/
  | atomAtHome (core : Nat) (idx : Nat)
  /-- NMRED_UPDATE_PERFORMED (R249): A near-memory unit applies an NMRED update to its word in DRAM. -/
  | nmredUpdatePerformed (core : Nat) (idx : Nat)
  /-- PAGE_WALK_COMPLETE (R171): A page walk completes, filling TLBs and setting A and D bits, or faults. -/
  | pageWalkComplete (core : Nat) (team : Nat) (va : DWord) (acc : Access)
  /-- BARRIER_ARRIVAL (R357): After its release waits, a thread's arrival is added to ARRIVED. -/
  | barrierArrival (core : Nat)
  /-- KSIGN_SIGNATURE (R379): After its release, a signature is counted and the last one posts the request. -/
  | ksignSignature (core : Nat)
  /-- MONITOR_ARMING (R292): A MARM arming reaches the line's home bank and takes effect. -/
  | monitorArming (core : Nat)
  /-- MWAIT_TIMEOUT (R293): An MWAIT's timeout expires while resident and the thread traps MWAIT_TIMEOUT. -/
  | mwaitTimeout (team : Nat) (tid : Nat)
  /-- MONITOR_TABLE_TIMEOUT (R294): The least remaining timeout of a monitor-table record ends and the team becomes bindable. -/
  | monitorTableTimeout (slice : Nat) (team : Nat)
  /-- STALEMATE_WATCHDOG (R295): A watch counter reaches BTIMEOUT and the context is killed with STALEMATE. -/
  | stalemateWatchdog (team : Nat)
  /-- RGET_WAIT_TIMEOUT (R165): A gang's RGET wait reaches 1,024 cc and returns all ones. -/
  | rgetWaitTimeout (core : Nat)
  /-- ENGINE_POST_TIMEOUT (R207): A gang's wait for an engine entry reaches 1,024 cc and the post is refused. -/
  | enginePostTimeout (core : Nat)
  /-- MATRIX_REQUEST_ACCEPT (R208): A waiting or posting matrix request takes a reservation entry, its descriptor is read and
  checked. -/
  | matrixRequestAccept (cluster : Nat)
  /-- MATRIX_GRANT (R214): A free engine slot is granted to a candidate request, which starts its pass. -/
  | matrixGrant (cluster : Nat)
  /-- MATRIX_REQUEST_COMPLETE (R226): A matrix request completes, makes its release and applies its completion word. -/
  | matrixRequestComplete (cluster : Nat) (idx : Nat)
  /-- MATRIX_OPERAND_FAULT (R229): A GWIN operand fault suspends a matrix request at its row and frees the slot. -/
  | matrixOperandFault (cluster : Nat) (idx : Nat)
  /-- SHADOW_PLANE_TIMEOUT (R215): Another team waits 4,096 cc for the shadow plane and the pending plane is discarded. -/
  | shadowPlaneTimeout (cluster : Nat)
  /-- ENGINE_RAMP_TICK (R231): The activity ramp advances after 2 us idle and each 128 cc phase. -/
  | engineRampTick (cluster : Nat)
  /-- COPY_COMMAND_ACCEPT (R236): A waiting copy or digest command takes a command-table entry and its descriptor is checked. -/
  | copyCommandAccept (cluster : Nat)
  /-- COPY_CHANNEL_GRANT (R237): A free copy channel is granted to a command, which starts its chunks. -/
  | copyChannelGrant (cluster : Nat)
  /-- COPY_CHUNK_WRITTEN (R243): A chunk is written, with bytes counted when REL is 0. -/
  | copyChunkWritten (cluster : Nat) (idx : Nat)
  /-- COPY_CHUNK_FAULT (R246): A chunk faults and the command suspends at OFFSET, freeing its channel. -/
  | copyChunkFault (cluster : Nat) (idx : Nat)
  /-- COPY_COMMAND_COMPLETE (R243): A copy completes, releases and counts bytes and its arrival. -/
  | copyCommandComplete (cluster : Nat) (idx : Nat)
  /-- DGST_PATH_GRANT (R372): The die's digest path takes a granted DGST and digests its range. -/
  | dgstPathGrant (die : Nat)
  /-- DGST_COMPLETE (R371): A DGST writes its SHA-512 digest and completes. -/
  | dgstComplete (die : Nat)
  /-- SYSCALL_GATHER_COMPLETE (R298): Every live real thread is held in SYSCALL, the call record is written when an entry is free. -/
  | syscallGatherComplete (team : Nat)
  /-- SCDONE (R299): Writing SCDONE completes a call, broadcasts its result and frees the call entry. -/
  | scdone (die : Nat) (value : DWord)
  /-- QUEUE_SPAWN (R256): A bound queue spawns a team from its oldest entry when it can be bound. -/
  | queueSpawn (qnum : Nat)
  /-- DISPATCH_BIND (R269): The dispatch core places a bindable league and writes its bind records. -/
  | dispatchBind (slice : Nat) (launch : Nat) (cluster : Nat)
  /-- SLOTCTL_PRESENT (R274): Writing SLOTCTL STATE 1 presents a bind record, which the core accepts or refuses. -/
  | slotctlPresent (core : Nat) (slot : Nat)
  /-- TEAM_RETIREMENT (R279): A team whose threads exited and commands ended frees its resources and makes its completion addition. -/
  | teamRetirement (team : Nat)
  /-- DEPENDENCE_POLL (R268): The dispatch core reads a launch's dependence counter on acceptance, line writes or every 10 us. -/
  | dependencePoll (slice : Nat) (launch : Nat)
  /-- BENCH (R276): A team held past the bench threshold is saved and its slot freed. -/
  | bench (team : Nat)
  /-- CODEP_REBIND_TICK (R277): Each benched team of a co-dependent launch is rebound at least once per 1 ms. -/
  | codepRebindTick (slice : Nat) (launch : Nat) (cluster : Nat)
  /-- PREEMPT (R301): A league is pre-empted: passes drain, state is saved and slots freed within 20 us. -/
  | preempt (team : Nat)
  /-- XLJWAIT_TIMEOUT (R265): A waiting XLJWAIT ends after 1 ms and re-reads the counter. -/
  | xljwaitTimeout (hart : Nat)
  /-- FQDONE_RETRY (R175): Writing FQDONE with RETRY frees a fault entry and replays its threads and commands. -/
  | fqdoneRetry (die : Nat) (index : Nat)
  /-- FQDONE_DELIVER (R175): Writing FQDONE with DELIVER frees a fault entry, raising PAGE_FAULT and TRANSLATION errors. -/
  | fqdoneDeliver (die : Nat) (index : Nat)
  /-- RING_BASE_WRITE (R308): Writing a ring's xBASE, ignored while the ring is not empty. -/
  | ringBaseWrite (ring : RingId) (value : DWord)
  /-- RING_CTL_WRITE (R308): Writing a ring's xCTL configures LOG2N and IE, releasing pending records. -/
  | ringCtlWrite (ring : RingId) (value : DWord)
  /-- RING_HEAD_WRITE (R308): Writing a ring's xHEAD frees slots so that pending records are written. -/
  | ringHeadWrite (ring : RingId) (value : DWord)
  /-- QCTL_WRITE (R250): Writing a queue's QCTL sets its share, mode and binding and may enable it. -/
  | qctlWrite (qnum : Nat) (value : DWord)
  /-- QUEUE_DISABLE (R251): Clearing EN writes a queue's on-chip entries back to its ring. -/
  | queueDisable (qnum : Nat)
  /-- HEAP_WRITE (R307): Writing HEAPBASE or HEAPSIZE sets the context-image heap when allowed. -/
  | heapWrite (size : Bool) (value : DWord)
  /-- CECOUNT_CLEAR (R309): Any write to a CECOUNT clears that correctable-error counter. -/
  | cecountClear (slice : Nat) (unit : Nat)
  /-- CONTROL_REGISTER_WRITE (R306): A write to a control-space register with no behaviour of its own. -/
  | controlRegisterWrite (offset : Nat) (value : DWord)
  /-- DREQ_PREEMPT (R311): DREQ PREEMPT pre-empts a context with its league. -/
  | dreqPreempt
  /-- DREQ_KILL (R311): DREQ KILL kills a context with a kill record of KIND 3. -/
  | dreqKill
  /-- DREQ_HOLD (R311): DREQ HOLD takes a league off its cores, drives images clean and stops binding it. -/
  | dreqHold
  /-- DREQ_RELEASE (R311): DREQ RELEASE makes a held league bindable again. -/
  | dreqRelease
  /-- CREQ_RELEASE_TOP (R312): Releases the top 32 GiB of partition memory for a slice removal. -/
  | creqReleaseTop
  /-- CREQ_RESIZE_ADD (R315): Castle performs a resize step that adds a slice. -/
  | creqResizeAdd (arg : DWord) (mgmt : Bool)
  /-- CREQ_RESIZE_REMOVE (R316): Castle performs a resize step that removes the last slice. -/
  | creqResizeRemove (arg : DWord) (mgmt : Bool)
  /-- CREQ_SIGN (R325): Castle signs a checkpoint manifest with the partition key. -/
  | creqSign
  /-- CREQ_RESTORE (R326): Castle verifies and restores a checkpoint onto a matching partition. -/
  | creqRestore
  /-- VFREEZE_FREEZE (R329): Setting FREEZE stops a VDEV's teams at the pre-emption point, waiting for a switch commit. -/
  | vfreezeFreeze (vf : Nat)
  /-- VFREEZE_THAW (R329): Clearing FREEZE thaws the VDEV. -/
  | vfreezeThaw (vf : Nat)
  /-- FREEZE_ROLLBACK (R329): A context switch not committed within 20 us is rolled back. -/
  | freezeRollback (vf : Nat)
  /-- SFENCE_VMA (R172): A host SFENCE.VMA invalidates matching TLB entries of the partition's cores and engines. -/
  | sfenceVma (of : FenceOf) (va : Option DWord)
  /-- HFENCE (R172): HFENCE.GVMA or HFENCE.VVMA invalidates two-stage TLB entries. -/
  | hfence (vmid : Option Nat) (asid : Option Nat) (va : Option DWord)
  /-- HBEAT (R339): A write to HBEAT counts a heartbeat and thaws a frozen partition. -/
  | hbeat (value : DWord)
  /-- HEARTBEAT_MISSED (R339): An HBPERIOD without a heartbeat freezes the partition. -/
  | heartbeatMissed
  /-- SCRUB (R340): The 5 s grace period expires and Castle scrubs and restarts the partition. -/
  | scrub
  /-- PWRREQ (R344): Writing PWRREQ requests a cluster-clock code, checked against floor, mask and budget. -/
  | pwrreq (value : DWord)
  /-- FCODE_STEP (R342): Once the rail has settled, the cluster clock changes to the new FCODE. -/
  | fcodeStep
  /-- POWER_SAMPLE (R345): Every 10 us the firmware samples stall ratios and lowers FCODE over budget. -/
  | powerSample (power : Nat)
  /-- CLUSTER_START (R341): At power-up or partition start one more cluster begins running each microsecond. -/
  | clusterStart
  /-- POWER_UP (R341): Module power-up or cold reset, with Castle boot and the action table locked. -/
  | powerUp
  /-- PARTITION_CREATE (R305): Castle forms a partition by programming firewalls, interleave, routes and functions. -/
  | partitionCreate (d : PDesc)
  /-- FIREWALL_VIOLATION (R314): A router discards a packet that leaves its partition rectangle. -/
  | firewallViolation (src : ReqSrc)
  /-- DIE_LINK (R331): A die refuses a packet from a different world. -/
  | dieLink (link : DieCross) (src : ReqSrc)
  /-- IDE_FAIL (R332): An IDE integrity check fails on a host-port stream. -/
  | ideFail (src : ReqSrc)
  /-- DEBUG (R332): A JTAG access other than IDCODE or BYPASS after the lock. -/
  | debugAccess (src : ReqSrc)
  /-- SLICE_PORT_AUTH_FAIL (R320): A slice-port frame fails authentication and is dropped and counted. -/
  | slicePortAuthFail (slice : Nat)
  /-- SLICE_RESET (R323): A memory controller silent for 10 ms makes Castle reset its slice. -/
  | sliceReset (slice : Nat)
  /-- IDE_KEY_PROGRAM (R337): A key-programming request takes an IDE key slot or is refused. -/
  | ideKeyProgram (port : Nat) (pf : Nat) (fn : Nat) (stream : Nat)
  /-- GET_VERSION (R336): SPDM GET_VERSION request to a function's responder. -/
  | getVersion (fn : Nat)
  /-- GET_CAPABILITIES (R336): SPDM GET_CAPABILITIES request. -/
  | getCapabilities (fn : Nat)
  /-- NEGOTIATE_ALGORITHMS (R336): SPDM NEGOTIATE_ALGORITHMS request. -/
  | negotiateAlgorithms (fn : Nat)
  /-- GET_DIGESTS (R336): SPDM GET_DIGESTS request. -/
  | getDigests (fn : Nat)
  /-- GET_CERTIFICATE (R336): SPDM GET_CERTIFICATE request. -/
  | getCertificate (fn : Nat)
  /-- CHALLENGE (R336): SPDM CHALLENGE request. -/
  | challenge (fn : Nat)
  /-- GET_MEASUREMENTS (R336): SPDM GET_MEASUREMENTS request returning the measurement blocks. -/
  | getMeasurements (fn : Nat)
  /-- KEY_EXCHANGE (R336): SPDM KEY_EXCHANGE request. -/
  | keyExchange (fn : Nat)
  /-- HOST_HART_ACCESS (R321): A host hart's load, store, AMO or instruction fetch reaches partition memory, and a poisoned word
  gives an access fault and an error-queue record. -/
  | hostHartAccess (hart : Nat) (acc : HartAccess)
  /-- INTERRUPT_PENDING (R265): An interrupt becomes pending and enabled at a hart and ends a waiting XLJWAIT. -/
  | interruptPending (hart : Nat)
  /-- STREAM_STOP (R337): An IDE stream of a host port is stopped and frees its key slot. -/
  | streamStop (port : Nat) (stream : Nat)
  /-- FUNCTION_RESET (R337): A host-port function is reset, freeing the IDE key slots of its streams. -/
  | functionReset (pf : Nat) (fn : Nat)
  /-- SLICE_PORT_FRAME (R320): An authenticated frame arrives at a slice port and enters the mesh at the slice's routers. -/
  | slicePortFrame (slice : Nat) (acc : MeshAccess)
  /-- HOST_PORT_REQUEST (R21): A PCIe or CXL transaction arrives on a host port for a function and enters the mesh inside that
  function's partition. -/
  | hostPortRequest (fn : PortFn) (acc : MeshAccess)
  deriving DecidableEq, Repr

end Sys2Proof
end

