-- ==== Sys2Proof/WellFormed.lean ====
section
/-! DEFINITION. Which instructions have an encoding the part accepts: the register, predicate, size and field rules that an encoding alone decides (R142). -/

namespace Sys2Proof

/-- Why an encoding is no instruction (R142). Every reason ends in the same trap, ILLEGAL_OP. -/
inductive IllForm where
  /-- an unlisted OP, FN6, FN8, FUNC7, operation code or size (R142) -/
  | unlisted
  /-- a nonzero field that a format or function marks reserved or "-" (R142) -/
  | reserved
  /-- an odd register where a pair is required, or a CAS.D register that is no multiple of 4 (R54, R138, R417) -/
  | oddPair
  /-- p0 as a destination (R55) -/
  | p0Dest
  /-- a scope code of 6 or 7 (R142) -/
  | badScope
  /-- HINT 3 (R382) -/
  | badHint
  /-- a VCVT pair, code or element that R135 refuses -/
  | badConvert
  /-- a special register number, scope or access that R60 and R374 refuse -/
  | badSpecial
  /-- an LMAP of lm0 or of a number above 7 (R385) -/
  | badLaneMap
  /-- an XCMD function that needs RE = 1 without it (R456) -/
  | needsReply
  /-- a word of the block header's form (R114), or a first halfword with no second one -/
  | headerForm
  /-- a custom-0 word that R258 does not list -/
  | badCustom
  deriving DecidableEq, Repr

/-- An even register, which names a pair (R54). -/
def evenReg {n : Nat} (r : BitVec n) : Bool := r.toNat % 2 == 0

/-- The special registers of thread scope: TRAPCAUSE, TRAPINFO0, TRAPINFO1, TRAPPC, REGIONCNT (R60). -/
def specialThread (n : Nat) : Bool := 0x0C ≤ n && n ≤ 0x10

/-- The width in bits of a special register (R60). -/
def specialWidth (n : Nat) : Nat :=
  match n with
  | 0x00 => 32 | 0x01 => 32 | 0x02 => 2 | 0x03 => 32 | 0x04 => 12 | 0x05 => 7 | 0x06 => 8
  | 0x07 => 64 | 0x08 => 64 | 0x09 => 2 | 0x0A => 5 | 0x0B => 64 | 0x0C => 8 | 0x0D => 64
  | 0x0E => 64 | 0x0F => 64 | 0x10 => 32 | 0x11 => 1 | 0x12 => 32 | 0x13 => 64 | 0x14 => 64
  | _ => 0

/-- The special registers that SETS may not name (R60). -/
def specialRO (n : Nat) : Bool := n ≤ 0x08 || n == 0x10 || n == 0x13 || n == 0x14

/-- The element count of a packed format, and none for an unpacked one (R135, R427). -/
def Fmt.packed : Fmt → Option Nat
  | .bf16 => some 2
  | .t8 => some 4
  | .t6 => some 5
  | _ => none

/-- The pairs of VCVT that R135 lists. -/
def Fmt.convertible (src dst : Fmt) : Bool :=
  match src, dst with
  | .int, .f32 | .int, .f64 | .int, .bf16 | .int, .t8 | .int, .t6 => true
  | .uint, .f32 | .uint, .f64 | .uint, .bf16 => true
  | .f32, .int | .f32, .uint | .f32, .f64 | .f32, .bf16 | .f32, .t8 | .f32, .t6 => true
  | .f64, .int | .f64, .uint | .f64, .f32 | .f64, .bf16 => true
  | .bf16, .int | .bf16, .uint | .bf16, .f32 | .bf16, .f64 | .bf16, .t8 | .bf16, .t6 => true
  | .t8, .int | .t8, .f32 | .t8, .f64 | .t8, .bf16 | .t8, .t6 => true
  | .t6, .int | .t6, .f32 | .t6, .f64 | .t6, .bf16 | .t6, .t8 => true
  | _, _ => false

/-- E must be below the element count of every packed side, and 0 when neither side is packed (R135). -/
def FCvt.elementOk (f : FCvt) : Bool :=
  match f.src.packed, f.dst.packed with
  | none, none => f.e == 0
  | some n, none => f.e.toNat < n
  | none, some n => f.e.toNat < n
  | some n, some m => f.e.toNat < n && f.e.toNat < m

/-- The rules of VCVT (R135). -/
def FCvt.ok (f : FCvt) : Bool :=
  f.src.convertible f.dst && f.elementOk
    && (f.src != .f64 || evenReg f.va) && (f.dst != .f64 || evenReg f.vd)

/-- The pair rule of the 64-bit format A instructions (R417). -/
def FA.pairs (f : FA) : Bool := evenReg f.va && evenReg f.vb && evenReg f.vd

/-- A peer core may be named only with PEER = 1 (R118). -/
def peerOk (peer : BitVec 1) (core : BitVec 2) : Bool := peer == 1 || core == 0

/-- RE = 0 requires SD = 0 (R387). -/
def FX.ok (f : FX) : Bool := f.re == 1 || f.sd == 0

/-- The register rules of LD (R382). -/
def FLd.form (f : FLd) : Option IllForm :=
  if !evenReg f.va then some .oddPair
  else if f.sz == 3 && !evenReg f.vd then some .oddPair
  else if f.sx == 1 && f.sz.toNat > 1 then some .reserved
  else none

/-- The register rules of ST (R382, R398). -/
def FSt.form (f : FSt) : Option IllForm :=
  if !evenReg f.va then some .oddPair
  else if f.sz == 3 && !evenReg f.vd then some .oddPair
  else none

/-- The register rules of ATOM (R353). -/
def atomForm (f : FRmw AtomOp) : Option IllForm :=
  if !evenReg f.va then some .oddPair
  else if f.op = .fadd ∧ f.wide = 1 then some .unlisted
  else if f.op = .cas then
    if f.wide == 1 then (if f.vd.toNat % 4 == 0 then none else some .oddPair)
    else (if evenReg f.vd then none else some .oddPair)
  else if f.wide == 1 && !evenReg f.vd then some .oddPair
  else none

/-- The register rules of NMRED (R138, R390). -/
def nmredForm (f : FRmw NmOp) : Option IllForm :=
  if !evenReg f.va then some .oddPair
  else if (f.op = .fadd ∨ f.op = .fmax ∨ f.op = .fmin) ∧ f.wide = 1 then some .unlisted
  else if f.wide == 1 && !evenReg f.vd then some .oddPair
  else none

/-- The rules of GETS (R374, R375): the number, the scope against the kind, and the pair rule. -/
def FSpec.form (f : FSpec) (write : Bool) : Option IllForm :=
  let n := f.num.toNat
  if n > 0x14 then some .badSpecial
  else if write && specialRO n then some .badSpecial
  else if f.vk == 1 then
    if !specialThread n then some .badSpecial
    else if specialWidth n == 64 && !evenReg f.sa then some .oddPair
    else none
  else if specialThread n then some .badSpecial
  else none

/-- What is wrong with an instruction's fields, or nothing (R142). A step without an encoding has no fields to be wrong. -/
def Instr.illForm (i : Instr) : Option IllForm :=
  match i with
  | .mov f => if f.s = 0 ∧ f.d = 0 then some .reserved else none
  | .vadd64 f | .vsub64 f | .vdadd f | .vdmul f => if f.pairs then none else some .oddPair
  | .vcmp f => if f.pd = 0 then some .p0Dest else none
  | .vfcmp f => if f.pd = 0 then some .p0Dest else none
  | .vcmpi f => if f.pd = 0 then some .p0Dest else none
  | .vvoteAny f | .vvoteAll f => if f.pd = 0 then some .p0Dest else none
  | .vballot f => if evenReg f.vd then none else some .oddPair
  | .vcvt f => if f.ok then none else some .badConvert
  | .vdfma f =>
    if evenReg f.va && evenReg f.vb && evenReg f.vc && evenReg f.vd then none else some .oddPair
  | .ld f => f.form
  | .st f => f.form
  | .atom f => atomForm f
  | .nmred f => nmredForm f
  | .tld f | .tst f => if peerOk f.peer f.core then none else some .reserved
  | .tatom f => if peerOk f.peer f.core then none else some .reserved
  | .cpy f | .cpym f | .cpyz f | .mlds f | .mstrm f | .mdrn f | .mzacc f | .tqpush f | .dgst f =>
    if f.ok then none else some .reserved
  | .lmap f => if f.m = 0 then some .badLaneMap else none
  | .gets f => f.form false
  | .sets f => f.form true
  | _ => none

/-- An instruction whose encoding the part accepts (R142). -/
def Instr.wf (i : Instr) : Bool := i.illForm.isNone

end Sys2Proof
end

