-- ==== Sys2Proof/Decode.lean ====
section
/-! DEFINITION. Words to instructions and back: the decoder and the encoder of R113 to R142 and of R258. -/

namespace Sys2Proof

/-! ### Codes of the enumerated fields -/

/-- Scope codes (R176). -/
def Scope.code : Scope → BitVec 3
  | .gang => 0
  | .team => 1
  | .cluster => 2
  | .partition => 3
  | .tenant => 4
  | .system => 5

/-- Scope codes (R176). -/
def Scope.ofCode (c : BitVec 3) : Option Scope :=
  match c.toNat with
  | 0 => some .gang
  | 1 => some .team
  | 2 => some .cluster
  | 3 => some .partition
  | 4 => some .tenant
  | 5 => some .system
  | _ => none

/-- Integer condition codes (R132). -/
def ICond.code : ICond → BitVec 3
  | .eq => 0
  | .ne => 1
  | .ltS => 2
  | .geS => 3
  | .ltU => 4
  | .geU => 5
  | .leS => 6
  | .gtS => 7

/-- Integer condition codes (R132). -/
def ICond.ofCode (c : BitVec 3) : ICond :=
  match c.toNat with
  | 0 => .eq
  | 1 => .ne
  | 2 => .ltS
  | 3 => .geS
  | 4 => .ltU
  | 5 => .geU
  | 6 => .leS
  | _ => .gtS

/-- Floating condition codes (R132). -/
def FCond.code : FCond → BitVec 3
  | .eq => 0
  | .ne => 1
  | .lt => 2
  | .le => 3
  | .gt => 4
  | .ge => 5
  | .unord => 6
  | .ord => 7

/-- Floating condition codes (R132). -/
def FCond.ofCode (c : BitVec 3) : FCond :=
  match c.toNat with
  | 0 => .eq
  | 1 => .ne
  | 2 => .lt
  | 3 => .le
  | 4 => .gt
  | 5 => .ge
  | 6 => .unord
  | _ => .ord

/-- VSHI kinds (R118). -/
def ShKind.code : ShKind → BitVec 2
  | .shl => 0
  | .shrU => 1
  | .shrS => 2
  | .rot => 3

/-- VSHI kinds (R118). -/
def ShKind.ofCode (c : BitVec 2) : ShKind :=
  match c.toNat with
  | 0 => .shl
  | 1 => .shrU
  | 2 => .shrS
  | _ => .rot

/-- VCVT format codes (R135). -/
def Fmt.code : Fmt → BitVec 3
  | .int => 0
  | .uint => 1
  | .f32 => 2
  | .f64 => 3
  | .bf16 => 4
  | .t8 => 5
  | .t6 => 6

/-- VCVT format codes (R135). -/
def Fmt.ofCode (c : BitVec 3) : Option Fmt :=
  match c.toNat with
  | 0 => some .int
  | 1 => some .uint
  | 2 => some .f32
  | 3 => some .f64
  | 4 => some .bf16
  | 5 => some .t8
  | 6 => some .t6
  | _ => none

/-- GETV selectors (R136). -/
def GSel.code : GSel → BitVec 6
  | .tid => 0
  | .lane => 1
  | .gang => 2
  | .quad => 3
  | .plane => 4
  | .pawn => 5

/-- GETV selectors (R136). -/
def GSel.ofCode (c : BitVec 6) : Option GSel :=
  match c.toNat with
  | 0 => some .tid
  | 1 => some .lane
  | 2 => some .gang
  | 3 => some .quad
  | 4 => some .plane
  | 5 => some .pawn
  | _ => none

/-- VREDU operations, FN6 - 0x20 (R136). -/
def RedOp.code : RedOp → BitVec 6
  | .add => 0
  | .and => 1
  | .or => 2
  | .xor => 3
  | .minS => 4
  | .maxS => 5
  | .minU => 6
  | .maxU => 7
  | .fadd => 8
  | .fmin => 9
  | .fmax => 10

/-- VREDU operations, FN6 - 0x20 (R136). -/
def RedOp.ofCode (c : BitVec 6) : Option RedOp :=
  match c.toNat with
  | 0 => some .add
  | 1 => some .and
  | 2 => some .or
  | 3 => some .xor
  | 4 => some .minS
  | 5 => some .maxS
  | 6 => some .minU
  | 7 => some .maxU
  | 8 => some .fadd
  | 9 => some .fmin
  | 10 => some .fmax
  | _ => none

/-- ATOM operations (R138). -/
def AtomOp.code : AtomOp → BitVec 4
  | .add => 0
  | .and => 1
  | .or => 2
  | .xor => 3
  | .minS => 4
  | .maxS => 5
  | .minU => 6
  | .maxU => 7
  | .xchg => 8
  | .cas => 9
  | .fadd => 10

/-- ATOM operations (R138). -/
def AtomOp.ofCode (c : BitVec 4) : Option AtomOp :=
  match c.toNat with
  | 0 => some .add
  | 1 => some .and
  | 2 => some .or
  | 3 => some .xor
  | 4 => some .minS
  | 5 => some .maxS
  | 6 => some .minU
  | 7 => some .maxU
  | 8 => some .xchg
  | 9 => some .cas
  | 10 => some .fadd
  | _ => none

/-- NMRED operations (R138). -/
def NmOp.code : NmOp → BitVec 4
  | .add => 0
  | .fadd => 1
  | .maxS => 2
  | .minS => 3
  | .maxU => 4
  | .minU => 5
  | .fmax => 6
  | .fmin => 7

/-- NMRED operations (R138). -/
def NmOp.ofCode (c : BitVec 4) : Option NmOp :=
  match c.toNat with
  | 0 => some .add
  | 1 => some .fadd
  | 2 => some .maxS
  | 3 => some .minS
  | 4 => some .maxU
  | 5 => some .minU
  | 6 => some .fmax
  | 7 => some .fmin
  | _ => none

/-- TATOM operations (R139). -/
def TatomOp.code : TatomOp → BitVec 3
  | .add => 0
  | .minS => 1
  | .maxS => 2
  | .minU => 3
  | .and => 4
  | .or => 5
  | .xor => 6
  | .xchg => 7

/-- TATOM operations (R139). -/
def TatomOp.ofCode (c : BitVec 3) : TatomOp :=
  match c.toNat with
  | 0 => .add
  | 1 => .minS
  | 2 => .maxS
  | 3 => .minU
  | 4 => .and
  | 5 => .or
  | 6 => .xor
  | _ => .xchg

/-- HINT codes (R382). -/
def Hint.code : Hint → BitVec 2
  | .normal => 0
  | .streaming => 1
  | .bypass => 2

/-- HINT codes (R382). -/
def Hint.ofCode (c : BitVec 2) : Option Hint :=
  match c.toNat with
  | 0 => some .normal
  | 1 => some .streaming
  | 2 => some .bypass
  | _ => none

/-- FENCE kinds (R188). -/
def FenceKind.code : FenceKind → BitVec 2
  | .acq => 0
  | .rel => 1
  | .ar => 2
  | .nm => 3

/-- FENCE kinds (R188). -/
def FenceKind.ofCode (c : BitVec 2) : FenceKind :=
  match c.toNat with
  | 0 => .acq
  | 1 => .rel
  | 2 => .ar
  | _ => .nm

/-- Tile levels (R401). -/
def Level.code : Level → BitVec 4
  | .scr => 0
  | .ring => 1
  | .gwin => 2

/-- Tile levels (R401). -/
def Level.ofCode (c : BitVec 4) : Option Level :=
  match c.toNat with
  | 0 => some .scr
  | 1 => some .ring
  | 2 => some .gwin
  | _ => none

/-! ### Fields of a word -/

/-- n bits of a word from bit lo up. -/
abbrev fld (w : Word) (lo n : Nat) : BitVec n := w.extractLsb' lo n

/-- A field that must be zero (R142). -/
def rz (w : Word) (lo n : Nat) : Bool := fld w lo n == 0

/-- The instruction, if its fields are ones the part accepts. -/
def accept (i : Instr) : Except IllForm Instr :=
  match i.illForm with
  | none => .ok i
  | some e => .error e

/-- The instruction, if a reserved field was zero and its other fields are accepted. -/
def acceptIf (z : Bool) (i : Instr) : Except IllForm Instr :=
  if z then accept i else .error .reserved

/-- An instruction with a coded field: the reason e where the code is not listed. -/
def coded {α : Type} (c : Option α) (e : IllForm) (k : α → Except IllForm Instr) : Except IllForm Instr :=
  match c with
  | some a => k a
  | none => .error e

/-! ### 16-bit instructions (R116) -/

/-- Format C (R116): VS in bits 15:11, VD in 10:5, OP16 in 4:1, bit 0 zero. -/
def decode16 (h : Half) : Except IllForm Instr :=
  let f : FC := ⟨h.extractLsb' 11 5, h.extractLsb' 5 6⟩
  if h.extractLsb' 0 1 == 1 then .error .headerForm
  else if h == 0 then .ok .nop
  else
    match (h.extractLsb' 1 4).toNat with
    | 0 => accept (.mov f)
    | 1 => accept (.vaddC f)
    | 2 => accept (.vsubC f)
    | 3 => accept (.vmulC f)
    | 4 => accept (.vandC f)
    | 5 => accept (.vorC f)
    | 6 => accept (.vxorC f)
    | 7 => accept (.vshlC f)
    | 8 => accept (.vshrUC f)
    | 9 => accept (.vshrSC f)
    | 10 => accept (.vminSC f)
    | 11 => accept (.vmaxSC f)
    | 12 => accept (.vfaddC f)
    | 13 => accept (.vfsubC f)
    | 14 => accept (.vfmulC f)
    | _ => accept (.vfmaxC f)

/-! ### 32-bit formats (R118) -/

/-- Format A. -/
def fieldsA (w : Word) : FA := ⟨fld w 29 3, fld w 23 6, fld w 17 6, fld w 11 6, fld w 9 2, fld w 1 2⟩
/-- Format I. -/
def fieldsI (w : Word) : FI := ⟨fld w 23 9, fld w 17 6, fld w 11 6, fld w 9 2, fld w 1 2⟩
/-- Format U without FN6. -/
def fieldsU (w : Word) : FU := ⟨fld w 29 3, fld w 17 6, fld w 11 6, fld w 9 2, fld w 1 2⟩
/-- Format F. -/
def fieldsF (w : Word) : FF := ⟨fld w 27 5, fld w 21 6, fld w 15 6, fld w 9 6, fld w 1 2⟩
/-- Format T. -/
def fieldsT (w : Word) : FT := ⟨fld w 30 1, fld w 28 2, fld w 23 5, fld w 17 6, fld w 11 6, fld w 9 2, fld w 1 2⟩
/-- Format S without FN8. -/
def fieldsS (w : Word) : FS := ⟨fld w 19 5, fld w 14 5, fld w 9 5, fld w 1 2⟩
/-- Format X without FUNC7. -/
def fieldsX (w : Word) : FX := ⟨fld w 31 1, fld w 26 5, fld w 21 5, fld w 16 5, fld w 1 2⟩

/-- VUNA (R133). -/
def decodeVuna (w : Word) : Except IllForm Instr :=
  let f := fieldsU w
  match (fld w 23 6).toNat with
  | 0x0 => accept (.vmov f)
  | 0x1 => accept (.vnot f)
  | 0x2 => accept (.vneg f)
  | 0x3 => accept (.vabs f)
  | 0x4 => accept (.vclz f)
  | 0x5 => accept (.vpopc f)
  | 0x6 => accept (.vbrev f)
  | 0x8 => accept (.vfneg f)
  | 0x9 => accept (.vfabs f)
  | 0xa => accept (.vffloor f)
  | 0xb => accept (.vfceil f)
  | 0xc => accept (.vftrunc f)
  | 0xd => accept (.vfrint f)
  | 0x10 => accept (.vsextB f)
  | 0x11 => accept (.vsextH f)
  | 0x12 => accept (.vzextB f)
  | 0x13 => accept (.vzextH f)
  | _ => .error .unlisted

/-- VSFU (R134). -/
def decodeVsfu (w : Word) : Except IllForm Instr :=
  let f := fieldsU w
  match (fld w 23 6).toNat with
  | 0x0 => accept (.vrcp f)
  | 0x1 => accept (.vrsq f)
  | 0x2 => accept (.vsqrt f)
  | 0x3 => accept (.vex2 f)
  | 0x4 => accept (.vlg2 f)
  | 0x5 => accept (.vsin f)
  | 0x6 => accept (.vcos f)
  | 0x7 => accept (.vtanh f)
  | 0x10 => accept (.vdivU f)
  | 0x11 => accept (.vdivS f)
  | 0x12 => accept (.vremU f)
  | 0x13 => accept (.vremS f)
  | 0x14 => accept (.vfdiv f)
  | _ => .error .unlisted

/-- UOP (R137). -/
def decodeUop (w : Word) : Except IllForm Instr :=
  let f := fieldsS w
  match (fld w 24 8).toNat with
  | 0x0 => accept (.uadd f)
  | 0x1 => accept (.usub f)
  | 0x2 => accept (.umul f)
  | 0x3 => accept (.umulhU f)
  | 0x4 => accept (.uand f)
  | 0x5 => accept (.uor f)
  | 0x6 => accept (.uxor f)
  | 0x7 => accept (.ushl f)
  | 0x8 => accept (.ushrU f)
  | 0x9 => accept (.ushrS f)
  | 0xa => accept (.uminS f)
  | 0xb => accept (.uminU f)
  | 0xc => accept (.umaxS f)
  | 0xd => accept (.umaxU f)
  | 0x10 => accept (.usltS f)
  | 0x11 => accept (.usltU f)
  | 0x12 => accept (.useq f)
  | _ => .error .unlisted

/-- VCVT (R135): FN6 = 8 * s + d. -/
def decodeVcvt (w : Word) : Except IllForm Instr :=
  coded (Fmt.ofCode (fld w 26 3)) .badConvert fun s =>
  coded (Fmt.ofCode (fld w 23 3)) .badConvert fun d =>
  accept (.vcvt ⟨fld w 29 3, s, d, fld w 17 6, fld w 11 6, fld w 9 2, fld w 1 2⟩)

/-- VXL (R136): LM must be 0 but for QBCAST, and the bits above a small number must be 0. -/
def decodeVxl (w : Word) : Except IllForm Instr :=
  let lm0 := rz w 29 3
  let p := fld w 9 2
  let wt := fld w 1 2
  let fn := (fld w 23 6).toNat
  let qx : FQx := ⟨fld w 17 6, fld w 11 6, p, wt⟩
  let vote : FVote := ⟨fld w 17 3, fld w 11 3, p, wt⟩
  if 0x20 ≤ fn && fn ≤ 0x2A then
    coded (RedOp.ofCode (BitVec.ofNat 6 (fn - 0x20))) .unlisted fun o =>
    acceptIf lm0 (.vredu ⟨o, fld w 17 6, fld w 11 6, p, wt⟩)
  else
    match fn with
    | 0x00 => acceptIf lm0 (.qxchH qx)
    | 0x01 => acceptIf lm0 (.qxchV qx)
    | 0x02 => acceptIf lm0 (.qxchD qx)
    | 0x03 => acceptIf (rz w 31 1) (.qbcast ⟨fld w 29 2, fld w 17 6, fld w 11 6, p, wt⟩)
    | 0x08 => acceptIf (lm0 && rz w 20 3 && rz w 14 3) (.vvoteAny vote)
    | 0x09 => acceptIf (lm0 && rz w 20 3 && rz w 14 3) (.vvoteAll vote)
    | 0x0A => acceptIf (lm0 && rz w 20 3) (.vballot ⟨fld w 17 3, fld w 11 6, p, wt⟩)
    | 0x0B => acceptIf (lm0 && rz w 13 4) (.vseti ⟨fld w 17 6, fld w 11 2, p, wt⟩)
    | 0x0C => acceptIf (lm0 && rz w 19 4) (.vmovx ⟨fld w 17 2, fld w 11 6, p, wt⟩)
    | 0x0D => acceptIf (lm0 && rz w 19 4) (.vstx ⟨fld w 17 2, fld w 11 6, p, wt⟩)
    | 0x0E => coded (GSel.ofCode (fld w 17 6)) .unlisted fun g => acceptIf lm0 (.getv ⟨g, fld w 11 6, p, wt⟩)
    | 0x0F => acceptIf lm0 (.vmovu ⟨fld w 22 1, fld w 17 5, fld w 11 6, p, wt⟩)
    | _ => .error .unlisted

/-- LD and ST (R382). -/
def decodeLdSt (store : Bool) (w : Word) : Except IllForm Instr :=
  coded (Hint.ofCode (fld w 30 2)) .badHint fun h =>
  coded (Scope.ofCode (fld w 27 3)) .badScope fun sc =>
  if store then
    acceptIf (rz w 25 1) (.st ⟨h, sc, fld w 26 1, fld w 23 2, fld w 17 6, fld w 11 6, fld w 9 2, fld w 1 2⟩)
  else accept (.ld ⟨h, sc, fld w 26 1, fld w 25 1, fld w 23 2, fld w 17 6, fld w 11 6, fld w 9 2, fld w 1 2⟩)

/-- ATOM (R352): sizes 0 and 1 are not listed. -/
def decodeAtom (w : Word) : Except IllForm Instr :=
  if fld w 31 1 == 0 then .error .unlisted
  else
    coded (Scope.ofCode (fld w 27 3)) .badScope fun sc =>
    coded (AtomOp.ofCode (fld w 23 4)) .unlisted fun o =>
    accept (.atom ⟨fld w 30 1, sc, o, fld w 17 6, fld w 11 6, fld w 9 2, fld w 1 2⟩)

/-- NMRED (R390): sizes 0 and 1 are not listed. -/
def decodeNmred (w : Word) : Except IllForm Instr :=
  if fld w 31 1 == 0 then .error .unlisted
  else
    coded (Scope.ofCode (fld w 27 3)) .badScope fun sc =>
    coded (NmOp.ofCode (fld w 23 4)) .unlisted fun o =>
    accept (.nmred ⟨fld w 30 1, sc, o, fld w 17 6, fld w 11 6, fld w 9 2, fld w 1 2⟩)

/-- XCMD (R141). -/
def decodeXcmd (w : Word) : Except IllForm Instr :=
  let f := fieldsX w
  match (fld w 9 7).toNat with
  | 0x00 => if f.re == 1 then acceptIf (rz w 21 5) (.xstat ⟨f.sd, f.sa, f.w⟩) else .error .needsReply
  | 0x08 => accept (.cpy f)
  | 0x09 => accept (.cpym f)
  | 0x0A => accept (.cpyz f)
  | 0x10 => accept (.mlds f)
  | 0x11 => accept (.mstrm f)
  | 0x12 => accept (.mdrn f)
  | 0x13 => accept (.mzacc f)
  | 0x20 => accept (.tqpush f)
  | 0x21 => if f.re == 1 then accept (.tqpop ⟨f.sd, f.sb, f.sa, f.w⟩) else .error .needsReply
  | 0x30 => accept (.dgst f)
  | _ => .error .unlisted

/-- SYNC (R140): a field marked "-" must be 0. -/
def decodeSync (w : Word) : Except IllForm Instr :=
  let sc0 := rz w 29 3
  let sb0 := rz w 18 5
  let sa0 := rz w 13 5
  let ix0 := rz w 9 4
  let sb := fld w 18 5
  let sa := fld w 13 5
  let ix := fld w 9 4
  let wt := fld w 1 2
  let scope := Scope.ofCode (fld w 29 3)
  match (fld w 23 6).toNat with
  | 0x00 => acceptIf sc0 (.binit ⟨sb, sa, ix, wt⟩)
  | 0x01 => coded scope .badScope fun sc => acceptIf (sb0 && sa0) (.barv ⟨sc, ix, wt⟩)
  | 0x02 => coded scope .badScope fun sc => acceptIf (sb0 && sa0) (.bwait ⟨sc, ix, wt⟩)
  | 0x03 => acceptIf (sc0 && sb0) (.bexp ⟨sa, ix, wt⟩)
  | 0x04 => acceptIf (sc0 && sb0) (.bstat ⟨sa, ix, wt⟩)
  | 0x08 => coded scope .badScope fun sc =>
      acceptIf (sb0 && sa0 && rz w 11 2) (.fence ⟨sc, FenceKind.ofCode (fld w 9 2), wt⟩)
  | 0x0C => coded scope .badScope fun sc => acceptIf (sb0 && ix0) (.marm ⟨sc, sa, wt⟩)
  | 0x0D => acceptIf (sc0 && sb0 && ix0) (.mwait ⟨sa, wt⟩)
  | 0x10 => acceptIf sc0 (.karm ⟨sb, sa, ix, wt⟩)
  | 0x11 => coded scope .badScope fun sc => acceptIf (sb0 && sa0) (.ksign ⟨sc, ix, wt⟩)
  | 0x14 => acceptIf (sc0 && rz w 10 3) (.rget ⟨fld w 9 1, sa, sb, wt⟩)
  | 0x15 => acceptIf (sc0 && rz w 10 3) (.rput ⟨fld w 9 1, sa, sb, wt⟩)
  | 0x18 => coded (Level.ofCode ix) .unlisted fun l => acceptIf sc0 (.talloc ⟨l, sa, sb, wt⟩)
  | 0x19 => acceptIf (sc0 && sb0 && ix0) (.tfree ⟨sa, wt⟩)
  | 0x1A => acceptIf (sc0 && ix0) (.tinfo ⟨sa, sb, wt⟩)
  | 0x1C => if rz w 12 1 then acceptIf (sc0 && sb0) (.lmap ⟨fld w 9 3, sa, wt⟩) else .error .badLaneMap
  | 0x1D => acceptIf (sc0 && sb0) (.plog ⟨sa, ix, wt⟩)
  | 0x20 => acceptIf (sc0 && rz w 10 2) (.gets ⟨fld w 12 1, fld w 9 1, sa, sb, wt⟩)
  | 0x21 => acceptIf (sc0 && rz w 10 2) (.sets ⟨fld w 12 1, fld w 9 1, sa, sb, wt⟩)
  | 0x24 => acceptIf (sc0 && sb0 && ix0) (.syscall ⟨sa, wt⟩)
  | 0x25 => acceptIf (sc0 && sb0 && sa0) (.trap ⟨ix, wt⟩)
  | 0x26 => acceptIf (sc0 && sb0 && sa0 && ix0) (.hret wt)
  | 0x27 => acceptIf (sc0 && sb0 && sa0) (.brk ⟨ix, wt⟩)
  | 0x28 => acceptIf (sc0 && sb0 && sa0 && ix0) (.yield wt)
  | _ => .error .unlisted

/-- A 32-bit instruction, by its major opcode in bits 8:3 (R131). -/
def decode32 (w : Word) : Except IllForm Instr :=
  let a := fieldsA w
  let i := fieldsI w
  let f := fieldsF w
  if fld w 0 1 == 0 then .error .headerForm
  else
    match (fld w 3 6).toNat with
    | 0x01 => accept (.vadd a)
    | 0x02 => accept (.vsub a)
    | 0x03 => accept (.vmul a)
    | 0x04 => accept (.vmulhS a)
    | 0x05 => accept (.vmulhU a)
    | 0x06 => accept (.vminS a)
    | 0x07 => accept (.vminU a)
    | 0x08 => accept (.vmaxS a)
    | 0x09 => accept (.vmaxU a)
    | 0x0A => accept (.vand a)
    | 0x0B => accept (.vor a)
    | 0x0C => accept (.vxor a)
    | 0x0D => accept (.vshl a)
    | 0x0E => accept (.vshrU a)
    | 0x0F => accept (.vshrS a)
    | 0x10 => accept (.vaddSat a)
    | 0x11 => accept (.vadd64 a)
    | 0x12 => accept (.vsub64 a)
    | 0x13 => accept (.vcmp ⟨fld w 29 3, fld w 23 6, fld w 17 6, ICond.ofCode (fld w 14 3), fld w 11 3, fld w 9 2, fld w 1 2⟩)
    | 0x14 => accept (.vfadd a)
    | 0x15 => accept (.vfsub a)
    | 0x16 => accept (.vfmul a)
    | 0x17 => accept (.vfmin a)
    | 0x18 => accept (.vfmax a)
    | 0x19 => accept (.vfcmp ⟨fld w 29 3, fld w 23 6, fld w 17 6, FCond.ofCode (fld w 14 3), fld w 11 3, fld w 9 2, fld w 1 2⟩)
    | 0x1A => accept (.vhadd a)
    | 0x1B => accept (.vhmul a)
    | 0x1C => accept (.vdadd a)
    | 0x1D => accept (.vdmul a)
    | 0x1E => accept (.vsel ⟨fld w 29 3, fld w 23 6, fld w 17 6, fld w 11 6, fld w 9 2, fld w 1 2⟩)
    | 0x1F => accept (.tatom ⟨fld w 31 1, fld w 29 2, TatomOp.ofCode (fld w 26 3), fld w 21 5, fld w 15 6, fld w 9 6, fld w 1 2⟩)
    | 0x20 => accept (.vaddi i)
    | 0x21 => accept (.vandi i)
    | 0x22 => accept (.vori i)
    | 0x23 => accept (.vxori i)
    | 0x24 => acceptIf (rz w 30 2) (.vshi ⟨ShKind.ofCode (fld w 28 2), fld w 23 5, fld w 17 6, fld w 11 6, fld w 9 2, fld w 1 2⟩)
    | 0x25 => accept (.vcmpi ⟨fld w 23 9, fld w 17 6, ICond.ofCode (fld w 14 3), fld w 11 3, fld w 9 2, fld w 1 2⟩)
    | 0x26 => accept (.vmovi ⟨fld w 17 15, fld w 11 6, fld w 9 2, fld w 1 2⟩)
    | 0x27 => decodeVuna w
    | 0x28 => decodeVsfu w
    | 0x29 => decodeVcvt w
    | 0x2A => decodeVxl w
    | 0x2B => accept (.vfma f)
    | 0x2C => accept (.vfnma f)
    | 0x2D => accept (.vmad f)
    | 0x2E => accept (.vhfma f)
    | 0x2F => accept (.vdfma f)
    | 0x30 => accept (.vdot2 f)
    | 0x31 => accept (.vbdotT8 ⟨f.vc, f.vb, f.va, f.vd, f.w⟩)
    | 0x32 => accept (.vbdotT6 ⟨f.vc, f.vb, f.va, f.vd, f.w⟩)
    | 0x33 => acceptIf (rz w 27 5 && rz w 1 2) (.vbdotI8 ⟨f.vb, f.va, f.vd⟩)
    | 0x34 => acceptIf (rz w 27 5) (.vreq ⟨f.vb, f.va, f.vd, f.w⟩)
    | 0x35 => decodeLdSt false w
    | 0x36 => decodeLdSt true w
    | 0x37 => decodeAtom w
    | 0x38 => decodeNmred w
    | 0x39 => acceptIf (rz w 31 1) (.tld (fieldsT w))
    | 0x3A => acceptIf (rz w 31 1) (.tst (fieldsT w))
    | 0x3B => decodeUop w
    | 0x3C => accept (.uaddi ⟨fld w 19 13, fld w 14 5, fld w 9 5, fld w 1 2⟩)
    | 0x3D => decodeXcmd w
    | 0x3E => decodeSync w
    | 0x3F => .error .headerForm
    | _ => .error .unlisted

/-! ### The host extension Xthelor (R258) -/

/-- A custom-0 word of a host hart (R258). DESIGN CHOICE: assumption 6. -/
def decodeHost (w : Word) : Except IllForm Instr :=
  if fld w 0 7 != 0x0B then .error .unlisted
  else if !rz w 25 7 then .error .badCustom
  else
    match (fld w 12 3).toNat with
    | 0 => if rz w 15 10 then .ok (.xlspawn (fld w 7 5)) else .error .badCustom
    | 1 => .ok (.xljwait (fld w 7 5) (fld w 15 5) (fld w 20 5))
    | 2 => .ok (.xlqpush (fld w 7 5) (fld w 15 5) (fld w 20 5))
    | _ => .error .badCustom

/-! ### Bytes -/

/-- A little-endian number of a list of bytes (R5). -/
def leNat : List Byte → Nat
  | [] => 0
  | b :: bs => b.toNat + 256 * leNat bs

/-- n bytes of a number, lowest first (R5). -/
def leBytes : Nat → Nat → List Byte
  | 0, _ => []
  | n + 1, v => BitVec.ofNat 8 v :: leBytes n (v / 256)

/-- The first instruction of a stream of code bytes and its length in bytes: bit 0 of the first halfword
gives the length (R113). DESIGN CHOICE: assumption 6. -/
def decodeBytes (bs : List Byte) : Except IllForm (Instr × Nat) :=
  match bs with
  | b0 :: b1 :: rest =>
    let h := BitVec.ofNat 16 (leNat [b0, b1])
    if h.extractLsb' 0 1 == 0 then
      match decode16 h with
      | .ok i => .ok (i, 2)
      | .error e => .error e
    else
      match rest with
      | b2 :: b3 :: _ =>
        match decode32 (BitVec.ofNat 32 (leNat [b0, b1, b2, b3])) with
        | .ok i => .ok (i, 4)
        | .error e => .error e
      | _ => .error .headerForm
  | _ => .error .headerForm

/-- Whether a 32-bit word is one a host hart executes as Xthelor (R258). The same bits are also a Fjardon word:
which instruction set reads them is decided by who fetches them, a host hart or a core. DESIGN CHOICE: assumption 6. -/
def hostWord (nbits w : Nat) : Bool :=
  nbits == 32 && (match decodeHost (BitVec.ofNat 32 w) with | .ok _ => true | .error _ => false)

/-- The instruction read from w, laid out little-endian as the part stores it (R5): a word of R258's form is
read as a host hart reads it, every other word as a core does. DESIGN CHOICE: assumption 6. -/
def decodeTableWord (nbits w : Nat) : Option Instr :=
  if hostWord nbits w then
    match decodeHost (BitVec.ofNat 32 w) with
    | .ok i => some i
    | .error _ => none
  else
    match decodeBytes (leBytes 4 (w % 2 ^ nbits)) with
    | .ok (i, _) => some i
    | .error _ => none

/-! ### The encoder -/

/-- The bits of an encoding. -/
inductive Enc where
  | half (h : Half) | word (w : Word)
  deriving DecidableEq, Repr

/-- Format C. -/
def encC (op : BitVec 4) (f : FC) : Half := f.s ++ f.d ++ op ++ 0#1
/-- Format A. -/
def encA (op : BitVec 6) (f : FA) : Word := f.lm ++ f.vb ++ f.va ++ f.vd ++ f.p ++ op ++ f.w ++ 1#1
/-- Format I. -/
def encI (op : BitVec 6) (f : FI) : Word := f.imm ++ f.va ++ f.vd ++ f.p ++ op ++ f.w ++ 1#1
/-- Format U. -/
def encU (op : BitVec 6) (fn : BitVec 6) (f : FU) : Word := f.lm ++ fn ++ f.va ++ f.vd ++ f.p ++ op ++ f.w ++ 1#1
/-- Format F. -/
def encF (op : BitVec 6) (f : FF) : Word := f.vc ++ f.vb ++ f.va ++ f.vd ++ op ++ f.w ++ 1#1
/-- Format T. -/
def encT (op : BitVec 6) (f : FT) : Word :=
  0#1 ++ f.peer ++ f.core ++ f.h ++ f.va ++ f.vd ++ f.p ++ op ++ f.w ++ 1#1
/-- Format S. -/
def encS (fn : BitVec 8) (f : FS) : Word := fn ++ f.sb ++ f.sa ++ f.sd ++ 0x3B#6 ++ f.w ++ 1#1
/-- Format X. -/
def encX (fn : BitVec 7) (f : FX) : Word := f.re ++ f.sd ++ f.sb ++ f.sa ++ fn ++ 0x3D#6 ++ f.w ++ 1#1
/-- Format K. -/
def encK (sc : BitVec 3) (fn : BitVec 6) (sb sa : BitVec 5) (ix : BitVec 4) (w : BitVec 2) : Word :=
  sc ++ fn ++ sb ++ sa ++ ix ++ 0x3E#6 ++ w ++ 1#1
/-- VXL: format U with raw LM, VA and VD fields. -/
def encVxl (lm : BitVec 3) (fn va vd : BitVec 6) (p w : BitVec 2) : Word :=
  lm ++ fn ++ va ++ vd ++ p ++ 0x2A#6 ++ w ++ 1#1
/-- Xthelor (R258). -/
def encHost (fn : BitVec 3) (rd rs1 rs2 : BitVec 5) : Word := 0#7 ++ rs2 ++ rs1 ++ fn ++ rd ++ 0x0B#7

/-- The word or halfword of an instruction; a step without an encoding has none. -/
def encode (i : Instr) : Option Enc :=
  match i with
  | .mov f => some (.half (encC 0 f))
  | .nop => some (.half 0)
  | .vaddC f => some (.half (encC 1 f))
  | .vsubC f => some (.half (encC 2 f))
  | .vmulC f => some (.half (encC 3 f))
  | .vandC f => some (.half (encC 4 f))
  | .vorC f => some (.half (encC 5 f))
  | .vxorC f => some (.half (encC 6 f))
  | .vshlC f => some (.half (encC 7 f))
  | .vshrUC f => some (.half (encC 8 f))
  | .vshrSC f => some (.half (encC 9 f))
  | .vminSC f => some (.half (encC 10 f))
  | .vmaxSC f => some (.half (encC 11 f))
  | .vfaddC f => some (.half (encC 12 f))
  | .vfsubC f => some (.half (encC 13 f))
  | .vfmulC f => some (.half (encC 14 f))
  | .vfmaxC f => some (.half (encC 15 f))
  | .vadd f => some (.word (encA 0x01 f))
  | .vsub f => some (.word (encA 0x02 f))
  | .vmul f => some (.word (encA 0x03 f))
  | .vmulhS f => some (.word (encA 0x04 f))
  | .vmulhU f => some (.word (encA 0x05 f))
  | .vminS f => some (.word (encA 0x06 f))
  | .vminU f => some (.word (encA 0x07 f))
  | .vmaxS f => some (.word (encA 0x08 f))
  | .vmaxU f => some (.word (encA 0x09 f))
  | .vand f => some (.word (encA 0x0A f))
  | .vor f => some (.word (encA 0x0B f))
  | .vxor f => some (.word (encA 0x0C f))
  | .vshl f => some (.word (encA 0x0D f))
  | .vshrU f => some (.word (encA 0x0E f))
  | .vshrS f => some (.word (encA 0x0F f))
  | .vaddSat f => some (.word (encA 0x10 f))
  | .vadd64 f => some (.word (encA 0x11 f))
  | .vsub64 f => some (.word (encA 0x12 f))
  | .vfadd f => some (.word (encA 0x14 f))
  | .vfsub f => some (.word (encA 0x15 f))
  | .vfmul f => some (.word (encA 0x16 f))
  | .vfmin f => some (.word (encA 0x17 f))
  | .vfmax f => some (.word (encA 0x18 f))
  | .vhadd f => some (.word (encA 0x1A f))
  | .vhmul f => some (.word (encA 0x1B f))
  | .vdadd f => some (.word (encA 0x1C f))
  | .vdmul f => some (.word (encA 0x1D f))
  | .vcmp f => some (.word (f.lm ++ f.vb ++ f.va ++ f.cond.code ++ f.pd ++ f.p ++ 0x13#6 ++ f.w ++ 1#1))
  | .vfcmp f => some (.word (f.lm ++ f.vb ++ f.va ++ f.cond.code ++ f.pd ++ f.p ++ 0x19#6 ++ f.w ++ 1#1))
  | .vsel f => some (.word (f.ps ++ f.vb ++ f.va ++ f.vd ++ f.p ++ 0x1E#6 ++ f.w ++ 1#1))
  | .tatom f => some (.word (f.peer ++ f.core ++ f.op.code ++ f.h ++ f.va ++ f.vd ++ 0x1F#6 ++ f.w ++ 1#1))
  | .vaddi f => some (.word (encI 0x20 f))
  | .vandi f => some (.word (encI 0x21 f))
  | .vori f => some (.word (encI 0x22 f))
  | .vxori f => some (.word (encI 0x23 f))
  | .vshi f => some (.word (0#2 ++ f.kind.code ++ f.amount ++ f.va ++ f.vd ++ f.p ++ 0x24#6 ++ f.w ++ 1#1))
  | .vcmpi f => some (.word (f.imm ++ f.va ++ f.cond.code ++ f.pd ++ f.p ++ 0x25#6 ++ f.w ++ 1#1))
  | .vmovi f => some (.word (f.imm ++ f.vd ++ f.p ++ 0x26#6 ++ f.w ++ 1#1))
  | .vmov f => some (.word (encU 0x27 0x00 f))
  | .vnot f => some (.word (encU 0x27 0x01 f))
  | .vneg f => some (.word (encU 0x27 0x02 f))
  | .vabs f => some (.word (encU 0x27 0x03 f))
  | .vclz f => some (.word (encU 0x27 0x04 f))
  | .vpopc f => some (.word (encU 0x27 0x05 f))
  | .vbrev f => some (.word (encU 0x27 0x06 f))
  | .vfneg f => some (.word (encU 0x27 0x08 f))
  | .vfabs f => some (.word (encU 0x27 0x09 f))
  | .vffloor f => some (.word (encU 0x27 0x0A f))
  | .vfceil f => some (.word (encU 0x27 0x0B f))
  | .vftrunc f => some (.word (encU 0x27 0x0C f))
  | .vfrint f => some (.word (encU 0x27 0x0D f))
  | .vsextB f => some (.word (encU 0x27 0x10 f))
  | .vsextH f => some (.word (encU 0x27 0x11 f))
  | .vzextB f => some (.word (encU 0x27 0x12 f))
  | .vzextH f => some (.word (encU 0x27 0x13 f))
  | .vrcp f => some (.word (encU 0x28 0x00 f))
  | .vrsq f => some (.word (encU 0x28 0x01 f))
  | .vsqrt f => some (.word (encU 0x28 0x02 f))
  | .vex2 f => some (.word (encU 0x28 0x03 f))
  | .vlg2 f => some (.word (encU 0x28 0x04 f))
  | .vsin f => some (.word (encU 0x28 0x05 f))
  | .vcos f => some (.word (encU 0x28 0x06 f))
  | .vtanh f => some (.word (encU 0x28 0x07 f))
  | .vdivU f => some (.word (encU 0x28 0x10 f))
  | .vdivS f => some (.word (encU 0x28 0x11 f))
  | .vremU f => some (.word (encU 0x28 0x12 f))
  | .vremS f => some (.word (encU 0x28 0x13 f))
  | .vfdiv f => some (.word (encU 0x28 0x14 f))
  | .vcvt f => some (.word (f.e ++ f.src.code ++ f.dst.code ++ f.va ++ f.vd ++ f.p ++ 0x29#6 ++ f.w ++ 1#1))
  | .qxchH f => some (.word (encVxl 0 0x00 f.va f.vd f.p f.w))
  | .qxchV f => some (.word (encVxl 0 0x01 f.va f.vd f.p f.w))
  | .qxchD f => some (.word (encVxl 0 0x02 f.va f.vd f.p f.w))
  | .qbcast f => some (.word (encVxl (0#1 ++ f.n) 0x03 f.va f.vd f.p f.w))
  | .vvoteAny f => some (.word (encVxl 0 0x08 (0#3 ++ f.ps) (0#3 ++ f.pd) f.p f.w))
  | .vvoteAll f => some (.word (encVxl 0 0x09 (0#3 ++ f.ps) (0#3 ++ f.pd) f.p f.w))
  | .vballot f => some (.word (encVxl 0 0x0A (0#3 ++ f.ps) f.vd f.p f.w))
  | .vseti f => some (.word (encVxl 0 0x0B f.va (0#4 ++ f.n) f.p f.w))
  | .vmovx f => some (.word (encVxl 0 0x0C (0#4 ++ f.n) f.vd f.p f.w))
  | .vstx f => some (.word (encVxl 0 0x0D (0#4 ++ f.n) f.vs f.p f.w))
  | .getv f => some (.word (encVxl 0 0x0E f.sel.code f.vd f.p f.w))
  | .vmovu f => some (.word (encVxl 0 0x0F (f.hi ++ f.sa) f.vd f.p f.w))
  | .vredu f => some (.word (encVxl 0 (0x20 + f.op.code) f.va f.vd f.p f.w))
  | .vfma f => some (.word (encF 0x2B f))
  | .vfnma f => some (.word (encF 0x2C f))
  | .vmad f => some (.word (encF 0x2D f))
  | .vhfma f => some (.word (encF 0x2E f))
  | .vdfma f => some (.word (encF 0x2F f))
  | .vdot2 f => some (.word (encF 0x30 f))
  | .vbdotT8 f => some (.word (encF 0x31 ⟨f.vc, f.vb, f.va, f.vd, f.bs⟩))
  | .vbdotT6 f => some (.word (encF 0x32 ⟨f.vc, f.vb, f.va, f.vd, f.bs⟩))
  | .vbdotI8 f => some (.word (encF 0x33 ⟨0, f.vb, f.va, f.vd, 0⟩))
  | .vreq f => some (.word (encF 0x34 ⟨0, f.vb, f.va, f.vd, f.w⟩))
  | .ld f => some (.word (f.hint.code ++ f.sc.code ++ f.acq ++ f.sx ++ f.sz ++ f.va ++ f.vd ++ f.p ++ 0x35#6 ++ f.w ++ 1#1))
  | .st f => some (.word (f.hint.code ++ f.sc.code ++ f.rel ++ 0#1 ++ f.sz ++ f.va ++ f.vd ++ f.p ++ 0x36#6 ++ f.w ++ 1#1))
  | .atom f => some (.word (1#1 ++ f.wide ++ f.sc.code ++ f.op.code ++ f.va ++ f.vd ++ f.p ++ 0x37#6 ++ f.w ++ 1#1))
  | .nmred f => some (.word (1#1 ++ f.wide ++ f.sc.code ++ f.op.code ++ f.va ++ f.vd ++ f.p ++ 0x38#6 ++ f.w ++ 1#1))
  | .tld f => some (.word (encT 0x39 f))
  | .tst f => some (.word (encT 0x3A f))
  | .uadd f => some (.word (encS 0x00 f))
  | .usub f => some (.word (encS 0x01 f))
  | .umul f => some (.word (encS 0x02 f))
  | .umulhU f => some (.word (encS 0x03 f))
  | .uand f => some (.word (encS 0x04 f))
  | .uor f => some (.word (encS 0x05 f))
  | .uxor f => some (.word (encS 0x06 f))
  | .ushl f => some (.word (encS 0x07 f))
  | .ushrU f => some (.word (encS 0x08 f))
  | .ushrS f => some (.word (encS 0x09 f))
  | .uminS f => some (.word (encS 0x0A f))
  | .uminU f => some (.word (encS 0x0B f))
  | .umaxS f => some (.word (encS 0x0C f))
  | .umaxU f => some (.word (encS 0x0D f))
  | .usltS f => some (.word (encS 0x10 f))
  | .usltU f => some (.word (encS 0x11 f))
  | .useq f => some (.word (encS 0x12 f))
  | .uaddi f => some (.word (f.imm ++ f.sa ++ f.sd ++ 0x3C#6 ++ f.w ++ 1#1))
  | .xstat f => some (.word (encX 0x00 ⟨1, f.sd, 0, f.sa, f.w⟩))
  | .cpy f => some (.word (encX 0x08 f))
  | .cpym f => some (.word (encX 0x09 f))
  | .cpyz f => some (.word (encX 0x0A f))
  | .mlds f => some (.word (encX 0x10 f))
  | .mstrm f => some (.word (encX 0x11 f))
  | .mdrn f => some (.word (encX 0x12 f))
  | .mzacc f => some (.word (encX 0x13 f))
  | .tqpush f => some (.word (encX 0x20 f))
  | .tqpop f => some (.word (encX 0x21 ⟨1, f.sd, f.sb, f.sa, f.w⟩))
  | .dgst f => some (.word (encX 0x30 f))
  | .binit f => some (.word (encK 0 0x00 f.sb f.sa f.idx f.w))
  | .barv f => some (.word (encK f.sc.code 0x01 0 0 f.idx f.w))
  | .bwait f => some (.word (encK f.sc.code 0x02 0 0 f.idx f.w))
  | .bexp f => some (.word (encK 0 0x03 0 f.sa f.idx f.w))
  | .bstat f => some (.word (encK 0 0x04 0 f.sa f.idx f.w))
  | .fence f => some (.word (encK f.sc.code 0x08 0 0 (0#2 ++ f.kind.code) f.w))
  | .marm f => some (.word (encK f.sc.code 0x0C 0 f.sa 0 f.w))
  | .mwait f => some (.word (encK 0 0x0D 0 f.sa 0 f.w))
  | .karm f => some (.word (encK 0 0x10 f.sb f.sa f.idx f.w))
  | .ksign f => some (.word (encK f.sc.code 0x11 0 0 f.idx f.w))
  | .rget f => some (.word (encK 0 0x14 f.sb f.h (0#3 ++ f.cons) f.w))
  | .rput f => some (.word (encK 0 0x15 f.sb f.h (0#3 ++ f.cons) f.w))
  | .talloc f => some (.word (encK 0 0x18 f.sb f.h f.level.code f.w))
  | .tfree f => some (.word (encK 0 0x19 0 f.h 0 f.w))
  | .tinfo f => some (.word (encK 0 0x1A f.sb f.h 0 f.w))
  | .lmap f => some (.word (encK 0 0x1C 0 f.sa (0#1 ++ f.m) f.w))
  | .plog f => some (.word (encK 0 0x1D 0 f.sa f.idx f.w))
  | .gets f => some (.word (encK 0 0x20 f.num f.sa (f.vk ++ 0#2 ++ f.hi) f.w))
  | .sets f => some (.word (encK 0 0x21 f.num f.sa (f.vk ++ 0#2 ++ f.hi) f.w))
  | .syscall f => some (.word (encK 0 0x24 0 f.sa 0 f.w))
  | .trap f => some (.word (encK 0 0x25 0 0 f.code f.w))
  | .hret w => some (.word (encK 0 0x26 0 0 0 w))
  | .brk f => some (.word (encK 0 0x27 0 0 f.code f.w))
  | .yield w => some (.word (encK 0 0x28 0 0 0 w))
  | .xlspawn rd => some (.word (encHost 0 rd 0 0))
  | .xljwait rd rs1 rs2 => some (.word (encHost 1 rd rs1 rs2))
  | .xlqpush rd rs1 rs2 => some (.word (encHost 2 rd rs1 rs2))
  | _ => none

/-- Decoding of an encoding by the agent that executes it: a host hart for Xthelor, a core otherwise. -/
def decodeEnc (host : Bool) (e : Enc) : Except IllForm Instr :=
  match e with
  | .half h => decode16 h
  | .word w => if host then decodeHost w else decode32 w

/-- The instructions of the host harts (R258). -/
def Instr.isHost (i : Instr) : Bool :=
  match i with
  | .xlspawn _ => true
  | .xljwait _ _ _ => true
  | .xlqpush _ _ _ => true
  | _ => false

end Sys2Proof
end

