-- ==== Sys2Proof/Config.lean ====
section
/-! DEFINITION. What an implementation fixes, and the free values: what the manual leaves open. -/

namespace Sys2Proof.Config

/-! ### Free values

Each stands for a value that the manual calls unspecified or does not state. It has no body, so nothing can be proved
of it beyond its width; the step gives it a fresh number each time (`State.fresh`), or the operands. -/

/-- What a consumer of a fixed-latency result reads when it issues too early with WAITCHECK clear (R44).
DESIGN CHOICE: assumption 5. -/
opaque freeWord : Nat → BitVec 32

/-- The same for an s register (R44), and every other unspecified 64-bit value. DESIGN CHOICE: assumption 5. -/
opaque freeDWord : Nat → BitVec 64

/-- The bytes of a signature over an exchange whose nonces the manual does not give (R336). DESIGN CHOICE: assumptions 5,
33. -/
opaque freeBytes : Nat → List (BitVec 8)

/-- The partition key's signature over bytes (R325). DESIGN CHOICE: assumptions 5, 33. -/
opaque signature : List (BitVec 8) → List (BitVec 8)

/-- The certificate chain of a function (R336). DESIGN CHOICE: assumptions 5, 33. -/
opaque certificate : Nat → List (BitVec 8)

/-- The bytes that a measurement covers, by its index and what it measures (R332, R336), whose layout the manual does not
give. DESIGN CHOICE: assumptions 5, 33. -/
opaque layout : Nat → List Nat → List (BitVec 8)

/-- Which of several level-2 entries of a 16 GiB page that differ a translation uses (R170): by the addresses of the
entry it would read first. DESIGN CHOICE: assumption 5. -/
opaque napotChoice : Nat → Nat

/-- Whether Castle's check accepts a manifest that another signer than its own key signed (R326). DESIGN CHOICE:
assumptions 5, 33. -/
opaque signatureOk : List (BitVec 8) → Bool

/-- The projected power of a cluster-clock code, in watts (R344): Castle's policy is not described.
DESIGN CHOICE: assumption 5. -/
opaque projectedPower : Nat → Nat

/-- The power that the dispatch firmware samples, in watts, by the number of the sample (R345): how it is measured is not
described. DESIGN CHOICE: assumption 5. DEDUCED: assumption 67. -/
opaque sampledPower : Nat → Nat

/-- The row of dies in which a packet between the two columns of dies crosses over, by the numbers of its source's and its
destination's die and the wall time: its routers choose by counts of occupancy that are not described (R318).
DESIGN CHOICE: assumption 111. -/
opaque crossRow : Nat → Nat → Nat → Nat

/-! ### What the X8 fixes (R1, R16, R19) -/

/-- Bytes of one channel (R16, R346): 2 GiB, so that a full slice's 16 channels hold 32 GiB (R313). -/
def channelBytes : Nat := 0x80000000

/-- Base of the partition control space (R306). -/
def pcBase : Nat := 0x10000000000

/-- Thread slots of a core (R26). -/
def threadSlots : Nat := 2048

/-- Teams of a core (R19). -/
def teamSlots : Nat := 8

/-- Entries of a core's block table (R29). -/
def blockEntries : Nat := 256

/-- Entries of a core's tile table (R156). -/
def tileEntries : Nat := 128

/-- Wall-time units of 1/882 ns in one nanosecond. DESIGN CHOICE: assumption 79. -/
def unitsPerNs : Nat := 882

/-- Wall-time units in one cc at a cluster-clock code (R342): 1,000 / (350 + 70·FCODE) ns.
DESIGN CHOICE: assumption 79. -/
def unitsPerCc (fcode : Nat) : Nat := 12600 / (5 + fcode)

end Sys2Proof.Config
end

