-- ==== Sys2Proof/Machine/State.lean ====
section
/-! DEFINITION. The state of the machine: one partition in full (its memory, cores, engines, queues, dispatch
hardware, host harts and control registers) and the module-level tables that Castle keeps. Everything is plain data.

Each field's comment names the rule of spec/ that gives it and its value at reset (or when the thing it belongs to
comes into being). -/

namespace Sys2Proof.Machine

/-! ### Memory (R5, R147, R151 to R154, R313) -/

/-- A channel group that a slice reset lost (R323): the channels of each slice and the number of slices of the partition then, the
group's slice index, and the end of the memory that has stayed since. -/
structure LostGroup where
  channels : Nat
  nsl : Nat
  slice : Nat
  top : Nat
  deriving DecidableEq, Repr

/-- Partition memory, by physical address. The cells are in one canonical form: addresses strictly rising, and no cell
equal to 0, which is what an unlisted address reads as (R153, R316, R340: memory that nothing has written reads
zero). -/
structure Memory where
  /-- bytes of DRAM and L2 together, one value per location (R5, R180); reset: none listed -/
  cells : List Host.Cell
  /-- poisoned 4-byte words, by address div 4, strictly rising (R154, R321); reset: none -/
  bad : List Nat
  /-- 256-byte granules whose zero-map bit is clear, by address div 256, strictly rising (R153); reset: none -/
  zclr : List Nat
  /-- 128-byte lines whose L2 tag has the zero-line flag, by address div 128, strictly rising (R152); reset: none -/
  zline : List Nat
  /-- channel groups lost to a slice reset (R323); reset: none -/
  lost : List LostGroup
  /-- words of lost granules that have been written since, by address div 4, strictly rising (R323); reset: none -/
  fixed : List Nat
  deriving DecidableEq, Repr

/-! ### Threads (R24, R53, R65) -/

/-- Why a thread is held (R46). -/
inductive Hold where
  /-- BWAIT on object b for the completion of the phase of this parity, to acquire at the scope (R364) -/
  | barrier (b : Nat) (phase : Bool) (sc : Scope)
  /-- MWAIT with the cycle of its core's clock at which its timeout ends, or while its team is off its core the cycles that
  are left, none when it has no timeout (R293), and the timeout -/
  | monitor (left : Option Nat) (timeout : Nat)
  /-- TQPOP of at most count entries into the address, replying in s[sd] (R255) -/
  | pop (q : Nat) (count : Nat) (dst : DWord) (sd : Nat)
  /-- a blocking TQPUSH on queue q, replying in s[sd] when re (R254) -/
  | push (q : Nat)
  /-- SYSCALL naming s[sa] (R298) -/
  | gather (sa : Nat)
  /-- SYSCALL whose gather is complete: the call waits for an entry or for its SCDONE (R299) -/
  | call (sa : Nat)
  /-- YIELD, until its pass has issued its last instruction (R461) -/
  | yielded
  /-- an instruction that completed while its team was off its core, what it replies in s[sd] at the next residency, and
  whether it is irrevocable (R254, R285, R299) -/
  | finished (reply : Option Nat) (value : DWord) (irrev : Bool)
  deriving DecidableEq, Repr

/-- Where a held thread goes when its instruction completes (R46): the address and the word of the instruction that holds
it, the next instruction's address, or none when the instruction ended the body, and the block's header. -/
structure Resume where
  pc : DWord
  word : Word
  next : Option DWord
  hdr : DWord
  w0 : Word
  w1 : Word
  deriving DecidableEq, Repr

/-- Where a thread is (R41, R48, R65). -/
inductive Loc where
  /-- no thread was ever launched in the slot (R66) -/
  | vacant
  /-- waiting in the entry or the spill record at the address (R29, R32) -/
  | waits (at_ : DWord)
  /-- in a pass of its team, active, selected or waiting for successor evaluation (R35) -/
  | pass
  /-- held in a blocking instruction (R46) -/
  | held (h : Hold) (r : Resume)
  /-- parked after a translation fault, to resume at its region entry (R287) -/
  | parked
  /-- a pawn whose successor was EXIT (R28) -/
  | dormant
  /-- exited (R48) -/
  | exited
  deriving DecidableEq, Repr

/-- A thread's monitor (R292): armed on the 128-byte line of a physical address for a virtual address. -/
structure Monitor where
  va : DWord
  line : Nat
  sc : Scope
  written : Bool
  deriving DecidableEq, Repr

/-- A thread or a pawn (R24, R27). -/
structure Thread where
  /-- its position and state (R41, R65); at team start it waits at KADDR -/
  loc : Loc
  /-- v0–v63 (R53); 0 at team start -/
  v : Tab Word
  /-- p0–p7, bit 0 always 1 (R53, R55); 1 at team start -/
  p : BitVec 8
  /-- i0–i3, i[j] in bits 8j+7:8j (R53, R71); 0 at team start -/
  ix : Word
  /-- its poisoned register slots, 0–63 for v, 64 for p, 65 for i, strictly rising (R84); none at team start -/
  bad : List Nat
  /-- TRAPCAUSE (R60); 0 at team start -/
  trapCause : BitVec 8
  /-- TRAPINFO0 (R60); 0 at team start -/
  info0 : DWord
  /-- TRAPINFO1 (R60); 0 at team start -/
  info1 : DWord
  /-- TRAPPC, which outside a handler holds the region entry (R60, R283); 0 at team start -/
  trapPc : DWord
  /-- REGIONCNT (R60, R283); 0 at team start -/
  regionCnt : Word
  /-- in a user handler (R289); false at team start -/
  handler : Bool
  /-- the thread's monitor (R292); none at team start -/
  mon : Option Monitor
  /-- watch counter of the stalemate watchdog (R295); 0 at team start -/
  watch : Nat
  /-- it executed a FENCE of kind REL, AR or NM, so that its later stores follow every earlier one (R181, R188); false at
  team start -/
  fenced : Bool
  /-- it executed a FENCE of kind NM, so that its later near-memory updates follow what its core had issued before them (R188, R190);
  false at team start -/
  nmFenced : Bool
  /-- the model's own: one more than the number (of Store) of the last store on its way that a load of it has read, and of the last
  one that its later stores follow because an acquire of its has read it (R181); 0 and 0 at team start -/
  seen : Nat
  after : Nat
  /-- it completed an irrevocable instruction, or a blocking instruction that ended the body, and its successor evaluation is to
  come (R283); false at team start -/
  irrev : Bool
  deriving DecidableEq, Repr

/-! ### Team records (R24, R53, R63 to R67, R159, R212) -/

/-- A barrier object's record (R67); all zero, which is uninitialised, at team start. -/
structure Barrier where
  pend : DWord
  err : BitVec 8
  /-- 0 uninitialised, 1 open, 2 error phase -/
  state : BitVec 2
  phase : Bool
  arrived : Nat
  expect : Nat
  deriving DecidableEq, Repr

/-- A convergence register's record (R212); all zero, which is UNARMED, at team start. -/
structure Conv where
  desc : DWord
  expect : Nat
  signed : Nat
  /-- 0 UNARMED, 1 ARMED, 2 POSTING -/
  state : BitVec 2
  err : Bool
  frmp : BitVec 2
  errCode : BitVec 8
  deriving DecidableEq, Repr

/-- The states of a ring slot, by their codes 0–3 (R164). -/
inductive SlotState where
  | free | reserved | filled | taken
  deriving DecidableEq, Repr

/-- A tile handle's record (R155, R159) with, for SCR and RING, the tile's contents in the core's scratchpad. -/
structure Handle where
  level : Level
  rows : Nat
  cols : Nat
  /-- ESIZE is 8, not 4 -/
  wide : Bool
  base : DWord
  rstride : Word
  cstride : Word
  phead : Nat
  chead : Nat
  /-- RING: the states of slots 0 to ROWS − 1 that are not FREE (R164) -/
  slots : Tab SlotState
  /-- first 4 KiB unit of the scratchpad that the tile occupies (R156) -/
  unit : Nat
  /-- SCR and RING: the tile's 4-byte words (R161); 0 after allocation -/
  data : Tab Word
  /-- poisoned words of the tile, strictly rising (R163) -/
  bad : List Nat
  deriving DecidableEq, Repr

/-- An entry of a block table or a record of a spill list (R29, R32). Its threads are those of the team that wait at its
address. Its age's counts start at 0 (R37). -/
structure Entry where
  team : Nat
  addr : DWord
  /-- a mid-block entry, which takes its header from its enclosing header (R286) -/
  mid : Bool
  /-- the enclosing header's address and word 0, with the touch set, as a blocking instruction hands them on (R46); none
  where the header is to be searched for (R286) -/
  encl : Option (DWord × Word)
  /-- R37: 0–256 -/
  age : Nat
  /-- cycles without a pass of its team since its age last rose for them (R37) -/
  idle : Nat
  /-- when it was created, by the core's sequence count (R32) -/
  born : Nat
  /-- when the entry became runnable, by the core's sequence count; none while it is not (R36) -/
  ready : Option Nat
  deriving DecidableEq, Repr

/-- A gang of a group that waits in a RGET or in an engine post: its number, its issued threads and the registers'
values that the instruction read for it (R165, R207). -/
structure GangWait where
  gang : Nat
  tids : List Nat
  a : DWord
  b : DWord
  deriving DecidableEq, Repr

/-- What the group of a pass waits in (R165, R207, R233): the gangs not yet served, in ascending order, and the cycle
in which the first of them began to wait. -/
inductive PassWait where
  /-- an RGET by the consumer or the producer side on handle h, replying in s[sb] -/
  | rget (cons : Bool) (h : Nat) (sb : Nat) (gangs : List GangWait) (since : Nat)
  /-- a request or command with function code fn, replying in s[sd] when re -/
  | post (fn : Nat) (re : Bool) (sd : Nat) (gangs : List GangWait) (since : Nat)
  deriving DecidableEq, Repr

/-- A pass (R34, R35, R39, R43). Its body is the copy of the block's halfwords that the core's instruction cache holds
for it (R115). -/
structure Pass where
  team : Nat
  /-- the entry's address, and whether the entry is a mid-block one (R286) -/
  addr : DWord
  mid : Bool
  /-- the enclosing header's address and words -/
  hdr : DWord
  w0 : Word
  w1 : Word
  body : List Byte
  /-- the threads of each group, in ascending TID, by ascending group index (R39, R40) -/
  groups : List (List Nat)
  /-- offset in the body of the instruction to issue -/
  off : Nat
  /-- group to issue to -/
  k : Nat
  /-- no instruction has issued yet -/
  fresh : Bool
  /-- the cycle the pass started -/
  start : Nat
  /-- w of the previous instruction and the cycles at which it issued to each group (R43, R125) -/
  wprev : Nat
  prev : List Nat
  /-- the cycles at which the current instruction issued to groups 0 to k − 1 -/
  cur : List Nat
  /-- the instruction is being issued to group k within the step that is under way -/
  issuing : Bool
  wait : Option PassWait
  /-- its team leaves its core: the pass issues no further instruction (R301) -/
  stopped : Bool
  /-- a register line that it needs has no room while the lines of the core's other passes are in use: they issue first (R34, R76) -/
  blocked : Bool
  /-- the first cycle in which its next instruction finds an interlocked operand whose result follows an earlier write (R126); 0 for none -/
  floor : Nat
  deriving DecidableEq, Repr

/-- A fixed-latency result that is not yet readable (R44, R124, R127): the writer's thread, or gang for an s register,
the register's slot (0–65, or 100 + n for s[n]), for an s register the index of the group that it was written for, the
cycle from which it is readable, and its producer's address. -/
structure Mark where
  tid : Nat
  slot : Nat
  grp : Nat
  avail : Nat
  pc : DWord
  deriving DecidableEq, Repr

/-- A variable-latency result on its way (R45): v, p or i slots of threads, s registers of gangs, and the exceptions that
are ORed into FFLAGS when it is written (R62). -/
structure Result where
  load : Bool
  vs : List (Nat × Nat × Word)
  ss : List (Nat × Nat × DWord)
  flags : BitVec 5
  deriving DecidableEq, Repr

/-- A team's current or pending weights (R215): the acceptance number of their MLDS, whether an MSTRM is paired with it, its
bytes 0x10–0x1F and its ordering byte. -/
structure Weights where
  seq : Nat
  paired : Bool
  bytes : List Byte
  ord : Byte
  deriving DecidableEq, Repr

/-- An engine command saved in the context image (R302), with what its record has no field for: the function and the
descriptor's address while the descriptor is not read, the MLDS that an MSTRM is paired with and whether it has swapped
(R215), the exceptions of its rows (R104) and a copy's ring slots, receivers and chunk under way.
DESIGN CHOICE: assumption 52. -/
structure Susp where
  matrix : Bool
  fn : Nat
  addr : DWord
  pair : Option Nat
  swapped : Bool
  desc : Option (List Byte)
  cword : DWord
  offset : Nat
  seq : Nat
  age : Nat
  /-- 1 not granted, 2 suspended by a fault, 3 stopped on leaving -/
  state : Nat
  frmp : BitVec 2
  coll : Option Nat
  /-- exceptions of the rows that a matrix request has completed (R104) -/
  flags : BitVec 5
  /-- what a copy holds beside its record: ring slots of its source and destination (R239), receivers dropped (R240) -/
  srcSlot : Option Nat
  dstSlot : Option Nat
  dropped : List Nat
  /-- a copy's bytes past OFFSET that it has written to ring slots, and the words of the chunk that it has read (R239) -/
  ahead : Nat
  buf : List Word
  deriving DecidableEq, Repr

/-- A pop that is held on a queue (R255). -/
structure HeldPop where
  team : Nat
  gang : Nat
  tids : List Nat
  count : Nat
  dst : DWord
  sd : Nat
  deriving DecidableEq, Repr

/-- Why a team is asked to leave its core (R276, R301, R311, R329, R339). -/
inductive Leaving where
  | preempt | bench | hold | freeze
  deriving DecidableEq, Repr

/-- Where a team is in its life (R262, R273, R276, R279). -/
inductive TeamState where
  /-- resident on the core, in the slot -/
  | resident (core slot : Nat)
  /-- off its core, its state in its image (R66, R276, R301) -/
  | away
  /-- killed, and waiting for its commands to end (R296) -/
  | killed (core slot : Nat)
  /-- retired; its shared barrier objects may outlive it (R58) -/
  | retired
  deriving DecidableEq, Repr

/-- A team (R24): its context, launch values, special registers, uniform registers, object files and threads. -/
structure Team where
  state : TeamState
  /-- CTXID (R60); from the bind record -/
  ctxid : DWord
  /-- owning partition slice index and launch index (R273) -/
  slice : Nat
  launch : Nat
  /-- acceptance number of its launch, which all teams of the grid share -/
  grid : Nat
  prio : Nat
  sys : Bool
  codep : Bool
  qspawn : Bool
  /-- address space: ASID, VMID and the roots of translation (R148, R261) -/
  asid : Nat
  vmid : Nat
  satp : DWord
  hgatp : DWord
  /-- IMGBASE, TSBASE and TSUNITS (R273) -/
  imgBase : Nat
  tsBase : Nat
  tsUnits : Nat
  /-- KADDR and CCTR of the launch (R259) -/
  kaddr : DWord
  cctr : DWord
  /-- TEAMID (R60); from the bind record -/
  teamId : Word
  /-- LEAGUEID (R60) -/
  leagueId : Word
  /-- LEAGUEPOS (R60) -/
  leaguePos : Nat
  /-- teams of the league, LSIZE + 1 (R259) -/
  leagueSize : Nat
  /-- GRIDTEAMS (R60) -/
  gridTeams : Word
  /-- W, GANGW: 16, 32 or 64 (R24, R60) -/
  w : Nat
  /-- T, TEAMTHREADS: 1–2,048 (R24, R60) -/
  t : Nat
  /-- FRM (R60); from launch -/
  frm : BitVec 2
  /-- FFLAGS (R60); 0 at team start -/
  fflags : BitVec 5
  /-- TRAPVEC (R60); from launch -/
  trapVec : DWord
  /-- WAITCHECK (R60); from launch -/
  waitCheck : Bool
  /-- BTIMEOUT (R60); 2^24 at team start -/
  btimeout : Word
  /-- the register window (R80); from launch -/
  wbase : Nat
  wlen : Nat
  /-- assigned accumulator tiles ACCA and ACCB (R64) -/
  accA : Option Nat
  accB : Option Nat
  /-- lm1–lm7 (R53); 0x0000 at team start -/
  lm : Tab (BitVec 16)
  /-- k0–k15 (R53); unarmed at team start -/
  k : Tab Conv
  /-- b0–b15 (R53, R57); uninitialised at team start -/
  b : Tab Barrier
  /-- h0–h31 (R53); unallocated at team start -/
  h : Tab Handle
  /-- s0–s31 of gang g at 32·g + n (R53); s1 = ARGP and s2 = CCTR at team start, else 0 -/
  s : Tab DWord
  /-- poisoned s registers, by 32·g + n, strictly rising (R84) -/
  sbad : List Nat
  /-- register lines, by lane block and slot, whose words of lanes without a thread are poisoned (R84, R87) -/
  padBad : List (Nat × Nat)
  /-- poisoned words of the team's per-team files, by image offset div 8, with the bytes that stand in their place (R84); none at
  team start -/
  fileBad : List (Nat × List Byte)
  /-- the thread slots 0 to 4·⌈T/4⌉ − 1, pawns included (R25) -/
  threads : Tab Thread
  /-- spill list (R32, R66) -/
  spill : List Entry
  /-- the pass selected to follow the active one (R35) -/
  sel : Option Pass
  /-- when its last pass started, and since when it has waited for one (R275) -/
  lastStart : Nat
  waitSince : Option Nat
  /-- pending variable-latency results, oldest first (R45) -/
  results : List Result
  /-- fixed-latency results not yet readable (R44) -/
  marks : List Mark
  /-- exceptions of fixed-latency results, with the cycle in which each is written (R62) -/
  fpend : List (Nat × BitVec 5)
  /-- acceptance sequence number of its next engine command (R302) -/
  seq : Nat
  /-- the call whose gather completed (R298): whether it has its call-table entry, and the die -/
  call : Option (Nat × Option Nat)
  /-- current weights, and the MLDSs that have loaded their planes and are not swapped in, in order of acceptance (R215) -/
  curW : Option Weights
  penW : List Weights
  /-- suspended commands while the team is away (R302) -/
  susp : List Susp
  /-- why a team that is away may be bound again: it is bindable (R277, R301) -/
  bindable : Bool
  /-- held off its cores by DREQ HOLD (R311), and by VFREEZE (R329) -/
  onHold : Bool
  vfrozen : Bool
  /-- IMGSTATE.CLEAN (R69) -/
  clean : Bool
  /-- the core that last held it (R70) -/
  lastCore : Option Nat
  /-- it has been asked to leave its core and starts no pass (R301) -/
  leaving : Option Leaving
  /-- the wall time since which every thread of it has been held (R51), or since which it is off its core -/
  heldSince : Option Nat
  /-- when it was last bound, by the partition's count of binds (R278) -/
  bound : Nat
  /-- while it is off its core, its convergence registers in POSTING, in the order in which they reached it (R210) -/
  postOrder : List Nat
  /-- its retirement has begun (R279, R463); false at team start -/
  retiring : Bool
  /-- while it is off its core, the pops that were abandoned when it left, with their queues, in the order in which they were
  held (R255, R412) -/
  pops : List (Nat × HeldPop)
  deriving DecidableEq, Repr

/-! ### Cores (R16, R29, R34, R77 to R84, R150, R171, R273) -/

/-- A register line of the pool (R71): lane block q and slot n of a team, and whether it is dirty. -/
structure RegLine where
  team : Nat
  q : Nat
  n : Nat
  dirty : Bool
  deriving DecidableEq, Repr

/-- A line of the L1 (R150): its 128-byte line number, its bytes and its poisoned words. -/
structure L1Line where
  line : Nat
  bytes : List Byte
  bad : List Nat
  deriving DecidableEq, Repr

/-- A store on its way to its home (R180, R186, R187): the physical address, the bytes, the VMID it carries, whether it
releases (and so follows every earlier store), and the sender. -/
structure Store where
  pa : Nat
  bytes : List Byte
  vmid : Nat
  rel : Bool
  team : Nat
  tid : Nat
  /-- its place in the order in which the core's stores, arrivals and signatures issued (R181, R465), and the place before which
  every one is performed before it (R181) -/
  seq : Nat := 0
  after : Nat := 0
  deriving DecidableEq, Repr

/-- An ATOM on its way to its home (R189). -/
structure AtomReq where
  team : Nat
  tid : Nat
  op : AtomOp
  wide : Bool
  pa : Nat
  va : DWord
  a : DWord
  b : DWord
  vd : Nat
  sc : Scope
  pc : DWord
  /-- its thread has executed a FENCE that orders its later stores, so it follows every earlier store (R188) -/
  rel : Bool
  /-- the place in the core's order of issue before which every store is performed before it (R181) -/
  after : Nat := 0
  deriving DecidableEq, Repr

/-- An NMRED on its way to its base die (R249). -/
structure NmReq where
  team : Nat
  tid : Nat
  op : NmOp
  wide : Bool
  pa : Nat
  v : DWord
  vmid : Nat
  /-- after a FENCE.NM of its thread, the number of the core's next store: those numbered below it are performed before it (R188, R190);
  else 0 -/
  after : Nat := 0
  deriving DecidableEq, Repr

/-- A BARV arrival that waits for its release (R357). -/
structure Arrival where
  team : Nat
  tid : Nat
  b : Nat
  /-- its release is at CLUSTER or wider (R187) -/
  rel : Bool
  /-- its place in the core's order of issue (R465) -/
  seq : Nat := 0
  deriving DecidableEq, Repr

/-- A KSIGN signature that waits for its release (R379). -/
structure Sig where
  team : Nat
  tid : Nat
  k : Nat
  frm : BitVec 2
  /-- its release is at CLUSTER or wider (R187) -/
  rel : Bool
  /-- its place in the core's order of issue (R465) -/
  seq : Nat := 0
  deriving DecidableEq, Repr

/-- A MARM arming on its way to the line's home (R292). -/
structure Arming where
  team : Nat
  tid : Nat
  mon : Monitor
  deriving DecidableEq, Repr

/-- A TLB entry (R171): the page, its frame, its permissions and its tags. -/
structure TlbEntry where
  asid : Nat
  vmid : Nat
  /-- virtual page number in 4 KiB units, and log2 of the page's 4 KiB pages -/
  vpn : Nat
  order : Nat
  ppn : Nat
  r : Bool
  w : Bool
  x : Bool
  u : Bool
  /-- D has been set (R170) -/
  d : Bool
  /-- PBMT: 0 none, 1 NC, 2 IO -/
  pbmt : Nat
  deriving DecidableEq, Repr

/-- A slot of a core's slot table (R273): the bind record, and SLOTCTL's STATE and REFUSE. -/
structure Slot where
  record : List Byte
  state : Nat
  refuse : Nat
  team : Option Nat
  deriving DecidableEq, Repr

/-- A compute core (R16). Reset: empty, with the default boundaries 4, 28 and 32 (R82). -/
structure Core where
  /-- CLOCK (R60); 0 -/
  cc : Nat
  /-- the wall time at which it counted its last cycle -/
  wall : Nat
  /-- PBREG, PBSCR and PBL1 (R82); 4, 28, 32 -/
  pbReg : Nat
  pbScr : Nat
  pbL1 : Nat
  /-- the slot table (R273); 8 empty slots -/
  slots : Tab Slot
  /-- the block table, oldest entry first (R29); empty -/
  table : List Entry
  /-- the active passes, earliest first (R34) -/
  passes : List Pass
  /-- passes that have issued their last instruction and wait for successor evaluation (R30) -/
  ended : List Pass
  /-- a count that orders entries by when they became runnable (R36) -/
  seq : Nat
  /-- the register part's lines, least recently used first (R71, R75) -/
  lines : List RegLine
  /-- register lines whose fetch was asked for when a pass was selected: team, lane block and slot (R73) -/
  want : List (Nat × Nat × Nat)
  /-- the L1's lines, the next to be evicted first (R150) -/
  l1 : List L1Line
  /-- the lines that the requests of the group's load have brought (R384) -/
  brought : List L1Line
  /-- the write-through queue, oldest first (R187) -/
  stq : List Store
  /-- the model's own: the number of the next store, arrival or signature that issues (R181, R465); 0 -/
  mseq : Nat := 0
  atq : List AtomReq
  nmq : List NmReq
  arrivals : List Arrival
  sigs : List Sig
  arms : List Arming
  /-- the L1 TLB, oldest first, at most 64 entries (R171) -/
  tlb : List TlbEntry
  /-- the cycles since the last sample in which it issued an instruction, and the runs of cycles (first, number) in which a
  runnable pass issued nothing (R345) -/
  issued : List Nat
  stalled : List (Nat × Nat)
  /-- the cycle up to which those have been sampled (R345); 0 -/
  sampled : Nat
  deriving DecidableEq, Repr

/-! ### The matrix engine (R200 to R231) -/

/-- One column of a weight plane: its weight, metadata and scale words at the plane's slice (R202, R217). -/
structure PlaneCol where
  w : List Word
  m : List Word
  s : List Word
  deriving DecidableEq, Repr

/-- A weight plane (R200): the team and the FMT byte of the MLDS that filled it, and its NC columns. -/
structure Plane where
  team : Nat
  fmt : BitVec 8
  cols : List PlaneCol
  /-- reservation sequence number of the MLDS, by which an MSTRM is paired with it (R215) -/
  seq : Nat
  deriving DecidableEq, Repr

/-- Where an accepted request stands (R213, R226, R229). -/
inductive ReqState where
  /-- accepted and not granted -/
  | waiting
  /-- in its slot; its rows are done and it has not completed -/
  | granted
  /-- suspended by a fault at a row (R229) or on its descriptor (R208) -/
  | suspended
  deriving DecidableEq, Repr

/-- A request in the reservation table (R207, R208, R216). -/
structure MatReq where
  team : Nat
  fn : Nat
  addr : DWord
  /-- the descriptor as read, or none while its read is suspended by a fault -/
  desc : Option (List Byte)
  cword : DWord
  /-- rounding mode captured at posting (R104) -/
  frm : BitVec 2
  /-- the convergence register that posted it (R210) -/
  coll : Option Nat
  seq : Nat
  /-- the cycle of the partition's clock of its acceptance (R8, R214) -/
  since : Nat
  state : ReqState
  /-- rows completed (R229) -/
  row : Nat
  /-- the sequence number of the MLDS or MSTRM paired with it (R215); for MSTRM with SWAP = 1 -/
  pair : Option Nat
  /-- an MSTRM with SWAP = 1 that has made its swap (R215) -/
  swapped : Bool
  /-- exceptions to accumulate (R104) -/
  flags : BitVec 5
  /-- the cycle of the partition's clock from which it has found the shadow plane holding another team's pending plane (R215) -/
  shadowWait : Option Nat
  /-- the fault-table entry it joined (R229): die and index -/
  fault : Option (Nat × Nat)
  /-- the error phase it is to end in -/
  err : Option (BitVec 8)
  /-- it has been granted, and a fault has suspended it at a row (R229) -/
  begun : Bool := false
  deriving DecidableEq, Repr

/-- An entry of the promotion buffer (R223). -/
structure Promo where
  acc : Nat
  row : Nat
  col : Nat
  carry : BitVec 4
  deriving DecidableEq, Repr

/-- A matrix engine (R200, R203, R213, R223). Reset: idle and empty. -/
structure Matrix where
  /-- the reservation table, entries 0–15 (R207) -/
  table : Tab MatReq
  active : Option Plane
  shadow : Option Plane
  /-- acc0–acc7 by (tile·128 + row)·512 + column (R203); assigned tiles are zero at team start -/
  acc : Tab Word
  accBad : List Nat
  promo : List Promo
  /-- KSIGN-posted requests that wait for an entry, in the order they reached POSTING: team and k (R210) -/
  posting : List (Nat × Nat)
  /-- MLDSs that ended in an error phase and whose MSTRM has not been accepted (R215): team and sequence number -/
  failed : List (Nat × Nat)
  /-- MSTRMs with SWAP = 1 that failed a check before an earlier request of their team was read, and so before they were paired
  (R208, R215): team and sequence number -/
  spent : List (Nat × Nat)
  /-- the model's own: requests that a kill ended within a step after they had been granted, whose rows are not yet settled (R228) -/
  aborted : List MatReq := []
  /-- activity ramp (R231): 0 full rate, 1 quarter rate, 2 half rate; the cycle of the partition's clock at which it
  restarted; and the wall time since which it is idle -/
  ramp : Nat
  rampAt : Nat
  idleSince : Nat
  deriving DecidableEq, Repr

/-! ### The copy engine and the digest path (R232 to R247, R369 to R373) -/

/-- Where an accepted copy command stands (R237, R239, R246). -/
inductive CopyState where
  | waiting
  /-- on a channel -/
  | running
  /-- waiting for a ring slot, without a channel (R239) -/
  | ring
  | suspended
  deriving DecidableEq, Repr

/-- A command of the copy engine or the digest path (R233, R234, R369). -/
structure CopyCmd where
  team : Nat
  fn : Nat
  addr : DWord
  desc : Option (List Byte)
  cword : DWord
  seq : Nat
  /-- the cycle of the partition's clock of its acceptance (R237) -/
  since : Nat
  state : CopyState
  /-- bytes written so far (R246) -/
  off : Nat
  /-- CPYM: receivers that receive nothing (R240), by TEAMID − TBASE -/
  dropped : List Nat
  /-- ring slots it holds: of the source, of the destination (R239) -/
  srcSlot : Option Nat
  dstSlot : Option Nat
  /-- the words of the present chunk that it has read (R237) -/
  buf : List Word
  fault : Option (Nat × Nat)
  err : Option (BitVec 8)
  deriving DecidableEq, Repr

/-- A copy engine (R232). Reset: empty. -/
structure CopyEngine where
  /-- the command table, entries 0–31 (R233) -/
  table : Tab CopyCmd
  deriving DecidableEq, Repr

/-- A cluster (R16): whether it has started (R341), its engines. Its cores are held by number. -/
structure Cluster where
  started : Bool
  matrix : Matrix
  copy : CopyEngine
  deriving DecidableEq, Repr

/-! ### Dies (R171, R173, R174, R299, R308, R372) -/

/-- A ring of the part (R308): its registers, its overflow count, and the records that wait for a slot (R174). Reset: all
zero, which is unconfigured. -/
structure Ring where
  base : DWord
  /-- LOG2N, 0 while unconfigured -/
  log2n : Nat
  ie : Bool
  head : Word
  tail : Word
  ovf : Word
  pending : List (List Byte)
  deriving DecidableEq, Repr

/-- Who waits on a fault (R173): a thread of a team, an engine command of a cluster, a completion addition or a dependence
read (R266, R268). -/
inductive Waiter where
  | thread (team tid : Nat)
  | matrix (cluster idx : Nat)
  | copy (cluster idx : Nat)
  | addition (team : Nat)
  | depend (slice launch : Nat)
  deriving DecidableEq, Repr

/-- A pending fault (R173). -/
structure FaultEntry where
  asid : Nat
  vmid : Nat
  page : DWord
  kind : BitVec 4
  cause : Nat
  ctxid : DWord
  waiters : List Waiter
  deriving DecidableEq, Repr

/-- A call of the call table (R299): the team whose call it is. -/
structure Call where
  team : Nat
  deriving DecidableEq, Repr

/-- A compute die's tables and rings for the partition (R171, R173, R299, R308). Reset: empty. -/
structure Die where
  tlb : List TlbEntry
  faults : Tab FaultEntry
  /-- parties that found no free fault-table entry (R173) -/
  noEntry : List Waiter
  calls : Tab Call
  /-- teams whose gather completed with all calls outstanding, in order, with their records but for CALL (R299) -/
  callWait : List (Nat × List Byte)
  fq : Ring
  sq : Ring
  pl : Ring
  /-- PLOGMASK (R308) -/
  plogMask : BitVec 16
  /-- the DGST on the digest path (R372): its cluster and command-table entry -/
  dgst : Option (Nat × Nat)
  /-- the FCODE whose minimum voltage the cluster rail has (R342) -/
  rail : Nat
  deriving DecidableEq, Repr

/-! ### Task queues (R250 to R256) -/

/-- A push that is held on a queue (R254): the team, the gang's threads, the entries left and the reply. -/
structure HeldPush where
  team : Nat
  gang : Nat
  tids : List Nat
  left : List (List Byte)
  count : Nat
  reply : Option Nat
  deriving DecidableEq, Repr

/-- A task queue (R250). Reset: all zero. -/
structure Queue where
  ctl : DWord
  ring : DWord
  head : Nat
  tail : Nat
  bind : DWord
  satp : DWord
  hgatp : DWord
  /-- on-chip entries, oldest first, each of 64 bytes, with its poisoned words (R252) -/
  chip : List (List Byte × List Nat)
  /-- entries in the ring -/
  inRing : Nat
  pushes : List HeldPush
  pops : List HeldPop
  /-- the launch-table entry its oldest entry's spawn has taken (R256) -/
  spawn : Option Nat
  deriving DecidableEq, Repr

/-! ### Dispatch (R262 to R279, R294) -/

/-- An entry of a launch table (R262). -/
structure Launch where
  /-- a0–a7 (R259) -/
  a : List DWord
  asid : Nat
  vmid : Nat
  satp : DWord
  hgatp : DWord
  hartSlice : Nat
  /-- DEPADDR's condition has been met (R268) -/
  depMet : Bool
  /-- leagues bound so far; teams retired so far -/
  bound : Nat
  retired : Nat
  /-- leagues whose first records were withdrawn and are bound anew (R315, R329), ascending -/
  withdrawn : List Nat
  /-- memory reserved for a co-dependent launch (R263) -/
  reserved : Option (Nat × Nat)
  /-- order of acceptance (R269) -/
  seq : Nat
  /-- the queue it was spawned from, with the entry's words (R256) -/
  qspawn : Option (Nat × List DWord)
  /-- the poisoned words of that entry, by the s register that each is delivered in (R252) -/
  qbad : List Nat
  deriving DecidableEq, Repr

/-- A record of a slice's monitor table (R294). -/
structure MonRecord where
  team : Nat
  lines : List Nat
  left : Option Nat
  /-- the cycle of the partition's clock in which it was made -/
  since : Nat
  deriving DecidableEq, Repr

/-- A slice of the partition, by partition slice index (R304): its dispatch hardware, task-queue unit and counters. -/
structure Slice where
  /-- slice number (R14) -/
  number : Nat
  launches : Tab Launch
  monitors : List MonRecord
  queues : Tab Queue
  /-- CECOUNT and CETHRESH by unit number (R309) -/
  ceCount : Tab Word
  ceThresh : Tab Word
  /-- frames dropped at the slice port (R320) -/
  portDrops : Nat
  deriving DecidableEq, Repr

/-- A VDEV block (R310): VSCOPEPOL, VDIRTY and VFREEZE (R197, R327, R329). -/
structure Vdev where
  scopePol : BitVec 2
  dirty : DWord
  freeze : Bool
  result : Nat
  /-- the wall time by which the guest's context switch must commit (R329) -/
  deadline : Option Nat
  /-- the switch that the freeze met has been rolled back (R329) -/
  rolled : Bool
  /-- the guest has asked for a context to leave its core and none of its contexts has been bound since (R329) -/
  outgoing : Bool
  deriving DecidableEq, Repr

/-! ### Host harts (R199, R258, R265) -/

/-- Why a hart takes an exception (R258, R265, R267, R321), with tval. DEDUCED: assumption 35. -/
inductive HartExc where
  | illegal (word : Word)
  | loadMisaligned (va : DWord)
  | fetchFault (va : DWord)
  | loadFault (va : DWord)
  | storeFault (va : DWord)
  | fetchPage (va : DWord)
  | loadPage (va : DWord)
  | storePage (va : DWord)
  /-- none: the access's packet was refused at a die link, and the hart has been reset with its partition (R331, R333) -/
  | gone
  deriving DecidableEq, Repr

/-- A hart's privilege (R258, R261). -/
inductive Priv where
  | m | s | u | vs | vu
  deriving DecidableEq, Repr

/-- An XLJWAIT that waits (R265): rd, the counter's physical and virtual address, and the wall time of its end. -/
structure JWait where
  rd : Nat
  pa : Nat
  va : DWord
  till : Nat
  deriving DecidableEq, Repr

/-- A host hart, as far as Xthelor sees it (R258 to R267). Its base ISA is RISC-V's. -/
structure Hart where
  /-- x1–x31 (x0 reads 0) -/
  x : Tab DWord
  pc : DWord
  priv : Priv
  satp : DWord
  vsatp : DWord
  hgatp : DWord
  /-- sstatus.SUM of the mode it runs in -/
  sum : Bool
  /-- the exception its last instruction raised -/
  exc : Option HartExc
  /-- an XLJWAIT that waits (R265) -/
  jwait : Option JWait
  /-- the 64-byte block that its LR reserved (R199) -/
  resv : Option Nat
  /-- taken offline by the operating system (R316) -/
  offline : Bool
  /-- the model's own: its image has been loaded and it runs -/
  running : Bool
  deriving DecidableEq, Repr

/-! ### The partition and Castle (R303 to R349) -/

/-- Interrupts raised at the partition's harts: fault (R174), service (R299), launch error with its launch (R266, R268, R296) or
with the queue of a spawn record (R274), error (R321), program log (R392). -/
inductive Irq where
  | fault (die : Nat)
  | service (die : Nat)
  | launchError (slice launch : Nat)
  | queue (q : Nat)
  | error
  deriving DecidableEq, Repr

/-- Castle's descriptor of a partition (R303). STATE: 0 free, 1 running, 2 held, 3 scrubbing.
DESIGN CHOICE: assumption 2. -/
structure PartDesc where
  pid : Nat
  x0 : Nat
  y0 : Nat
  width : Nat
  height : Nat
  slmap : List Nat
  tenant : Nat
  world : Nat
  state : Nat
  deriving DecidableEq, Repr

/-- A resize step that has been asked for (R312, R315): whether it removes a slice, CARG, and whether management asked. -/
structure ResizeStep where
  remove : Bool
  arg : DWord
  mgmt : Bool
  deriving DecidableEq, Repr

/-- The partition's registers of R307 that nothing else holds, and its time and freeze. -/
structure Part where
  /-- wall time since partition start in units of 1/882 ns (R60, R376); 0 -/
  wall : Nat
  /-- cycles of the partition's clock that had elapsed when its code was last changed, and the wall time then (R8, R18);
  0 and 0 -/
  ccs : Nat
  ccAt : Nat
  /-- HBEAT and HBPERIOD (R307, R338); 0 and 1,000 -/
  hbeat : DWord
  hbPeriod : Nat
  /-- wall time of the last heartbeat, and of a freeze (R339) -/
  hbLast : Nat
  frozen : Option Nat
  /-- PWRREQ as written, FCODE, RESULT, STALL, BUDGET and the mask of allowed codes (R344, R348) -/
  pwrReq : DWord
  fcode : Nat
  pwrResult : Nat
  stall : Nat
  budget : BitVec 16
  mask : BitVec 6
  pwrPending : Option Nat
  /-- the wall time up to which the stall counts have been sampled, and the number of samples (R345) -/
  sampleAt : Nat
  samples : Nat
  /-- CAPVA (R307); 0 -/
  capVa : DWord
  /-- BENCHUS (R276, R307); 50 -/
  benchUs : Nat
  /-- SCOPEPOL (R197); as Castle programs it at creation -/
  scopePol : BitVec 2
  /-- HEAPBASE and HEAPSIZE (R307); 0 -/
  heapBase : Nat
  heapSize : Nat
  /-- ranges of the heap that are taken: base and size (R263) -/
  heapUsed : List (Nat × Nat)
  /-- DREQ, DARG and DRESP's STATUS (R311) -/
  dreq : DWord
  darg : DWord
  dresp : Nat
  /-- the context that the pending request names (R311) -/
  dreqCtx : DWord
  /-- CREQ, CARG, CRESP's STATUS and REASON (R312) -/
  creq : DWord
  carg : DWord
  cresp : Nat
  creason : Nat
  /-- resize steps asked for and not made: the first waits for the partition to be idle (R315) -/
  steps : List ResizeStep
  /-- RELEASE_TOP has released the top 32 GiB (R312, R316) -/
  released : Bool
  /-- kill log and error queue (R297, R322) -/
  kl : Ring
  eq : Ring
  /-- interrupts raised, oldest first -/
  irqs : List Irq
  /-- reads of CECOUNT and of Castle's count of uncorrectable errors (R321) -/
  ueCount : Nat
  /-- capability list: GEN (R348) -/
  capGen : Nat
  deriving DecidableEq, Repr

/-- The security events of the measured action table (R332). -/
inductive SecEvent where
  | firewall | dieLink | ideFail | debug
  deriving DecidableEq, Repr

/-- The actions of R333. -/
inductive Action where
  | log | killContext | killPartition | lockdown
  deriving DecidableEq, Repr

/-- A record of Castle's log (R333). -/
structure LogRecord where
  event : SecEvent
  action : Action
  src : ReqSrc
  deriving DecidableEq, Repr

/-- A measurement block of R336: its index and its value. -/
structure Measurement where
  index : Nat
  value : List Byte
  deriving DecidableEq, Repr

/-- What a function's SPDM responder answers (R336). -/
inductive Reply where
  | version | capabilities | algorithms | digests (d : List Byte) | certificate (c : List Byte)
  | challengeAuth (sig : List Byte) | measurements (m : List Measurement) | keyExchange (sig : List Byte)
  | keyOk (slot : Nat) | noKeySlot | refused
  | identity (c : List Byte) | log (l : List LogRecord)
  deriving DecidableEq, Repr

/-- A rectangle of slices (R303). -/
structure Rect where
  x0 : Nat
  y0 : Nat
  width : Nat
  height : Nat
  deriving DecidableEq, Repr

/-- What Castle programs for a slice of a partition (R22, R305, R313): the interleave of its two L2 banks and its memory
controllers (the slice's index, the number of slices, the channels of each) and the partition to whose host cores its
interrupts go. -/
structure Route where
  index : Nat
  nsl : Nat
  channels : Nat
  pid : Nat
  deriving DecidableEq, Repr

/-- The units of a slice that work (R16, R346): its clusters by local index, the channels of its channel group (16 or 8), and
its host cores. -/
structure SliceUnits where
  clusters : BitVec 4
  channels : Nat
  harts : BitVec 4
  deriving DecidableEq, Repr

/-- A host port (R20, R334): PCIe or CXL mode, and the HDM ranges that it exposes: base and size. -/
structure HostPort where
  cxl : Bool
  hdm : List (Nat × Nat)
  deriving DecidableEq, Repr

/-- A slice port (R20, R320): Ethernet or Thelor fabric mode, and the key of its line encryption. -/
structure SlicePort where
  fabric : Bool
  key : Option (BitVec 256)
  deriving DecidableEq, Repr

/-- What measurements 4 to 6 cover (R336): the descriptor, the latches of the partition's dies, and the capability list. -/
structure Evidence where
  desc : PartDesc
  latches : List (BitVec 8)
  caps : List Byte
  deriving DecidableEq, Repr

/-- Castle (R22, R303, R330 to R340). Reset: no partition, every world latch 0, no key slot in use, the action table as
Castle's boot wrote it. DESIGN CHOICE: assumption 2. -/
structure Castle where
  descs : Tab PartDesc
  /-- world latches by die (R330); 0 -/
  worlds : Tab (BitVec 8)
  /-- the measured action table, locked (R332) -/
  actions : List (SecEvent × Action)
  locked : Bool
  lockdown : Bool
  log : List LogRecord
  /-- IDE key slots in use, by 64·port + slot: function and stream (R337) -/
  keys : Tab (Nat × Nat × Nat)
  /-- packets refused at a die link, by die (R331) -/
  linkDrops : Tab Nat
  replies : List Reply
  /-- each router's firewall, by router number: the rectangle of its partition (R305, R314) -/
  firewalls : Tab Rect
  /-- the interleave and interrupt route of each slice, by slice number (R305) -/
  routes : Tab Route
  /-- the partitions that own a physical function of the host ports (R21, R305) -/
  functions : List Nat
  /-- the working units of a slice, by slice number, where some do not (R346); none listed -/
  units : Tab SliceUnits
  /-- the host ports 0–3, and the slice ports by slice number (R20, R320, R334) -/
  hostPorts : Tab HostPort
  slicePorts : Tab SlicePort
  /-- the rectangle that resizing is to reach, where management has named one (R316) -/
  target : Option Rect
  /-- the working units, by slice index, of each partition with defective ones whose capability list has been written: CAPVER's
  numbers (R348); none -/
  versions : List (List Nat)
  /-- FCODE of the partitions but the one that is modelled in full, by PID (R342) -/
  codes : Tab Nat
  /-- what measurements 4 to 6 covered before a resize step, while STATE has not returned to 1 (R336) -/
  evidence : Option Evidence
  deriving DecidableEq, Repr

/-! ### The whole -/

/-- Whose step is taken next, by unit: a compute core by R14's number, the memory traffic of a core, a cluster's engines, a
compute die, a slice's dispatch core by its index, a host hart by 4·slice index + number, or the partition itself. -/
inductive Turn where
  | core (n : Nat)
  | home (n : Nat)
  | cluster (n : Nat)
  | die (n : Nat)
  | slice (n : Nat)
  | hart (n : Nat)
  | part
  deriving DecidableEq, Repr

/-- What reaches the machine from outside and is no instruction of the opcode table: an error of the hardware (R84, R153, R203,
R321, R322), what an operating system does to a hart (R316) or names of its memory (R334), what Castle programs (R22, R316,
R320, R334, R346), and what management asks for (R335). -/
inductive Input where
  /-- a single-bit error corrected in a unit of a slice of the partition, by slice index and unit (R309) -/
  | corrected (slice unit : Nat)
  /-- an uncorrectable word of a register line in a core's pool: v[n] or a predicate line of a lane of a team -/
  | registerWord (core team lane n : Nat)
  /-- an uncorrectable s register -/
  | uniformWord (team gang n : Nat)
  /-- an uncorrectable word of a per-team file, by its image offset div 8 -/
  | fileWord (team word : Nat)
  /-- an uncorrectable word of a scratchpad tile -/
  | tileWord (team h word : Nat)
  /-- an uncorrectable accumulator element -/
  | accWord (cluster elem : Nat)
  /-- an uncorrectable error of HBM at a physical address -/
  | hbm (pa : Nat)
  /-- an uncorrectable word of the zero map, at a physical address that it covers -/
  | mapWord (pa : Nat)
  | hartOffline (hart : Nat) (off : Bool)
  | hostPort (port : Nat) (cxl : Bool)
  | hdm (port : Nat) (ranges : List (Nat × Nat))
  | slicePort (slice : Nat) (p : SlicePort)
  /-- a unit of a slice found defective and disabled -/
  | degrade (slice : Nat) (u : SliceUnits)
  | resizeTarget (r : Option Rect)
  /-- SCOPEPOL of the modelled partition, which Castle alone writes (R197) -/
  | scopePol (v : BitVec 2)
  /-- FCODE of a partition that is not modelled in full (R342) -/
  | clock (pid code : Nat)
  | readIdentity
  | readLog
  /-- the model's own: a packet that a die refuses on its way from another (R331) -/
  | linkRefused (die source : Nat)
  deriving DecidableEq, Repr

/-- An entry of the schedule: a step of the part or of the outside world, an input, or a unit that takes its turn. -/
inductive Act where
  | event (i : Instr)
  | input (x : Input)
  | unit (t : Turn)
  deriving DecidableEq, Repr

/-- The machine. -/
structure State where
  /-- the model's own: what happens next, in order; when it is empty the units take turns in the model's default order -/
  sched : List Act
  /-- the model's own: the unit whose turn it is -/
  turn : Turn
  /-- the model's own: how many free values have been taken -/
  fresh : Nat
  /-- number of the partition that is modelled in full, and its slices in index order (R303, R304) -/
  pid : Nat
  mem : Memory
  part : Part
  cores : Tab Core
  clusters : Tab Cluster
  dies : Tab Die
  slices : Tab Slice
  vdevs : Tab Vdev
  harts : Tab Hart
  teams : Tab Team
  /-- the CTXID that the dispatch firmware gives the next context -/
  nextCtx : Nat
  /-- acceptance order of launches (R269) -/
  nextSeq : Nat
  /-- the count of binds (R278) -/
  nextBind : Nat
  castle : Castle
  deriving DecidableEq, Repr

/-- Why a step stops for good. -/
inductive Fault where
  /-- a turn of a unit that the partition does not hold (R16, R303): raised by `step`; safe -/
  | noUnit
  deriving DecidableEq, Repr

/-- Why a step has no meaning in the model. -/
inductive Refusal where
  /-- an instruction without a meaning yet: raised by the arms of `exec`; safe -/
  | notModelled (mnemonic : String)
  /-- a RISC-V instruction of a host hart other than Xthelor's, which the manual leaves to the RISC-V standards: raised by
  `step`; safe -/
  | hostIsa (word : Word)
  deriving DecidableEq, Repr

/-! ### Reset -/

/-- A thread slot that launch never filled (R66). -/
def Thread.empty : Thread :=
  { loc := .vacant, v := [], p := 1, ix := 0, bad := [], trapCause := 0, info0 := 0, info1 := 0, trapPc := 0,
    regionCnt := 0, handler := false, mon := none, watch := 0, fenced := false, nmFenced := false, seen := 0, after := 0, irrev := false }

/-- An uninitialised barrier object (R53). -/
def Barrier.empty : Barrier := { pend := 0, err := 0, state := 0, phase := false, arrived := 0, expect := 0 }

/-- An unarmed convergence register (R53). -/
def Conv.empty : Conv := { desc := 0, expect := 0, signed := 0, state := 0, err := false, frmp := 0, errCode := 0 }

/-- The values of a team's registers that no launch field sets (R53, R60). -/
def Team.empty : Team :=
  { state := .retired, ctxid := 0, slice := 0, launch := 0, grid := 0, prio := 0, sys := false, codep := false, qspawn := false,
    asid := 0, vmid := 0, satp := 0, hgatp := 0, imgBase := 0, tsBase := 0, tsUnits := 0, kaddr := 0, cctr := 0,
    teamId := 0, leagueId := 0, leaguePos := 0, leagueSize := 1, gridTeams := 0, w := 16, t := 0, frm := 0,
    fflags := 0, trapVec := 0, waitCheck := false, btimeout := 0x1000000, wbase := 0, wlen := 0, accA := none,
    accB := none, lm := [], k := [], b := [], h := [], s := [], sbad := [], threads := [], spill := [], sel := none, padBad := [],
    lastStart := 0, waitSince := none, results := [], marks := [], fpend := [], seq := 0, call := none, curW := none,
    penW := [], susp := [], bindable := false, onHold := false, vfrozen := false, clean := false, lastCore := none, leaving := none,
    heldSince := none, bound := 0, postOrder := [], fileBad := [], retiring := false, pops := [] }

/-- An empty core with the default boundaries (R82). -/
def Core.empty : Core :=
  { cc := 0, wall := 0, pbReg := 4, pbScr := 28, pbL1 := 32, slots := [], table := [], passes := [], ended := [],
    seq := 0, lines := [], want := [], l1 := [], brought := [], stq := [], atq := [], nmq := [], arrivals := [], sigs := [], arms := [],
    tlb := [], issued := [], stalled := [], sampled := 0 }

/-- An idle matrix engine. -/
def Matrix.empty : Matrix :=
  { table := [], active := none, shadow := none, acc := [], accBad := [], promo := [], posting := [], failed := [], spent := [],
    ramp := 0, rampAt := 0, idleSince := 0 }

/-- A cluster that has not started (R341). -/
def Cluster.empty : Cluster := { started := false, matrix := Matrix.empty, copy := { table := [] } }

/-- A ring whose registers are all zero (R308). -/
def Ring.empty : Ring := { base := 0, log2n := 0, ie := false, head := 0, tail := 0, ovf := 0, pending := [] }

/-- A die with empty tables (R308), its rail at the voltage of the first code (R342). DESIGN CHOICE: assumptions 19, 77. -/
def Die.empty : Die :=
  { tlb := [], faults := [], noEntry := [], calls := [], callWait := [], fq := Ring.empty, sq := Ring.empty,
    pl := Ring.empty, plogMask := 0, dgst := none, rail := 5 }

/-- A queue whose registers are all zero (R250). DESIGN CHOICE: assumption 77. -/
def Queue.empty : Queue :=
  { ctl := 0, ring := 0, head := 0, tail := 0, bind := 0, satp := 0, hgatp := 0, chip := [], inRing := 0,
    pushes := [], pops := [], spawn := none }

/-- A slice with empty tables. DESIGN CHOICE: assumption 77. -/
def Slice.empty : Slice :=
  { number := 0, launches := [], monitors := [], queues := [], ceCount := [], ceThresh := [], portDrops := 0 }

/-- A VDEV block of zeros (R310). DESIGN CHOICE: assumptions 23, 77. -/
def Vdev.empty : Vdev := { scopePol := 0, dirty := 0, freeze := false, result := 0, deadline := none, rolled := false, outgoing := false }

/-- A host hart after reset: M-mode, bare translation, registers zero. PRESUMED: assumption 18. -/
def Hart.empty : Hart :=
  { x := [], pc := 0, priv := .m, satp := 0, vsatp := 0, hgatp := 0, sum := false, exc := none, jwait := none, resv := none, offline := false,
    running := false }

/-- The partition's registers at partition start (R276, R307, R308, R338, R344). The clock starts at FCODE 5, 700 MHz
(R1). DESIGN CHOICE: assumptions 19, 23, 77. -/
def Part.empty : Part :=
  { wall := 0, ccs := 0, ccAt := 0, hbeat := 0, hbPeriod := 1000, hbLast := 0, frozen := none, pwrReq := 0, fcode := 5, pwrResult := 0,
    stall := 0, budget := 2000, mask := 0x3F, pwrPending := none, sampleAt := 0, samples := 0, capVa := 0, benchUs := 50, scopePol := 0,
    heapBase := 0, heapSize := 0, heapUsed := [], dreq := 0, darg := 0, dresp := 0, dreqCtx := 0, creq := 0, carg := 0, cresp := 0,
    creason := 0, steps := [], released := false, kl := Ring.empty, eq := Ring.empty, irqs := [], ueCount := 0, capGen := 0 }

/-- Memory that nothing has written (R153, R340). DEDUCED: assumption 1. -/
def Memory.empty : Memory := { cells := [], bad := [], zclr := [], zline := [], lost := [], fixed := [] }

/-- Castle after module power-up (R330, R332, R337). DESIGN CHOICE: assumptions 22, 77. -/
def Castle.empty : Castle :=
  { descs := [], worlds := [], actions := [(.firewall, .log), (.dieLink, .log), (.ideFail, .log), (.debug, .log)],
    locked := true, lockdown := false, log := [], keys := [], linkDrops := [], replies := [], firewalls := [], routes := [], functions := [],
    units := [], hostPorts := [], slicePorts := [], target := none, versions := [], codes := [], evidence := none }

/-- The machine right after module power-up (R341): Castle has booted and locked the action table, and it has formed no
partition yet. -/
def State.reset : State :=
  { sched := [], turn := .part, fresh := 0, pid := 0, mem := Memory.empty, part := Part.empty, cores := [],
    clusters := [], dies := [], slices := [], vdevs := [], harts := [], teams := [], nextCtx := 1, nextSeq := 0, nextBind := 0,
    castle := Castle.empty }

end Sys2Proof.Machine
end

