-- ==== Sys2Proof/Machine/Ops.lean ====
section
/-! DEFINITION. The named operations over the state: sparse tables, memory, registers, teams and cores; taking a trap
and returning from a handler; entries, holding and releasing threads. -/

namespace Sys2Proof

/-! ### Sparse tables -/

/-- The value of a key, if it is listed. -/
def Tab.find? {α : Type} (t : Tab α) (k : Nat) : Option α :=
  match t with
  | [] => none
  | (j, a) :: r => if j == k then some a else if k < j then none else Tab.find? r k

/-- The value of a key, the default where it is not listed. -/
def Tab.get {α : Type} (d : α) (t : Tab α) (k : Nat) : α := (t.find? k).getD d

/-- The table without a key. -/
def Tab.erase {α : Type} (t : Tab α) (k : Nat) : Tab α :=
  match t with
  | [] => []
  | (j, a) :: r => if j == k then r else if k < j then (j, a) :: r else (j, a) :: Tab.erase r k

/-- The table with a key's value listed. -/
def Tab.set {α : Type} (t : Tab α) (k : Nat) (v : α) : Tab α :=
  match t with
  | [] => [(k, v)]
  | (j, a) :: r =>
    if j == k then (k, v) :: r else if k < j then (k, v) :: (j, a) :: r else (j, a) :: Tab.set r k v

/-- The table with a key's value, in canonical form: the default is not listed. -/
def Tab.put {α : Type} [DecidableEq α] (d : α) (t : Tab α) (k : Nat) (v : α) : Tab α :=
  if v = d then Tab.erase t k else Tab.set t k v

/-- Keys strictly rising, all above a bound. -/
def Tab.sortedFrom {α : Type} (lo : Nat) (t : Tab α) : Bool :=
  match t with
  | [] => true
  | (j, _) :: r => decide (lo ≤ j) && Tab.sortedFrom (j + 1) r

/-- The canonical form: keys strictly rising and no default listed. -/
def Tab.wf {α : Type} [DecidableEq α] (d : α) (t : Tab α) : Bool :=
  Tab.sortedFrom 0 t && t.all (fun c => decide (c.2 ≠ d))

/-- The keys listed. -/
def Tab.keys {α : Type} (t : Tab α) : List Nat := t.map Prod.fst

/-- The keys whose values a test selects. -/
def Tab.keysOf {α : Type} (t : Tab α) (f : α → Bool) : List Nat := (t.filter (fun c => f c.2)).map Prod.fst

/-- A function of every listed value. -/
def Tab.mapVal {α β : Type} (f : Nat → α → β) (t : Tab α) : Tab β := t.map (fun c => (c.1, f c.1 c.2))

/-- The least number that is not listed, from a bound up, with as much fuel as the table is long. -/
def Tab.freeKey {α : Type} (t : Tab α) (lo : Nat) : Nat :=
  match t with
  | [] => lo
  | (j, _) :: r => if j == lo then Tab.freeKey r (lo + 1) else if lo < j then lo else Tab.freeKey r lo

/-! ### Sets of numbers, strictly rising -/

/-- A set with a number. -/
def setIns (l : List Nat) (k : Nat) : List Nat :=
  match l with
  | [] => [k]
  | j :: r => if j == k then l else if k < j then k :: l else j :: setIns r k

/-- A set without a number. -/
def setDel (l : List Nat) (k : Nat) : List Nat :=
  match l with
  | [] => []
  | j :: r => if j == k then r else if k < j then l else j :: setDel r k

/-! ### Lists -/

/-- The numbers lo, lo + 1, …, lo + n − 1. -/
def upto (lo : Nat) : Nat → List Nat
  | 0 => []
  | n + 1 => lo :: upto (lo + 1) n

/-- A number inserted in rising order. -/
def insertNat (x : Nat) : List Nat → List Nat
  | [] => [x]
  | y :: r => if x ≤ y then x :: y :: r else y :: insertNat x r

/-- A list of numbers in rising order. -/
def sortNat (l : List Nat) : List Nat := l.foldr insertNat []

/-- A rising list without repeats. -/
def dedupSorted : List Nat → List Nat
  | [] => []
  | x :: r => match dedupSorted r with
    | [] => [x]
    | y :: s => if x == y then y :: s else x :: y :: s

/-- The first element that minimises a measure. -/
def minBy {α : Type} (f : α → Nat) : List α → Option α
  | [] => none
  | x :: r => match minBy f r with
    | none => some x
    | some y => if f y < f x then some y else some x

/-- The element at a place, replaced. -/
def setAt {α : Type} (l : List α) (n : Nat) (a : α) : List α :=
  match l, n with
  | [], _ => []
  | _ :: r, 0 => a :: r
  | x :: r, n + 1 => x :: setAt r n a

/-- The list without the element at a place. -/
def dropAt {α : Type} (l : List α) (n : Nat) : List α :=
  match l, n with
  | [], _ => []
  | _ :: r, 0 => r
  | x :: r, n + 1 => x :: dropAt r n

/-! ### Bytes and words, little-endian (R5) -/

/-- The number that bytes hold, the lowest first. -/
def ofBytes : List Byte → Nat
  | [] => 0
  | b :: r => b.toNat + 256 * ofBytes r

/-- The n low bytes of a number, the lowest first. -/
def toBytes : Nat → Nat → List Byte
  | 0, _ => []
  | n + 1, v => BitVec.ofNat 8 v :: toBytes n (v / 256)

/-- n bytes of a byte list from an offset, as a number. -/
def fieldAt (bs : List Byte) (off n : Nat) : Nat := ofBytes ((bs.drop off).take n)

/-- Bit n of a number. -/
def natBit (v n : Nat) : Bool := v / 2 ^ n % 2 == 1

/-- Bits lo and up of a number, n of them. -/
def natBits (v lo n : Nat) : Nat := v / 2 ^ lo % 2 ^ n

/-- The low half of a pair's value (R54). -/
def lo32 (x : DWord) : Word := x.extractLsb' 0 32
/-- The high half of a pair's value (R54). -/
def hi32 (x : DWord) : Word := x.extractLsb' 32 32
/-- The value of a pair: the even register holds bits 31:0 (R54). -/
def pair64 (lo hi : Word) : DWord := hi ++ lo

namespace Machine

/-! ### Memory -/

/-- The byte at a physical address: 0 where nothing is listed. DEDUCED: assumption 1. -/
def Memory.get (m : Memory) (pa : Nat) : Byte := Tab.get 0 m.cells pa

/-- A byte written, in canonical form. DEDUCED: assumption 1. -/
def Memory.put (m : Memory) (pa : Nat) (b : Byte) : Memory := { m with cells := Tab.put 0 m.cells pa b }

/-- The canonical form of memory: addresses strictly rising, no byte listed that reads as an unlisted one. -/
def Memory.wf (m : Memory) : Bool := Tab.wf (0 : Byte) m.cells

/-- n bytes from a physical address. -/
def Memory.read (m : Memory) (pa : Nat) : Nat → List Byte
  | 0 => []
  | n + 1 => m.get pa :: m.read (pa + 1) n

/-- n bytes from a physical address as a number (R5). -/
def Memory.readNat (m : Memory) (pa n : Nat) : Nat := ofBytes (m.read pa n)

/-- Bytes written from a physical address up, without the zero map and poison. -/
def Memory.putBytes (m : Memory) (pa : Nat) : List Byte → Memory
  | [] => m
  | b :: r => (m.put pa b).putBytes (pa + 1) r

/-- The granule's home among n slices of c channels (R313, R346): slice index, channel and bank. -/
def homeOf (c n pa : Nat) : Nat × Nat × Nat :=
  let g := pa / 256
  let q := g / n
  ((g % n + q / c) % n, q % c, pa / 128 % 2)

/-- The granule that a slice's channel group holds in its place q (R313): homeOf's inverse. -/
def granuleOf (c n i q : Nat) : Nat := n * q + (i + n - q / c % n) % n

/-- Is a word in a granule that a slice reset lost and that has not been written whole since (R323)?
DEDUCED: assumption 65. -/
def Memory.lostWord (m : Memory) (w : Nat) : Bool :=
  m.lost.any (fun e => decide (4 * w < e.top) && (homeOf e.channels e.nsl (4 * w)).1 == e.slice) && !(upto (64 * (w / 64)) 64).all m.fixed.contains

/-- The lost words of a range. -/
def Memory.lostIn (m : Memory) (pa n : Nat) : List Nat :=
  if m.lost.isEmpty then [] else (upto (pa / 4) ((pa + n + 3) / 4 - pa / 4)).filter m.lostWord

/-- The poisoned words of a range, rising (R154, R323). -/
def Memory.badIn (m : Memory) (pa n : Nat) : List Nat :=
  (m.lostIn pa n).foldl setIns (m.bad.filter (fun w => decide (pa / 4 ≤ w) && decide (4 * w < pa + n)))

/-- Is a 4-byte word of the range poisoned (R154)? DEDUCED: assumption 26. -/
def Memory.poisoned (m : Memory) (pa n : Nat) : Bool :=
  m.bad.any (fun w => decide (pa / 4 ≤ w) && decide (4 * w < pa + n)) || !(m.lostIn pa n).isEmpty

/-- The address of the first poisoned word of the range. -/
def Memory.poisonAt (m : Memory) (pa n : Nat) : Option Nat :=
  (m.badIn pa n).head?.map (4 * ·)

/-- A word's poison set or cleared. -/
def Memory.mark (m : Memory) (w : Nat) (b : Bool) : Memory :=
  { m with bad := if b then setIns m.bad w else setDel m.bad w }

/-- Every word of the range poisoned (R84, R321). -/
def Memory.poison (m : Memory) (pa n : Nat) : Memory :=
  { m with bad := (upto (pa / 4) ((n + 3) / 4)).foldl setIns m.bad }

/-- The poison of the words that a write covers wholly, cleared (R154). DEDUCED: assumption 26. -/
def Memory.heal (m : Memory) (pa n : Nat) : Memory :=
  { m with
    bad := m.bad.filter (fun w => !(decide (pa ≤ 4 * w) && decide (4 * w + 4 ≤ pa + n)))
    fixed := if m.lost.isEmpty then m.fixed else (upto ((pa + 3) / 4) ((pa + n) / 4 - (pa + 3) / 4)).foldl setIns m.fixed }

/-- The bytes of a write that fall in a range of sz bytes from lo. -/
def pieceIn (pa : Nat) (bs : List Byte) (lo sz : Nat) : List Byte := (bs.take (lo + sz - pa)).drop (lo - pa)

/-- The granules to which a write gives nonzero data have their zero-map bits cleared (R153). -/
def Memory.unzero (m : Memory) (pa : Nat) (bs : List Byte) : Memory :=
  if bs.all (· == 0) then m
  else { m with zclr := ((upto (pa / 256) ((pa + bs.length - 1) / 256 + 1 - pa / 256)).filter (fun g =>
      (pieceIn pa bs (256 * g) 256).any (· != 0))).foldl setIns m.zclr }

/-- The zero-line flags of the lines that a write reaches (R152): a whole line of zeros sets the flag, any other
write clears it. -/
def Memory.lineFlags (m : Memory) (pa : Nat) (bs : List Byte) : Memory :=
  if bs.isEmpty then m else
  { m with zline :=
      (upto (pa / 128) ((pa + bs.length - 1) / 128 + 1 - pa / 128)).foldl (fun z l =>
        if decide (pa ≤ 128 * l) && decide (128 * l + 128 ≤ pa + bs.length) && (pieceIn pa bs (128 * l) 128).all (· == 0)
        then setIns z l else setDel z l) m.zline }

/-- A write performed at its home: the bytes, the poison, the zero map and the zero-line flags (R152 to R154). -/
def Memory.write (m : Memory) (pa : Nat) (bs : List Byte) : Memory :=
  (((m.putBytes pa bs).heal pa bs.length).unzero pa bs).lineFlags pa bs

/-- A write of n low bytes of a number (R5). -/
def Memory.writeNat (m : Memory) (pa n v : Nat) : Memory := m.write pa (toBytes n v)

/-- A range made zero through the zero map (R68, R153, R242): whole granules have their bits set without a DRAM write,
whole lines their flags set, and the other bytes are written as zeros. -/
def Memory.zero (m : Memory) (pa n : Nat) : Memory :=
  let e := pa + n
  let inside := fun (lo sz : Nat) => decide (pa ≤ lo) && decide (lo + sz ≤ e)
  { cells := m.cells.filter (fun c => !(decide (pa ≤ c.1) && decide (c.1 < e)))
    bad := m.bad.filter (fun w => !inside (4 * w) 4)
    zclr := m.zclr.filter (fun g => !inside (256 * g) 256)
    zline := m.zline
    lost := m.lost
    fixed := (m.heal pa n).fixed }

/-- The lines that a range covers whole have their zero-line flags set (R152, R242). -/
def Memory.flagLines (m : Memory) (pa n : Nat) : Memory :=
  let lo := (pa + 127) / 128
  let hi := max lo ((pa + n) / 128)
  { m with zline := m.zline.filter (fun l => decide (l < lo)) ++ upto lo (hi - lo) ++ m.zline.filter (fun l => decide (hi ≤ l)) }

/-- A range of whole lines written with zeros, byte by byte (R152 to R154): the zero map does not change (R153). -/
def Memory.wipe (m : Memory) (pa n : Nat) : Memory := { m.zero pa n with zclr := m.zclr }.flagLines pa n

/-- The zero map and the zero-line flags after the L2 reads a granule whose zero-map bit is set: a line of it that the L2
installs has its flag set (R153). A line that lists no byte is zero. -/
def Memory.install (m : Memory) (pa : Nat) : Memory :=
  if m.zclr.contains (pa / 256) || m.cells.any (fun c => c.1 / 128 == pa / 128) then m
  else { m with zline := setIns m.zline (pa / 128) }

/-- The same for every line of a range. -/
def Memory.installAll (m : Memory) (pa n : Nat) : Memory :=
  (upto (pa / 128) ((pa + n + 127) / 128 - pa / 128)).foldl (fun m l => m.install (128 * l)) m

/-! ### Accessors of the state -/

def State.core (s : State) (c : Nat) : Core := Tab.get Core.empty s.cores c
def State.setCore (s : State) (c : Nat) (x : Core) : State := { s with cores := Tab.set s.cores c x }
def State.team (s : State) (k : Nat) : Team := Tab.get Team.empty s.teams k
def State.setTeam (s : State) (k : Nat) (x : Team) : State := { s with teams := Tab.set s.teams k x }
def State.cluster (s : State) (n : Nat) : Cluster := Tab.get Cluster.empty s.clusters n
def State.setCluster (s : State) (n : Nat) (x : Cluster) : State := { s with clusters := Tab.set s.clusters n x }
def State.die (s : State) (d : Nat) : Die := Tab.get Die.empty s.dies d
def State.setDie (s : State) (d : Nat) (x : Die) : State := { s with dies := Tab.set s.dies d x }
def State.slice (s : State) (i : Nat) : Slice := Tab.get Slice.empty s.slices i
def State.setSlice (s : State) (i : Nat) (x : Slice) : State := { s with slices := Tab.set s.slices i x }
def State.hart (s : State) (n : Nat) : Hart := Tab.get Hart.empty s.harts n
def State.setHart (s : State) (n : Nat) (x : Hart) : State := { s with harts := Tab.set s.harts n x }
def State.vdev (s : State) (v : Nat) : Vdev := Tab.get Vdev.empty s.vdevs v
def State.setVdev (s : State) (v : Nat) (x : Vdev) : State := { s with vdevs := Tab.set s.vdevs v x }
def State.setMem (s : State) (m : Memory) : State := { s with mem := m }
def State.setPart (s : State) (p : Part) : State := { s with part := p }
def State.setCastle (s : State) (c : Castle) : State := { s with castle := c }
def Team.thread (t : Team) (tid : Nat) : Thread := Tab.get Thread.empty t.threads tid
def Team.setThread (t : Team) (tid : Nat) (x : Thread) : Team := { t with threads := Tab.set t.threads tid x }
def Slice.queue (x : Slice) (q : Nat) : Queue := Tab.get Queue.empty x.queues q

/-- A range read from its homes: the L2 installs its lines, with their zero-line flags where their granules are marked (R153). -/
def State.readHome (s : State) (pa n : Nat) : State := s.setMem (s.mem.installAll pa n)

/-- A thread of a team, changed. -/
def State.updThread (s : State) (k tid : Nat) (f : Thread → Thread) : State :=
  let t := s.team k
  s.setTeam k (t.setThread tid (f (t.thread tid)))

/-- A team, changed. -/
def State.updTeam (s : State) (k : Nat) (f : Team → Team) : State := s.setTeam k (f (s.team k))

/-- A core, changed. -/
def State.updCore (s : State) (c : Nat) (f : Core → Core) : State := s.setCore c (f (s.core c))

/-- A free value's number, and the state that has used it. DESIGN CHOICE: assumption 5. -/
def State.takeFresh (s : State) : Nat × State := (s.fresh, { s with fresh := s.fresh + 1 })

/-! ### Numbering (R14, R25, R304) -/

/-- The slice number of a core, and of a cluster (R14). -/
def coreSlice (c : Nat) : Nat := c / 16
def coreCluster (c : Nat) : Nat := c / 4
def clusterSlice (n : Nat) : Nat := n / 4

/-- The slice of a router, by its number 8Y + X, and a slice's routers (R14). -/
def routerSlice (r : Nat) : Nat := 4 * (r / 8 / 2) + r % 8 / 2
def sliceRouters (x : Nat) : List Nat :=
  let r := 16 * (x / 4) + 2 * (x % 4)
  [r, r + 1, r + 8, r + 9]

/-- The compute die of a slice number (R14). -/
def sliceDie (x : Nat) : Nat := 2 * (x / 4) + (x % 4) / 2

/-- The HBM4E stack of a slice's channel group, and the channel of the stack that a channel of the group is: 0–15 of the left
slice, 16–31 of the right (R14). -/
def stackOf (x : Nat) : Nat := sliceDie x
def stackChannel (x ch : Nat) : Nat := 16 * (x % 2) + ch

/-- The die of a core. -/
def coreDie (c : Nat) : Nat := sliceDie (coreSlice c)

/-- The descriptor of the partition (R303). -/
def State.desc (s : State) : PartDesc :=
  Tab.get { pid := 0, x0 := 0, y0 := 0, width := 0, height := 0, slmap := [], tenant := 0, world := 0, state := 0 }
    s.castle.descs s.pid

/-- The slices of the partition, n of them (R303). -/
def State.nsl (s : State) : Nat := s.desc.slmap.length

/-- The working units of a slice (R16, R346). -/
def Castle.unitsOf (c : Castle) (x : Nat) : SliceUnits := Tab.get { clusters := 0xF, channels := 16, harts := 0xF } c.units x

/-- The channels of each of the partition's slices (R313, R346). -/
def State.channels (s : State) : Nat :=
  match s.desc.slmap with
  | x :: _ => (s.castle.unitsOf x).channels
  | [] => 16

/-- The memory of each of the partition's slices (R16, R346): 32 GiB, or 16 GiB with 8 channels. -/
def State.sliceBytes (s : State) : Nat := s.channels * Config.channelBytes

/-- The end of partition memory (R313). -/
def State.memEnd (s : State) : Nat := s.nsl * s.sliceBytes

/-! ### Dirty bitmaps (R327) -/

/-- The virtual function of a VMID: 0 is the physical function, v + 1 virtual function v. DEDUCED: assumption 28. -/
def vdevOf (vmid : Nat) : Option Nat := if vmid == 0 then none else some (vmid - 1)

/-- The dirty bit of a store that carries a VDEV's VMID (R327). -/
def State.markDirty (s : State) (vmid pa : Nat) : State :=
  match vdevOf vmid with
  | none => s
  | some v =>
    let d := (s.vdev v).dirty
    if !d.getLsbD 0 then s else
    let bit := pa / 65536
    let a := d.toNat - d.toNat % 4096 + bit / 8
    let old := (s.mem.get a).toNat
    if a < s.memEnd && !natBit old (bit % 8) then s.setMem (s.mem.write a [BitVec.ofNat 8 (old + 2 ^ (bit % 8))]) else s

/-- The dirty bits of a range that the part writes for a VDEV (R328). DEDUCED: assumption 91. -/
def State.markRange (s : State) (vmid pa n : Nat) : State :=
  match vdevOf vmid with
  | none => s
  | some _ => (upto (pa / 65536) ((pa + n + 65535) / 65536 - pa / 65536)).foldl (fun s g => s.markDirty vmid (65536 * g)) s

/-- Bytes that the part writes to a team's image or save area (R327, R328). DEDUCED: assumption 91. -/
def State.writeFor (s : State) (vmid pa : Nat) (bs : List Byte) : State := (s.setMem (s.mem.write pa bs)).markDirty vmid pa

/-- The partition slice index of a slice number, if the partition holds it (R304). -/
def State.sliceIndex (s : State) (x : Nat) : Option Nat := s.desc.slmap.findIdx? (· == x)

/-- No bind, spawn or pass starts: the partition is frozen (R339), or its STATE is not 1 (R303, R315, R330). -/
def State.halted (s : State) : Bool := s.part.frozen.isSome || s.desc.state != 1

/-- The gang of a thread, its gang lane, its quad and its physical lane (R25). -/
def Team.gangOf (t : Team) (tid : Nat) : Nat := tid / t.w
def Team.laneOf (t : Team) (tid : Nat) : Nat := tid % t.w
def Team.planeOf (t : Team) (tid : Nat) : Nat := (tid / t.w) % (64 / t.w) * t.w + tid % t.w

/-- Is the thread a pawn (R25)? -/
def Team.isPawn (t : Team) (tid : Nat) : Bool := decide (t.t ≤ tid)

/-- The thread slots of a team (R25, R26). -/
def Team.slotCount (t : Team) : Nat := 4 * ((t.t + 3) / 4)

/-- Its gangs, ⌈T/W⌉ (R26). -/
def Team.gangs (t : Team) : Nat := (t.t + t.w - 1) / t.w

/-- The core a team is on, resident or killed and not yet retired. -/
def Team.onCore (t : Team) : Option Nat :=
  match t.state with
  | .resident c _ => some c
  | .killed c _ => some c
  | _ => none

/-- Is the team resident (R295)? -/
def Team.isResident (t : Team) : Bool :=
  match t.state with
  | .resident _ _ => true
  | _ => false

/-! ### Registers -/

/-- v[n] of a thread (R53). -/
def Thread.vget (x : Thread) (n : Nat) : Word := Tab.get 0 x.v n

/-- v[n] written: a full write, which clears the word's poison (R87). -/
def Thread.vset (x : Thread) (n : Nat) (a : Word) : Thread :=
  { x with v := Tab.set x.v n a, bad := setDel x.bad n }

/-- The pair v[n]:v[n+1] (R54). -/
def Thread.v64 (x : Thread) (n : Nat) : DWord := pair64 (x.vget n) (x.vget (n + 1))

/-- The pair written (R54). -/
def Thread.v64set (x : Thread) (n : Nat) (a : DWord) : Thread := (x.vset n (lo32 a)).vset (n + 1) (hi32 a)

/-- p[n] (R55): p0 reads 1. -/
def Thread.pget (x : Thread) (n : Nat) : Bool := n == 0 || x.p.getLsbD n

/-- p[n] written; p0 is never written (R55). -/
def Thread.pset (x : Thread) (n : Nat) (b : Bool) : Thread :=
  if n == 0 then x else
  { x with p := if b then x.p ||| (1#8 <<< n) else x.p &&& ~~~(1#8 <<< n) }

/-- i[j] (R53). -/
def Thread.iget (x : Thread) (j : Nat) : BitVec 8 := x.ix.extractLsb' (8 * j) 8

/-- i[j] written (R71). -/
def Thread.iset (x : Thread) (j : Nat) (b : BitVec 8) : Thread :=
  { x with ix := (x.ix &&& ~~~((0xFF#32) <<< (8 * j))) ||| ((b.zeroExtend 32) <<< (8 * j)) }

/-- The slot of the predicate line, and of the index line (R71). -/
def slotP : Nat := 64
def slotI : Nat := 65

/-- A register slot written with a 32-bit value: 0–63 v, 64 the predicates, 65 the index registers (R71). -/
def Thread.slotSet (x : Thread) (n : Nat) (a : Word) : Thread :=
  if n < 64 then x.vset n a
  else if n == 64 then { x with p := a.extractLsb' 0 8 ||| 1#8, bad := setDel x.bad 64 }
  else { x with ix := a, bad := setDel x.bad 65 }

/-- A register slot's word (R71). -/
def Thread.slotGet (x : Thread) (n : Nat) : Word :=
  if n < 64 then x.vget n else if n == 64 then x.p.zeroExtend 32 else x.ix

/-- s[n] of gang g (R53, R55): s0 reads 0. -/
def Team.sget (t : Team) (g n : Nat) : DWord := if n == 0 then 0 else Tab.get 0 t.s (32 * g + n)

/-- s[n] of gang g written; a write to s0 is ignored (R55). A write clears the word's poison. -/
def Team.sset (t : Team) (g n : Nat) (a : DWord) : Team :=
  if n == 0 then t else { t with s := Tab.set t.s (32 * g + n) a, sbad := setDel t.sbad (32 * g + n) }

/-- Is s[n] of gang g poisoned (R84)? -/
def Team.spoison (t : Team) (g n : Nat) : Bool := n != 0 && t.sbad.contains (32 * g + n)

/-- lm[m] (R55): lm0 is never stored. -/
def Team.lmGet (t : Team) (m : Nat) : BitVec 16 := Tab.get 0 t.lm m

/-! ### The team that holds a barrier object (R57, R58) -/

/-- The teams of a team's league (R24): those of its grid with its LEAGUEID. -/
def State.league (s : State) (k : Nat) : List Nat :=
  let t := s.team k
  (s.teams.filter (fun c => c.2.grid == t.grid && c.2.leagueId == t.leagueId)).map Prod.fst

/-- The team whose record holds b[n] of team k: for b12–b15 of a league of two or more, that with LEAGUEPOS 0. -/
def State.barrierOwner (s : State) (k n : Nat) : Nat :=
  let t := s.team k
  if decide (12 ≤ n) && decide (2 ≤ t.leagueSize) then
    ((s.league k).find? (fun j => (s.team j).leaguePos == 0)).getD k
  else k

/-- Bytes 8–15 of the object's record (R67). -/
def Barrier.word (b : Barrier) : Nat :=
  b.expect + 2 ^ 16 * b.arrived + 2 ^ 32 * (if b.phase then 1 else 0) + 2 ^ 33 * b.state.toNat + 2 ^ 40 * b.err.toNat

/-- The 32 bytes of the object's record (R67). -/
def Barrier.bytes (b : Barrier) : List Byte := toBytes 8 b.pend.toNat ++ toBytes 8 b.word ++ toBytes 16 0

/-- An object from the bytes of its record (R67). -/
def Barrier.ofRecord (bs : List Byte) : Barrier :=
  let w := fieldAt bs 8 8
  { pend := BitVec.ofNat 64 (fieldAt bs 0 8), err := BitVec.ofNat 8 (natBits w 40 8), state := BitVec.ofNat 2 (natBits w 33 2),
    phase := natBit w 32, arrived := natBits w 16 14, expect := natBits w 0 14 }

/-- The address of an object's record in its team's image (R63). -/
def Team.barrierAddr (t : Team) (n : Nat) : Nat := t.imgBase + 0x400 + 32 * n

/-- b[n] of team k (R57): in its barrier file, or in its image while that is clean (R69, R276). -/
def State.barrier (s : State) (k n : Nat) : Barrier :=
  let t := s.team (s.barrierOwner k n)
  if t.clean then Barrier.ofRecord (s.mem.read (t.barrierAddr n) 32) else Tab.get Barrier.empty t.b n

/-- b[n] of team k written; the record of a team that is off its core is in its image (R276). -/
def State.setBarrier (s : State) (k n : Nat) (x : Barrier) : State :=
  let o := s.barrierOwner k n
  let t := s.team o
  let s := s.setTeam o { t with b := Tab.set t.b n x }
  if t.clean || decide (t.state = .away) then s.writeFor t.vmid (t.barrierAddr n) x.bytes else s

/-! ### Time -/

/-- The teams of a command's grid that receive its CPYM (R240). -/
def State.receivers (s : State) (k : Nat) (d : List Byte) : List Nat :=
  let t := s.team k
  let tbase := fieldAt d 0x38 4
  let mask := fieldAt d 0x30 8
  (s.teams.filter (fun c => c.2.grid == t.grid && decide (tbase ≤ c.2.teamId.toNat)
    && decide (c.2.teamId.toNat < tbase + 64) && natBit mask (c.2.teamId.toNat - tbase))).map Prod.fst

/-- An accepted engine command that has not completed: its team, its function, its descriptor where that has been read, and
its completion word, none where an unread descriptor holds it (R210). -/
structure Posted where
  team : Nat
  fn : Nat
  desc : Option (List Byte)
  cword : Option DWord
  deriving DecidableEq, Repr

/-- The completion word of a command, where it is known (R208, R210). -/
def cwordOf (coll : Option Nat) (desc : Option (List Byte)) (cw : DWord) : Option DWord :=
  if coll.isSome && desc.isNone then none else some cw

/-- The accepted commands of the matrix engines that have not completed: those in their tables, and those that their teams
keep while they have not re-entered them (R230, R302). -/
def State.postedMatrix (s : State) : List Posted :=
  s.clusters.flatMap (fun c => c.2.matrix.table.map (fun r =>
      { team := r.2.team, fn := r.2.fn, desc := r.2.desc, cword := cwordOf r.2.coll r.2.desc r.2.cword }))
    ++ s.teams.flatMap (fun t => (t.2.susp.filter (fun r => r.matrix)).map (fun r =>
      { team := t.1, fn := r.fn, desc := r.desc, cword := cwordOf r.coll r.desc r.cword }))

/-- The same of the copy engines and the digest paths (R247, R302). -/
def State.postedCopies (s : State) : List Posted :=
  s.clusters.flatMap (fun c => c.2.copy.table.map (fun r =>
      { team := r.2.team, fn := r.2.fn, desc := r.2.desc, cword := some r.2.cword }))
    ++ s.teams.flatMap (fun t => (t.2.susp.filter (fun r => !r.matrix)).map (fun r =>
      { team := t.1, fn := r.fn, desc := r.desc, cword := some r.cword }))

/-- Does a command count as one of team k's for its watch counters (R295)? A CPYM that counts bytes (BYT, R206, R243) counts for
its receivers from its acceptance (R470), and for its whole grid while its descriptor cannot be read.
DESIGN CHOICE: assumption 13. -/
def State.watchedBy (s : State) (k : Nat) (r : Posted) : Bool :=
  r.team == k || (r.fn == 9 && (r.cword.any (fun c => c.getLsbD 5)) && (match r.desc with
    | some d => (s.receivers r.team d).contains k
    | none => (s.team r.team).grid == (s.team k).grid))

/-- Has an engine command of a team whose completion word names object b yet to complete (R295)? One whose completion word cannot
be read yet may name any object, and counts as naming each. DESIGN CHOICE: assumption 13. -/
def State.commandNames (s : State) (k b : Nat) : Bool :=
  let names := fun (r : Posted) => match r.cword with
    | some c => c.toNat % 16 == b
    | none => true
  s.postedMatrix.any (fun r => r.team == k && names r) || s.postedCopies.any (fun r => names r && s.watchedBy k r)

/-- The threads held in a team's gather. -/
def Team.gathered (t : Team) : List Nat :=
  (t.threads.filter (fun x => match x.2.loc with
    | .held (.gather _) _ => true
    | _ => false)).map Prod.fst

/-- The gather is complete (R298): every real thread that has not exited is held in it. -/
def Team.gatherComplete (t : Team) : Bool :=
  let g := t.gathered
  t.call.isNone && (g.any (fun j => !t.isPawn j))
    && t.threads.all (fun x => t.isPawn x.1 || g.contains x.1 || (match x.2.loc with
      | .exited | .vacant => true
      | _ => false))

/-- Is a thread in a watched wait whose counter advances (R295)? -/
def State.watching (s : State) (k tid : Nat) : Bool :=
  let t := s.team k
  t.isResident && t.btimeout != 0 && !t.isPawn tid && (match (t.thread tid).loc with
    | .held (.barrier b _ _) _ => !s.commandNames k b
    | .held (.gather _) _ => !t.gatherComplete
    | _ => false)

/-- The threads of a team whose watch counters advance, with what each still needs to reach BTIMEOUT (R295).
DEDUCED: assumption 82. -/
def State.watchLeft (s : State) (k : Nat) : List (Nat × Nat) :=
  let t := s.team k
  (t.threads.filter (fun x => s.watching k x.1)).map (fun x => (t.btimeout.toNat - x.2.watch, x.1))

/-- The cycles until the watchdog of a team fires (R295). -/
def State.fuse (s : State) (k : Nat) : Option Nat := minBy id ((s.watchLeft k).map Prod.fst)

/-- The watch counters of a core's teams after n cc (R295). Those of a team stop in the cc in which the first of them reaches
BTIMEOUT: its watchdog fires there, on behalf of the threads that reach it in that cc (R464). DEDUCED: assumption 82. -/
def State.watchTime (s : State) (c n : Nat) : State :=
  { s with teams := s.teams.mapVal (fun k t =>
      if t.onCore = some c then
        let n := min n ((s.fuse k).getD n)
        { t with threads := t.threads.mapVal (fun j x => if s.watching k j then { x with watch := x.watch + n } else x) }
      else t) }

/-- The cycles that a core's entries have spent without a pass of their team, after n cc (R37). DEDUCED: assumption 46. -/
def State.idleTime (s : State) (c n : Nat) : State :=
  if n == 0 then s else
  let core := s.core c
  let up := fun (e : Entry) => if core.passes.any (fun p => p.team == e.team) then e else { e with idle := e.idle + n }
  { s.setCore c { core with table := core.table.map up } with
    teams := s.teams.mapVal (fun _ t => if t.onCore = some c then { t with spill := t.spill.map up } else t) }

/-- n cc of a core elapse for what counts them (R37, R295). -/
def State.elapse (s : State) (c n : Nat) : State := (s.watchTime c n).idleTime c n

/-- The cycles of the partition's clock that have elapsed since partition start, each at the code of its time (R8, R18). -/
def State.ccNow (s : State) : Nat := s.part.ccs + (s.part.wall - s.part.ccAt) / Config.unitsPerCc s.part.fcode

/-- The wall time at which the partition's clock reaches a cycle, at the present code (R8). -/
def State.wallOf (s : State) (cc : Nat) : Nat := s.part.ccAt + (cc - s.part.ccs) * Config.unitsPerCc s.part.fcode

/-- A cycle of a core's clock that has elapsed brings the partition's wall time up to it (R8, R376).
DESIGN CHOICE: assumptions 7, 79. -/
def State.tickTo (s : State) (c cc : Nat) : State :=
  let s := s.elapse c (cc - (s.core c).cc)
  let k := s.core c
  let w := k.wall + (cc - k.cc) * Config.unitsPerCc s.part.fcode
  let s := s.setCore c { k with cc := max cc k.cc, wall := w }
  { s with part := { s.part with wall := max w s.part.wall } }

/-- The cycles by which a core's clock lags the partition's wall time. -/
def State.lag (s : State) (c : Nat) : Nat :=
  let u := Config.unitsPerCc s.part.fcode
  (s.part.wall - (s.core c).wall + u - 1) / u

/-- A core whose clock lags the partition's wall time counts the cycles it idled (R60). DESIGN CHOICE: assumption 7. -/
def State.syncCore (s : State) (c : Nat) : State :=
  let u := Config.unitsPerCc s.part.fcode
  let n := s.lag c
  let s := s.elapse c n
  let k := s.core c
  s.setCore c { k with cc := k.cc + n, wall := k.wall + n * u }

/-! ### Rings and interrupts (R308) -/

/-- Is LOG2N in range (R308)? -/
def Ring.configured (r : Ring) : Bool := decide (2 ≤ r.log2n) && decide (r.log2n ≤ 20)

/-- The ring is full (R308). -/
def Ring.full (r : Ring) : Bool := (r.tail - r.head).toNat == 2 ^ r.log2n

/-- A record can be written now (R174, R308). -/
def Ring.room (r : Ring) : Bool := r.configured && !r.full

/-- The physical address of the next record (R308). DEDUCED: assumption 71. -/
def Ring.slotAt (r : Ring) (size : Nat) : Nat := r.base.toNat + size * (r.tail.toNat % 2 ^ r.log2n)

/-- A record written at the tail (R308). -/
def Ring.emit (r : Ring) (m : Memory) (rec : List Byte) : Ring × Memory :=
  ({ r with tail := r.tail + 1 }, m.write (r.slotAt rec.length) rec)

/-- A record that waits when the ring has no room (R174): fault, service and error queues. -/
def Ring.push (r : Ring) (m : Memory) (rec : List Byte) : Ring × Memory × Bool :=
  if r.room && r.pending.isEmpty then
    let (r', m') := r.emit m rec
    (r', m', r.ie)
  else ({ r with pending := r.pending ++ [rec] }, m, false)

/-- A record that is dropped when the ring has no room (R297, R392): kill log and program log. -/
def Ring.pushOrDrop (r : Ring) (m : Memory) (rec : List Byte) : Ring × Memory × Bool :=
  if r.room then
    let (r', m') := r.emit m rec
    (r', m', true)
  else ({ r with ovf := r.ovf + 1 }, m, false)

/-- The pending records that fit, written in order (R174). -/
def Ring.drain (r : Ring) (m : Memory) : List (List Byte) → Ring × Memory × Bool
  | [] => ({ r with pending := [] }, m, false)
  | rec :: rest =>
    if r.room then
      let (r', m') := r.emit m rec
      let (r2, m2, _) := Ring.drain r' m' rest
      (r2, m2, r.ie)
    else ({ r with pending := rec :: rest }, m, false)

/-- An interrupt raised at the partition's harts. -/
def State.raise (s : State) (i : Irq) : State := s.setPart { s.part with irqs := s.part.irqs ++ [i] }

/-- The interrupt raised when a condition holds. -/
def State.raiseIf (s : State) (b : Bool) (i : Irq) : State := if b then s.raise i else s

/-! ### Block-table entries (R29 to R32) -/

/-- The threads that wait at an address (R29). -/
def Team.waiters (t : Team) (addr : DWord) : List Nat :=
  (t.threads.filter (fun c => decide (c.2.loc = .waits addr))).map Prod.fst

/-- A thread joins the entry of its team at an address, or its spill record there; a new entry is made when there is
room for it in the block table, else a new spill record (R30, R32). A team off its core has a spill list only (R33).
An entry made after a blocking instruction carries its enclosing header (R46). DEDUCED: assumption 24. -/
def State.join (s : State) (k tid : Nat) (addr : DWord) (mid : Bool) (encl : Option (DWord × Word) := none) : State :=
  let s := s.updThread k tid (fun x => { x with loc := .waits addr })
  let t := s.team k
  let inSpill := t.spill.any (fun e => e.addr == addr)
  match t.state with
  | .resident c _ =>
    let core := s.core c
    if core.table.any (fun e => e.team == k && e.addr == addr) || inSpill then s else
    let e : Entry := { team := k, addr := addr, mid := mid, encl := encl, age := 0, idle := 0, born := core.seq, ready := none }
    if core.table.length < Config.blockEntries then
      s.setCore c { core with table := core.table ++ [e], seq := core.seq + 1 }
    else
      (s.setCore c { core with seq := core.seq + 1 }).setTeam k { t with spill := t.spill ++ [e] }
  | _ =>
    if inSpill then s else
    s.setTeam k { t with spill := t.spill ++
      [{ team := k, addr := addr, mid := mid, encl := encl, age := 0, idle := 0, born := 0, ready := none }] }

/-- The oldest spill record among the resident teams of a core (R32): the first created. R32 does not say whether its age or its
creation makes a record the oldest. DESIGN CHOICE: assumption 99. -/
def State.oldestSpill (s : State) (c : Nat) : Option Entry :=
  minBy Entry.born ((s.teams.filter (fun x => decide (x.2.onCore = some c) && x.2.isResident)).flatMap
    (fun x => x.2.spill))

/-- A freed table entry is refilled from the oldest spill record; it keeps its age (R32). -/
def State.refillOne (s : State) (c : Nat) : State :=
  let core := s.core c
  if core.table.length < Config.blockEntries then
    match s.oldestSpill c with
    | none => s
    | some e =>
      (s.setCore c { core with table := core.table ++ [e] }).updTeam e.team
        (fun t => { t with spill := t.spill.filter (fun x => x.addr != e.addr) })
  else s

/-- Refills until the table is full or no spill record is left, at most n of them. -/
def State.refill (s : State) (c : Nat) : Nat → State
  | 0 => s
  | n + 1 => (s.refillOne c).refill c n

/-- The entries and spill records of a team at which no thread waits are freed, and freed entries refilled (R29, R32). -/
def State.sweep (s : State) (c k : Nat) : State :=
  let t := s.team k
  let keep := fun (e : Entry) => e.team != k || t.threads.any (fun x => decide (x.2.loc = .waits e.addr))
  let core := s.core c
  let table := core.table.filter keep
  let s := (s.setCore c { core with table := table }).setTeam k { t with spill := t.spill.filter keep }
  s.refill c (core.table.length - table.length)

/-- A thread leaves its pass: its slot in the group stays empty (R46, R47). -/
def State.leavePass (s : State) (k tid : Nat) : State :=
  match (s.team k).onCore with
  | none => s
  | some c =>
    let out := fun (p : Pass) =>
      if p.team == k then { p with groups := p.groups.map (fun g => g.filter (· != tid)) } else p
    (s.updCore c (fun core => { core with passes := core.passes.map out, ended := core.ended.map out })).updTeam k
      (fun t => { t with sel := t.sel.map out })

/-! ### Barrier objects and error phases (R67, R227, R351) -/

/-- The completion step of R351. -/
def Barrier.complete (b : Barrier) : Barrier :=
  if b.state = 1 ∧ b.arrived = b.expect ∧ b.pend = 0 then { b with phase := !b.phase, arrived := 0 } else b

/-- At a boundary (R351). -/
def Barrier.atBoundary (b : Barrier) : Bool := b.arrived == 0 && b.pend == 0

/-- An arrival: discarded unless the object is open and below EXPECT (R351). -/
def Barrier.arrive (b : Barrier) : Barrier :=
  if b.state = 1 ∧ b.arrived ≠ b.expect then { b with arrived := b.arrived + 1 }.complete else b

/-- A change of PEND by an addition or a byte count: discarded unless the object is open (R351, R358). -/
def Barrier.addPend (b : Barrier) (x : DWord) : Barrier :=
  if b.state = 1 then { b with pend := b.pend + x }.complete else b

/-- The error phase (R227): the first code stays. -/
def Barrier.fail (b : Barrier) (code : BitVec 8) : Barrier :=
  if b.state = 2 then b
  else if b.state = 0 then { Barrier.empty with err := code, state := 2 }
  else { b with err := code, state := 2 }

/-- The threads held in BWAIT on object n of team k, of every team that shares it. -/
def State.barrierWaiters (s : State) (k n : Nat) : List (Nat × Nat) :=
  let o := s.barrierOwner k n
  let teams := if decide (12 ≤ n) && decide (2 ≤ (s.team k).leagueSize) then s.league k else [k]
  (teams.filter (fun j => s.barrierOwner j n == o)).flatMap (fun j =>
    ((s.team j).threads.filter (fun c => match c.2.loc with
      | .held (.barrier b _ _) _ => b == n
      | _ => false)).map (fun c => (j, c.1)))

/-! ### Traps (R280 to R282), and taking them -/

/-- What a trap leaves in the thread (R281). -/
structure TrapInfo where
  cause : BitVec 8
  info0 : DWord
  info1 : DWord
  pc : DWord
  deriving DecidableEq, Repr

/-- The causes of R281 by name. -/
def causeIllegalOp : BitVec 8 := 0x01
def causeIllegalRegion : BitVec 8 := 0x02
def causeWaitShort : BitVec 8 := 0x03
def causeRegBounds : BitVec 8 := 0x04
def causeMisaligned : BitVec 8 := 0x05
def causePageFault : BitVec 8 := 0x06
def causeAccess : BitVec 8 := 0x07
def causeTileHandle : BitVec 8 := 0x08
def causePeerAbsent : BitVec 8 := 0x09
def causeMwaitTimeout : BitVec 8 := 0x0A
def causeStalemate : BitVec 8 := 0x0B
def causeRfUe : BitVec 8 := 0x0C
def causeMemUe : BitVec 8 := 0x0D
def causeScopeDenied : BitVec 8 := 0x0E
def causeEngineError : BitVec 8 := 0x0F
def causeUserTrap : BitVec 8 := 0x10
def causeBrk : BitVec 8 := 0x11
def causeQueueFull : BitVec 8 := 0x12
def causeConvergence : BitVec 8 := 0x14
def causeLaneMap : BitVec 8 := 0x15

/-- Error-phase codes of R227. -/
def errTranslation : BitVec 8 := 0x01
def errAccess : BitVec 8 := 0x02
def errPoison : BitVec 8 := 0x03
def errPromotionFull : BitVec 8 := 0x04
def errBadDescriptor : BitVec 8 := 0x05
def errHandle : BitVec 8 := 0x06
def errAborted : BitVec 8 := 0x07

/-- A call of `trapThread`: the state, the team, the thread and what the trap leaves. -/
abbrev Trapper := State → Nat → Nat → TrapInfo → State

/-- The watch counters of the threads held in a team's gather are reset (R295). -/
def Team.resetGather (t : Team) : Team :=
  { t with threads := t.threads.mapVal (fun _ x => match x.loc with
      | .held (.gather _) _ => { x with watch := 0 }
      | _ => x) }

/-- The groups to which the instruction that is issuing has not issued yet: none between two instructions.
DEDUCED: assumption 42. -/
def Pass.later (p : Pass) : List (List Nat) :=
  if p.issuing then p.groups.drop (p.k + 1) else if p.k == 0 then [] else p.groups.drop p.k

/-- The threads of the active pass of a team to which the issuing instruction has not issued yet (R28, R296).
DEDUCED: assumption 42. -/
def State.laterGroups (s : State) (k : Nat) : List Nat :=
  match (s.team k).onCore with
  | none => []
  | some c => ((s.core c).passes.filter (fun p => p.team == k)).flatMap (fun p => p.later.flatten)

/-- Has no real thread of a thread's quad still to exit (R28)? -/
def Team.quadGone (t : Team) (tid : Nat) : Bool :=
  (upto (4 * (tid / 4)) 4).all (fun j => t.isPawn j || decide ((t.thread j).loc = .exited))

/-- A thread or pawn leaves its pass and exits (R48). -/
def State.endThread (s : State) (k tid : Nat) : State :=
  (s.leavePass k tid).updThread k tid (fun x => { x with loc := .exited, mon := none })

/-- A real thread exits; the pawns of its quad exit with the quad's last real thread, but one to which the issuing
instruction is still to issue, which exits after it (R28, R48). Entries at which no thread is left are freed (R29). -/
def State.exitThread (s : State) (k tid : Nat) : State :=
  let s := s.endThread k tid
  let t := s.team k
  let late := s.laterGroups k
  let pawns := (upto (4 * (tid / 4)) 4).filter (fun j => t.isPawn j && !late.contains j)
  let s := if t.quadGone tid then pawns.foldl (fun s j => s.endThread k j) s else s
  let s := s.updTeam k Team.resetGather
  match t.onCore with
  | none => s
  | some c => s.sweep c k

/-- A pawn becomes dormant (R27, R28); one that has exited with its quad stays exited. -/
def State.dormant (s : State) (k tid : Nat) : State :=
  (s.leavePass k tid).updThread k tid (fun x => { x with loc := if x.loc = .exited then .exited else .dormant })

/-- Bits 56:0 sign-extended: bits 63:57 all equal bit 56 (R147). -/
def canonical (a : DWord) : Bool := a.extractLsb' 56 8 == 0 || a.extractLsb' 56 8 == 0xFF

/-- LEN of a header (R121). -/
def hdrLen (w0 : Word) : Nat := (w0.extractLsb' 24 8).toNat

/-- The address after a block (R30, R114). -/
def hdrFall (hdr : DWord) (w0 : Word) : DWord := hdr + BitVec.ofNat 64 (4 + 2 * hdrLen w0)

/-- The target of a SPLIT or a CALL (R30). -/
def hdrTarget (hdr : DWord) (w1 : Word) : DWord := hdr + ((w1.extractLsb' 11 21).signExtend 64 <<< 1)

/-- What successor evaluation yields for a thread (R30, R282). -/
inductive Succ where
  | goto (a : DWord)
  | exit
  | trap (i : TrapInfo)
  deriving DecidableEq, Repr

/-- RF_UE at successor evaluation: the slot and the thread (R86, R282). -/
def succRfUe (hdr : DWord) (slot tid : Nat) : Succ :=
  .trap { cause := causeRfUe, info0 := BitVec.ofNat 64 (slot + 2 ^ 16 * tid), info1 := 0, pc := hdr }

/-- A successor address, checked (R30). -/
def succGoto (hdr a : DWord) : Succ :=
  if a.toNat % 4 == 0 then .goto a
  else .trap { cause := causeMisaligned, info0 := a, info1 := 0, pc := hdr }

/-- The successor of a block for a thread, and v62:v63 as a CALL leaves them (R30). -/
def Team.successor (t : Team) (tid : Nat) (hdr : DWord) (w0 w1 : Word) : Succ × Thread :=
  let x := t.thread tid
  let pairAt := fun (n : Nat) =>
    if x.bad.contains n then succRfUe hdr n tid
    else if x.bad.contains (n + 1) then succRfUe hdr (n + 1) tid
    else succGoto hdr (x.v64 n)
  match (w1.extractLsb' 0 3).toNat with
  | 0 => (succGoto hdr (hdrFall hdr w0), x)
  | 1 =>
    if (w1.extractLsb' 3 2) ≠ 0 ∧ x.bad.contains slotP then (succRfUe hdr slotP tid, x) else
    let c := xor (x.pget (w1.extractLsb' 3 2).toNat) (w1.getLsbD 5)
    (succGoto hdr (if c then hdrTarget hdr w1 else hdrFall hdr w0), x)
  | 2 => (succGoto hdr (hdrTarget hdr w1), x.v64set 62 (hdrFall hdr w0))
  | 3 => (pairAt 62, x)
  | 4 =>
    let n := (w1.extractLsb' 6 5).toNat
    if t.spoison (t.gangOf tid) n then (succRfUe hdr 127 tid, x)
    else (succGoto hdr (t.sget (t.gangOf tid) n), x)
  | 5 => (.exit, x)
  | 6 => (pairAt (2 * (w1.extractLsb' 6 5).toNat), x)
  | _ => (.trap { cause := causeIllegalOp, info0 := w1.zeroExtend 64, info1 := 0, pc := hdr }, x)

/-- Is the blocking instruction an irrevocable one (R285)? -/
def Hold.irrevocable (h : Hold) : Bool :=
  match h with
  | .push _ | .gather _ | .call _ => true
  | .finished _ _ i => i
  | _ => false

/-- What is left of the pass of a thread whose blocking instruction ended the body: its successor evaluation (R46). -/
def Pass.after (k tid : Nat) (r : Resume) : Pass :=
  { team := k, addr := r.pc, mid := true, hdr := r.hdr, w0 := r.w0, w1 := r.w1, body := [], groups := [[tid]], off := 0, k := 0,
    fresh := false, start := 0, wprev := 0, prev := [], cur := [], issuing := false, wait := none, stopped := false, blocked := false, floor := 0 }

/-- A thread whose blocking instruction ended the body goes to successor evaluation, which waits for its results and its lines
(R30, R46, R73), with the other threads that the same instruction held. -/
def State.toSuccessor (s : State) (k tid : Nat) (r : Resume) : State :=
  match (s.team k).onCore with
  | none => s
  | some c => s.updCore c (fun core =>
    let same := fun (p : Pass) => p.team == k && p.addr == r.pc && p.hdr == r.hdr && p.mid && p.body.isEmpty
    if core.ended.any same then
      { core with ended := core.ended.map (fun p => if same p then { p with groups := p.groups.map (fun g => setIns g tid) } else p) }
    else { core with ended := core.ended ++ [Pass.after k tid r] })

/-- A held instruction completes for its thread: the region entry is set and the thread joins its resume entry, or goes
to successor evaluation, where the successor becomes its region entry (R46, R283). DEDUCED: assumption 45. -/
def State.resume (s : State) (k tid : Nat) : State :=
  match ((s.team k).thread tid).loc with
  | .held h r =>
    match r.next with
    | some a =>
      (s.updThread k tid (fun x =>
        { x with watch := 0, irrev := h.irrevocable, trapPc := if x.handler then x.trapPc else a })).join k tid a true
          (some (r.hdr, r.w0))
    | none => (s.updThread k tid (fun x => { x with watch := 0, irrev := true, loc := .pass })).toSuccessor k tid r
  | _ => s

/-- The address of the instruction a thread is held in. -/
def Thread.heldAt (x : Thread) : DWord :=
  match x.loc with
  | .held _ r => r.pc
  | _ => 0

/-- An error phase at object n of team k: every thread held in BWAIT on it traps ENGINE_ERROR, pawns complete (R227,
R366). Those of a team off its core do so at its next residency (R277). -/
def State.phaseErrorWith (tr : Trapper) (s : State) (k n : Nat) (code : BitVec 8) : State :=
  let b := s.barrier k n
  if b.state = 2 then s else
  let b' := b.fail code
  let s := s.setBarrier k n b'
  (s.barrierWaiters k n).foldl (fun s c =>
    if (s.team c.1).state = .away then s.updTeam c.1 (fun t => { t with bindable := true })
    else if (s.team c.1).isPawn c.2 then s.resume c.1 c.2
    else tr s c.1 c.2
      { cause := causeEngineError, info0 := BitVec.ofNat 64 (b'.err.toNat + 2 ^ 8 * n), info1 := b'.pend,
        pc := ((s.team c.1).thread c.2).heldAt }) s

/-- The commands of a team in a command table. -/
def cmdsOf (table : Tab CopyCmd) (k : Nat) : List (Nat × CopyCmd) := table.filter (fun c => c.2.team == k)

/-- The team whose tile a copy operand names (R235): the poster, or its league's member at CORE unless R166 makes it
absent. -/
def State.operandTeam (s : State) (k : Nat) (op : List Byte) : Option Nat :=
  let peer := fieldAt op 0xA 1
  if peer < 128 then some k
  else if (s.team k).leagueSize < 2 then none
  else (s.league k).find? (fun j => (s.team j).leaguePos == peer % 4 && decide ((s.team j).state ≠ .retired) && !(s.team j).retiring)

/-- The code of a level (R160). -/
def levelCode : Level → Nat
  | .scr => 0
  | .ring => 1
  | .gwin => 2

/-- The code of a ring slot's state (R164). -/
def slotCode : SlotState → Nat
  | .free => 0
  | .reserved => 1
  | .filled => 2
  | .taken => 3

/-- A tile handle's record (R159). -/
def Handle.bytes (h : Handle) : List Byte :=
  let ctl := levelCode h.level + 4 + (if h.wide then 8 else 0)
  let data := match h.level with
    | .gwin => toBytes 4 h.rstride.toNat ++ toBytes 4 h.cstride.toNat ++ toBytes 8 0
    | .ring => toBytes 16 (h.slots.foldl (fun a s => a + slotCode s.2 * 4 ^ s.1) 0)
    | .scr => toBytes 16 0
  toBytes 8 h.base.toNat ++ toBytes 2 h.rows ++ toBytes 2 h.cols ++ toBytes 1 ctl ++ toBytes 1 h.phead ++ toBytes 1 h.chead
    ++ toBytes 1 0 ++ data

/-- The address of a handle's record in its team's image (R63). -/
def Team.handleAddr (t : Team) (n : Nat) : Nat := t.imgBase + 0xC00 + 32 * n

/-- A ring slot of a copy operand takes a state (R239); the handle record of a team that is off its core is in its image. -/
def State.operandSlot (s : State) (k : Nat) (op : List Byte) (i : Nat) (st : SlotState) : State :=
  match s.operandTeam k op with
  | none => s
  | some j =>
    let t := s.team j
    let n := fieldAt op 9 1 % 32
    match t.h.find? n with
    | none => s
    | some h =>
      let h := { h with slots := Tab.set h.slots i st }
      let s := s.setTeam j { t with h := t.h.set n h }
      if t.state = .away then s.writeFor t.vmid (t.handleAddr n) h.bytes else s

/-- The ring slots that a command holds when it ends in an error phase (R239): a reserved one becomes FILLED, a taken one
FREE. -/
def State.freeSlots (s : State) (k : Nat) (d : List Byte) (src dst : Option Nat) : State :=
  let s := match src with
    | some i => s.operandSlot k ((d.drop 0x10).take 16) i .free
    | none => s
  match dst with
  | some i => s.operandSlot k ((d.drop 0x20).take 16) i .filled
  | none => s
def State.endSlots (s : State) (r : CopyCmd) : State := s.freeSlots r.team (r.desc.getD []) r.srcSlot r.dstSlot

/-- A command of a team ends in ABORTED at its poster's object and, for a CPYM, at every receiver's (R227, R245, R296). -/
def State.abortAt (tr : Trapper) (s : State) (k fn n : Nat) (d : List Byte) : State :=
  let s := s.phaseErrorWith tr k n errAborted
  if fn == 0x09 then (s.receivers k d).foldl (fun s j => s.phaseErrorWith tr j n errAborted) s else s

/-- A matrix request of a team ends in ABORTED (R227, R296). For one whose completion word has not been read the spec names no
place: the model's is the convergence register that posted it, as R208 has it for the errors found before that word is
read. DESIGN CHOICE: assumption 102. -/
def State.abortReq (tr : Trapper) (s : State) (k : Nat) (coll : Option Nat) (desc : Option (List Byte)) (cw : DWord) : State :=
  match coll, desc with
  | some n, none => s.updTeam k (fun t =>
      { t with k := Tab.set t.k n { Tab.get Conv.empty t.k n with err := true, errCode := errAborted } })
  | _, _ => s.phaseErrorWith tr k (cw.toNat % 16) errAborted

/-- Does a granted request hold the slot: the load slot, or the array slot (R213)? -/
def Matrix.slotBusy (m : Matrix) (load : Bool) : Bool :=
  m.table.any (fun e => decide (e.2.state = .granted) && (e.2.fn == 0x10) == load)

/-- A request has left its slot: where both are free, the ramp's idle time begins (R231). -/
def State.markIdle (s : State) (cl : Nat) : State :=
  let c := s.cluster cl
  if c.matrix.slotBusy true || c.matrix.slotBusy false then s
  else s.setCluster cl { c with matrix := { c.matrix with idleSince := s.part.wall } }

/-- Had a suspended request been granted (R229)? -/
def Susp.begun (r : Susp) : Bool := r.desc.isSome && (r.state == 2 || decide (0 < r.offset))

/-- The request of team k that a suspended command is, as of a cycle (R302). -/
def Susp.request (r : Susp) (k since : Nat) : MatReq :=
  { team := k, fn := r.fn, addr := r.addr, desc := r.desc, cword := r.cword, frm := r.frmp, coll := r.coll, seq := r.seq,
    since := since, state := .waiting, row := r.offset, pair := r.pair,
    swapped := r.swapped, flags := r.flags, shadowWait := none, fault := none, err := none, begun := r.begun }

/-- A request that had been granted ends in ABORTED: what it leaves (R228) is settled with the step. -/
def State.noteAborted (s : State) (cl : Nat) (r : MatReq) : State :=
  let c := s.cluster cl
  s.setCluster cl { c with matrix := { c.matrix with aborted := c.matrix.aborted ++ [r] } }

/-- A suspended command of a team ends in ABORTED (R227, R239, R296). -/
def State.abortSusp (tr : Trapper) (s : State) (k : Nat) (r : Susp) : State :=
  let d := r.desc.getD []
  if r.matrix then
    let s := match (s.team k).lastCore with
      | some c => if r.begun then s.noteAborted (coreCluster c) (r.request k 0) else s
      | none => s
    s.abortReq tr k r.coll r.desc r.cword
  else (s.freeSlots k d r.srcSlot r.dstSlot).abortAt tr k r.fn (r.cword.toNat % 16) d

/-- The engine commands of a team end in ABORTED (R227, R296): matrix requests, copies and digests. -/
def State.abortWith (tr : Trapper) (s : State) (k : Nat) : State :=
  let mats := s.clusters.flatMap (fun c => (c.2.matrix.table.filter (fun r => r.2.team == k)).map (fun r => (c.1, r)))
  let cps := s.clusters.flatMap (fun c => (cmdsOf c.2.copy.table k).map (fun r => (c.1, r)))
  let onPath := fun (d : Die) => match d.dgst with
    | some (cl, i) => cps.any (fun m => m.1 == cl && m.2.1 == i)
    | none => false
  let s := { s with dies := s.dies.mapVal (fun _ (d : Die) => if onPath d then { d with dgst := none } else d) }
  let s := mats.foldl (fun s m =>
    let cl := s.cluster m.1
    let s := s.setCluster m.1 { cl with matrix := { cl.matrix with table := cl.matrix.table.erase m.2.1 } }
    let s := if m.2.2.state = .granted then s.markIdle m.1 else s
    let s := if m.2.2.begun then s.noteAborted m.1 m.2.2 else s
    s.abortReq tr k m.2.2.coll m.2.2.desc m.2.2.cword) s
  cps.foldl (fun s m =>
    let cl := s.cluster m.1
    let s := (s.setCluster m.1 { cl with copy := { table := cl.copy.table.erase m.2.1 } }).endSlots m.2.2
    s.abortAt tr k m.2.2.fn (m.2.2.cword.toNat % 16) (m.2.2.desc.getD [])) s

/-- What a kill record reports (R297). -/
structure KillInfo where
  cause : BitVec 8
  /-- 0 trap without a handler, 1 trap in a handler, 2 stalemate, 3 request -/
  kind : Nat
  pc : DWord
  info0 : DWord
  info1 : DWord
  tid : Nat
  held : Nat
  other : Nat
  barWord : Nat
  pend : DWord
  deriving DecidableEq, Repr

/-- The 64 bytes of a kill record (R297). -/
def Team.killRecord (t : Team) (i : KillInfo) : List Byte :=
  let gone := ((upto 0 t.t).filter (fun j => decide ((t.thread j).loc = .exited))).length
  toBytes 8 t.ctxid.toNat ++ toBytes 4 t.teamId.toNat ++ toBytes 2 (t.launch + 64 * t.slice)
    ++ toBytes 1 i.cause.toNat ++ toBytes 1 i.kind ++ toBytes 8 i.pc.toNat ++ toBytes 8 i.info0.toNat
    ++ toBytes 8 i.info1.toNat ++ toBytes 2 i.tid ++ toBytes 2 i.held ++ toBytes 2 gone ++ toBytes 2 i.other
    ++ toBytes 8 i.barWord ++ toBytes 8 i.pend.toNat

/-- A kill record goes to the kill log, and the launch-error interrupt is raised (R296, R297). -/
def State.logKill (s : State) (k : Nat) (i : KillInfo) : State :=
  let t := s.team k
  let (r, m, _) := s.part.kl.pushOrDrop s.mem (t.killRecord i)
  ((s.setMem m).setPart { s.part with kl := r }).raise (.launchError t.slice t.launch)

/-- A context is killed (R296): no pass starts for it, its threads exit once the issuing instruction has completed for
every group, its commands end in ABORTED, and a kill record is written unless Castle scrubs. A context that is
killed or retired already is left alone. DEDUCED: assumption 42. -/
def State.killWith (tr : Trapper) (s : State) (k : Nat) (i : Option KillInfo) : State :=
  let t := s.team k
  let go := fun (st : TeamState) =>
    let s := match i with
      | some i => s.logKill k i
      | none => s
    let late := s.laterGroups k
    let t := s.team k
    let susp := t.susp
    let s := s.setTeam k { t with
      state := st, spill := [], sel := none, call := none, results := [], susp := [],
      k := t.k.map (fun c => if c.2.state = 2 then (c.1, Conv.empty) else c),
      threads := t.threads.mapVal (fun tid x =>
        if late.contains tid then x
        else if x.loc = .vacant then x else { x with loc := .exited, mon := none }) }
    let s := match t.onCore with
      | none => s
      | some c =>
        let stop : Pass → Pass := fun p => if p.team == k then
            { p with groups := p.groups.map (fun (g : List Nat) => g.filter (fun j => late.contains j)), wait := none } else p
        s.updCore c (fun core => { core with
          table := core.table.filter (fun e => e.team != k),
          ended := core.ended.filter (fun p => p.team != k),
          passes := core.passes.map stop })
    let s := match t.onCore with
      | none => s
      | some c => s.refill c Config.blockEntries
    let s := { s with slices := s.slices.mapVal (fun _ (sl : Slice) => { sl with queues := sl.queues.mapVal (fun _ (q : Queue) =>
      { q with pushes := q.pushes.filter (fun h => h.team != k), pops := q.pops.filter (fun h => h.team != k) }) }) }
    susp.foldl (fun s r => s.abortSusp tr k r) (s.abortWith tr k)
  match t.state with
  | .resident c sl => go (.killed c sl)
  | .away => go .away
  | _ => s

/-- A trap taken by a real thread (R280, R281, R289): STALEMATE, a trap in a handler and a trap without a handler kill
the context; otherwise the trap registers are written, the thread enters its handler and joins the entry at TRAPVEC.
A thread of a context that is being killed exits (R296).
The fuel bounds the contexts that one trap can kill through the objects that a league shares. -/
def trapFuel : Nat → Trapper
  | 0, s, _, _, _ => s
  | n + 1, s, k, tid, i =>
    let t := s.team k
    let x := t.thread tid
    let kill := fun (kind : Nat) =>
      s.killWith (trapFuel n) k (some
        { cause := i.cause, kind := kind, pc := i.pc, info0 := i.info0, info1 := i.info1, tid := tid, held := 0,
          other := 0, barWord := 0, pend := 0 })
    let dead := match t.state with
      | .killed _ _ => true
      | .retired => true
      | _ => false
    let gone := match x.loc with
      | .exited => true
      | .vacant => true
      | .dormant => true
      | _ => false
    if gone then s
    else if dead then s.exitThread k tid
    else if x.handler then kill 1
    else if t.trapVec = 0 then kill 0
    else
      let s := s.leavePass k tid
      let s := s.updThread k tid (fun x => { x with
        trapCause := i.cause, info0 := i.info0, info1 := i.info1, trapPc := i.pc, handler := true, watch := 0,
        irrev := false, mon := match x.loc with
          | .held (.monitor _ _) _ => none
          | _ => x.mon })
      s.join k tid t.trapVec false

/-- The operation of taking a trap (R280): a trap can kill each context once. DEDUCED: assumption 16. -/
def State.trapThread (s : State) (k tid : Nat) (i : TrapInfo) : State := trapFuel (s.teams.length + 1) s k tid i

/-- Successor evaluation of one thread (R30, R282, R283): it joins its successor's entry, exits, or traps; a pawn that
would trap, or whose successor is EXIT, becomes dormant (R27, R28). The region entry becomes the successor when the
thread completed an irrevocable instruction, or a blocking instruction that ended the body. A CALL writes v62:v63
before its target is checked. -/
def State.succeed (s : State) (k tid : Nat) (hdr : DWord) (w0 w1 : Word) : State :=
  let t := s.team k
  let pawn := t.isPawn tid
  match t.successor tid hdr w0 w1 with
  | (.goto a, x) =>
    let x := if x.irrev && !x.handler then { x with trapPc := a } else x
    (s.setTeam k (t.setThread tid { x with irrev := false })).join k tid a false
  | (.exit, _) => if pawn then s.dormant k tid else s.exitThread k tid
  | (.trap i, x) =>
    let s := s.setTeam k (t.setThread tid { x with irrev := false })
    if pawn then s.dormant k tid else s.trapThread k tid i

/-- An error phase at an object (R227). -/
def State.phaseError (s : State) (k n : Nat) (code : BitVec 8) : State :=
  s.phaseErrorWith State.trapThread k n code

/-- A context killed on request or by the watchdog (R295, R296, R311). -/
def State.kill (s : State) (k : Nat) (i : Option KillInfo) : State := s.killWith State.trapThread k i

/-- The L1 of the core of a team dropped by an acquire at a scope of CLUSTER or wider; one at GANG or TEAM leaves it as it is (R187),
whatever the thread has read before it. DESIGN CHOICE: assumption 114. -/
def State.acquire (s : State) (k : Nat) (sc : Scope) : State :=
  match sc, (s.team k).onCore with
  | .gang, _ => s
  | .team, _ => s
  | _, some c => s.updCore c (fun core => { core with l1 := [] })
  | _, none => s

/-- A thread of a core returns from an acquire of what other threads of the core have done: its later stores follow what the core
has on its way (R181, R183). -/
def State.followAll (s : State) (c k tid : Nat) : State :=
  let q := (s.core c).stq
  if q.isEmpty then s else
  s.updThread k tid (fun x => { x with after := q.foldl (fun m st => max m (st.seq + 1)) x.after })

/-- The threads held in BWAIT on an object whose phase has changed return with their acquire (R364); a team off its core becomes
bindable (R277), and its threads perform their BWAIT afresh at its next residency (R365). -/
def State.wakeBarrier (s : State) (k n : Nat) : State :=
  let b := s.barrier k n
  (s.barrierWaiters k n).foldl (fun s c =>
    match ((s.team c.1).thread c.2).loc with
    | .held (.barrier _ ph sc) _ =>
      if ph == b.phase then s
      else if (s.team c.1).state = .away then s.updTeam c.1 (fun t => { t with bindable := true })
      else
        let s := match (s.team c.1).onCore with
          | some n => s.followAll n c.1 c.2
          | none => s
        (s.acquire c.1 sc).resume c.1 c.2
    | _ => s) s

/-- An operation on a barrier object (R194, R351): the object, then the watch counters of its waiters reset (R295), then
the waiters of a phase that completed. -/
def State.updBarrier (s : State) (k n : Nat) (f : Barrier → Barrier) : State :=
  let b := s.barrier k n
  let b' := f b
  if b' = b then s else
  let s := s.setBarrier k n b'
  let s := (s.barrierWaiters k n).foldl (fun s c => s.updThread c.1 c.2 (fun x => { x with watch := 0 })) s
  if b'.phase != b.phase then s.wakeBarrier k n else s

/-- A thread is held in a blocking instruction (R46); one that has exited is not. -/
def State.hold (s : State) (k tid : Nat) (h : Hold) (r : Resume) : State :=
  (s.leavePass k tid).updThread k tid (fun x => { x with loc := if x.loc = .exited then .exited else .held h r, watch := 0 })

/-- The return from a user handler (R290): the thread leaves its pass, TRAPPC becomes its region entry, and it joins the
entry there; outside a handler it traps ILLEGAL_OP, and a TRAPPC that is odd or not canonical traps MISALIGNED. -/
def State.handlerReturn (s : State) (k tid : Nat) (pc : DWord) (word : Word) : State :=
  let x := (s.team k).thread tid
  if x.loc ≠ .pass then s
  else if !x.handler then
    s.trapThread k tid { cause := causeIllegalOp, info0 := word.zeroExtend 64, info1 := 0, pc := pc }
  else if x.trapPc.getLsbD 0 || !canonical x.trapPc then
    s.trapThread k tid { cause := causeMisaligned, info0 := x.trapPc, info1 := 0, pc := pc }
  else
    let s := s.leavePass k tid
    let s := s.updThread k tid (fun x => { x with handler := false })
    s.join k tid x.trapPc true

end Machine
end Sys2Proof
end

