-- ==== Sys2Proof/Machine/Float.lean ====
section
/-! DEFINITION. The IEEE 754-2019 formats FP32, FP64 and BF16 (R90 to R94): exact arithmetic on signed multiples of powers
of two, and one rounding. -/

namespace Sys2Proof.Machine

/-! ### Flags (R60, R92) -/

/-- FFLAGS bits (R60). -/
def flagNV : BitVec 5 := 0x10
def flagDZ : BitVec 5 := 0x08
def flagOF : BitVec 5 := 0x04
def flagUF : BitVec 5 := 0x02
def flagNX : BitVec 5 := 0x01

/-! ### Formats -/

/-- A binary format: precision with the hidden bit, bits of the exponent, bias. -/
structure FFmt where
  p : Nat
  eb : Nat
  bias : Nat
  deriving DecidableEq, Repr

def fmt32 : FFmt := { p := 24, eb := 8, bias := 127 }
def fmt64 : FFmt := { p := 53, eb := 11, bias := 1023 }
def fmtB16 : FFmt := { p := 8, eb := 8, bias := 127 }

/-- The code of +∞. -/
def FFmt.inf (f : FFmt) : Nat := (2 ^ f.eb - 1) * 2 ^ (f.p - 1)
/-- The canonical NaN (R91). -/
def FFmt.nan (f : FFmt) : Nat := f.inf + 2 ^ (f.p - 2)
/-- The weight of the sign bit. -/
def FFmt.signBit (f : FFmt) : Nat := 2 ^ (f.eb + f.p - 1)
/-- A magnitude's code with a sign. -/
def FFmt.signed (f : FFmt) (s : Bool) (c : Nat) : Nat := if s then f.signBit + c else c
/-- The exponent of the last place of the subnormals. -/
def FFmt.qmin (f : FFmt) : Int := 2 - (f.bias : Int) - f.p

/-- What a code stands for: (−1)^s · m · 2^e. -/
inductive FVal where
  | nan (signalling : Bool)
  | inf (s : Bool)
  | fin (s : Bool) (m : Nat) (e : Int)
  deriving DecidableEq, Repr

/-- A code read (R90: subnormals are kept). -/
def FFmt.unpack (f : FFmt) (c : Nat) : FVal :=
  let frac := c % 2 ^ (f.p - 1)
  let ex := c / 2 ^ (f.p - 1) % 2 ^ f.eb
  let s := c / f.signBit % 2 == 1
  if ex == 2 ^ f.eb - 1 then
    if frac == 0 then .inf s else .nan (frac < 2 ^ (f.p - 2))
  else if ex == 0 then .fin s frac f.qmin
  else .fin s (frac + 2 ^ (f.p - 1)) (f.qmin + (ex - 1 : Nat))

/-- Number of significant bits. -/
def bitLen (n : Nat) : Nat := if n == 0 then 0 else Nat.log2 n + 1

/-- Does the rounding of a magnitude go up (R90)? FRM 0 RNE, 1 RTZ, 2 RDN, 3 RUP (R60). -/
def roundsUp (frm : BitVec 2) (s odd : Bool) (rem half : Nat) : Bool :=
  match frm.toNat with
  | 0 => decide (half < rem) || (rem == half && odd)
  | 1 => false
  | 2 => s && rem != 0
  | _ => !s && rem != 0

/-- A magnitude m·2^e as a multiple of 2^q, rounded: the multiple and whether it is inexact. -/
def roundTo (frm : BitVec 2) (s : Bool) (m : Nat) (e q : Int) : Nat × Bool :=
  if q ≤ e then (m * 2 ^ (e - q).toNat, false)
  else
    let d := (q - e).toNat
    let h := m / 2 ^ d
    let rem := m % 2 ^ d
    if rem == 0 then (h, false)
    else (if roundsUp frm s (h % 2 == 1) (2 * rem) (2 ^ d) then h + 1 else h, true)

/-- Does an overflow give an infinity (IEEE 754-2019 7.4)? -/
def overflowsToInf (frm : BitVec 2) (s : Bool) : Bool :=
  match frm.toNat with
  | 0 => true
  | 1 => false
  | 2 => s
  | _ => !s

/-- An exact value (−1)^s·m·2^e rounded once to the format under FRM, with its flags (R90): tininess is detected after
rounding, and UF needs an inexact result. -/
def FFmt.round (f : FFmt) (frm : BitVec 2) (s : Bool) (m : Nat) (e : Int) : Nat × BitVec 5 :=
  if m == 0 then (f.signed s 0, 0) else
  let top : Int := e + bitLen m - 1
  let emin : Int := 1 - (f.bias : Int)
  let qn : Int := top - (f.p - 1 : Nat)
  let q : Int := if qn < f.qmin then f.qmin else qn
  let (h, inexact) := roundTo frm s m e q
  let tiny := decide (top < emin) && !(decide (top + 1 = emin) && (roundTo frm s m e qn).1 == 2 ^ f.p)
  let nx := if inexact then flagNX else 0
  let uf := if tiny && inexact then flagUF else 0
  -- h counts units of 2^q; a subnormal's code is h itself, and each binade above adds 2^(p−1)
  let code := (q - f.qmin).toNat * 2 ^ (f.p - 1) + h
  if f.inf ≤ code then
    (f.signed s (if overflowsToInf frm s then f.inf else f.inf - 1), flagOF ||| flagNX)
  else (f.signed s code, nx ||| uf)

/-- An exact value of Int times a power of two. -/
def FFmt.roundInt (f : FFmt) (frm : BitVec 2) (x : Int) (e : Int) (zeroSign : Bool) : Nat × BitVec 5 :=
  if x = 0 then (f.signed zeroSign 0, 0) else f.round frm (decide (x < 0)) x.natAbs e

/-- NV for signalling NaNs among values. -/
def nvOf (vs : List FVal) : BitVec 5 :=
  if vs.any (fun v => decide (v = .nan true)) then flagNV else 0

/-- Is one of the values a NaN? -/
def anyNan (vs : List FVal) : Bool :=
  vs.any (fun v => match v with
    | .nan _ => true
    | _ => false)

/-- A signed magnitude as an Int. -/
def sInt (s : Bool) (m : Nat) : Int := if s then -(m : Int) else m

/-- The exact sum of two signed magnitudes: an Int, its exponent, and the sign of an exact zero (IEEE 754-2019 6.3). -/
def addExact (frm : BitVec 2) (s1 : Bool) (m1 : Nat) (e1 : Int) (s2 : Bool) (m2 : Nat) (e2 : Int) : Int × Int × Bool :=
  let e := if e1 ≤ e2 then e1 else e2
  let x := sInt s1 (m1 * 2 ^ (e1 - e).toNat) + sInt s2 (m2 * 2 ^ (e2 - e).toNat)
  (x, e, if m1 == 0 && m2 == 0 && s1 == s2 then s1 else frm == 2)

/-- Addition of two values rounded once (R433). -/
def FFmt.addV (f : FFmt) (frm : BitVec 2) (a b : FVal) : Nat × BitVec 5 :=
  match a, b with
  | .nan _, _ => (f.nan, nvOf [a, b])
  | _, .nan _ => (f.nan, nvOf [a, b])
  | .inf s, .inf t => if s == t then (f.signed s f.inf, 0) else (f.nan, flagNV)
  | .inf s, .fin _ _ _ => (f.signed s f.inf, 0)
  | .fin _ _ _, .inf t => (f.signed t f.inf, 0)
  | .fin s1 m1 e1, .fin s2 m2 e2 =>
    let (x, e, z) := addExact frm s1 m1 e1 s2 m2 e2
    f.roundInt frm x e z

/-- A value with its sign inverted. -/
def FVal.neg : FVal → FVal
  | .nan q => .nan q
  | .inf s => .inf (!s)
  | .fin s m e => .fin (!s) m e

/-- The exact product, or none for 0·∞ (which is invalid); NaNs are the caller's. -/
def mulV (a b : FVal) : Option FVal :=
  match a, b with
  | .nan q, _ => some (.nan q)
  | _, .nan q => some (.nan q)
  | .inf s, .inf t => some (.inf (xor s t))
  | .inf s, .fin t m _ => if m == 0 then none else some (.inf (xor s t))
  | .fin t m _, .inf s => if m == 0 then none else some (.inf (xor s t))
  | .fin s1 m1 e1, .fin s2 m2 e2 => some (.fin (xor s1 s2) (m1 * m2) (e1 + e2))

/-- A value encoded, rounding a finite one. -/
def FFmt.ofV (f : FFmt) (frm : BitVec 2) (v : FVal) : Nat × BitVec 5 :=
  match v with
  | .nan q => (f.nan, if q then flagNV else 0)
  | .inf s => (f.signed s f.inf, 0)
  | .fin s m e => f.round frm s m e

/-- Addition, subtraction and multiplication (R433, R429, R438). -/
def FFmt.add (f : FFmt) (frm : BitVec 2) (a b : Nat) : Nat × BitVec 5 := f.addV frm (f.unpack a) (f.unpack b)
def FFmt.sub (f : FFmt) (frm : BitVec 2) (a b : Nat) : Nat × BitVec 5 := f.addV frm (f.unpack a) (f.unpack b).neg
def FFmt.mul (f : FFmt) (frm : BitVec 2) (a b : Nat) : Nat × BitVec 5 :=
  let x := f.unpack a
  let y := f.unpack b
  if anyNan [x, y] then (f.nan, nvOf [x, y]) else
  match mulV x y with
  | none => (f.nan, flagNV)
  | some v => f.ofV frm v

/-- a·b + c, or c − a·b when neg, rounded once (R436): an invalid product raises NV even when c is a quiet NaN. -/
def FFmt.fma (f : FFmt) (frm : BitVec 2) (neg : Bool) (a b c : Nat) : Nat × BitVec 5 :=
  let x := f.unpack a
  let y := f.unpack b
  let z := f.unpack c
  if anyNan [x, y] then (f.nan, nvOf [x, y, z]) else
  match mulV x y with
  | none => (f.nan, flagNV)
  | some v => f.addV frm (if neg then v.neg else v) z

/-- Integer square root: the largest r with r² ≤ n, by bits from 2^k down. -/
def isqrtFrom (n : Nat) : Nat → Nat → Nat
  | 0, r => if (r + 1) * (r + 1) ≤ n then r + 1 else r
  | k + 1, r => isqrtFrom n k (if (r + 2 ^ (k + 1)) * (r + 2 ^ (k + 1)) ≤ n then r + 2 ^ (k + 1) else r)

def isqrt (n : Nat) : Nat := isqrtFrom n (bitLen n / 2 + 1) 0

/-- m·2^e with an even exponent. -/
def evenExp (m : Nat) (e : Int) : Nat × Int := if e % 2 = 0 then (m, e) else (2 * m, e - 1)

/-- A root or quotient with a sticky last bit. -/
def sticky (q : Nat) (exact : Bool) : Nat := 2 * q + (if exact then 0 else 1)

/-- squareRoot (R446). -/
def FFmt.sqrt (f : FFmt) (frm : BitVec 2) (a : Nat) : Nat × BitVec 5 :=
  match f.unpack a with
  | .nan q => (f.nan, if q then flagNV else 0)
  | .inf s => if s then (f.nan, flagNV) else (f.inf, 0)
  | .fin s m e =>
    if m == 0 then (f.signed s 0, 0)
    else if s then (f.nan, flagNV)
    else
      let (m, e) := evenExp m e
      let n := m * 2 ^ (2 * (f.p + 4))
      let r := isqrt n
      f.round frm false (sticky r (r * r == n)) (e / 2 - (f.p + 4 : Nat) - 1)

/-- Division (R446). -/
def FFmt.div (f : FFmt) (frm : BitVec 2) (a b : Nat) : Nat × BitVec 5 :=
  let x := f.unpack a
  let y := f.unpack b
  match x, y with
  | .nan _, _ => (f.nan, nvOf [x, y])
  | _, .nan _ => (f.nan, nvOf [x, y])
  | .inf _, .inf _ => (f.nan, flagNV)
  | .inf s, .fin t _ _ => (f.signed (xor s t) f.inf, 0)
  | .fin s _ _, .inf t => (f.signed (xor s t) 0, 0)
  | .fin s m1 e1, .fin t m2 e2 =>
    if m2 == 0 then
      if m1 == 0 then (f.nan, flagNV) else (f.signed (xor s t) f.inf, flagDZ)
    else if m1 == 0 then (f.signed (xor s t) 0, 0)
    else
      let k := 2 * f.p + 4
      let n := m1 * 2 ^ k
      f.round frm (xor s t) (sticky (n / m2) (n % m2 == 0)) (e1 - e2 - (k : Nat) - 1)

/-! ### Comparison, minimum and maximum (R93, R132) -/

/-- The order of two values that are not NaN: a < b. -/
def FVal.lt (a b : FVal) : Bool :=
  match a, b with
  | .inf s, .inf t => s && !t
  | .inf s, .fin _ _ _ => s
  | .fin _ _ _, .inf t => !t
  | .fin s1 m1 e1, .fin s2 m2 e2 =>
    let e := if e1 ≤ e2 then e1 else e2
    decide (sInt s1 (m1 * 2 ^ (e1 - e).toNat) < sInt s2 (m2 * 2 ^ (e2 - e).toNat))
  | _, _ => false

/-- The sign of a value. -/
def FVal.sign : FVal → Bool
  | .nan _ => false
  | .inf s => s
  | .fin s _ _ => s

/-- A floating comparison and its flags (R132). -/
def FFmt.cmp (f : FFmt) (c : FCond) (a b : Nat) : Bool × BitVec 5 :=
  let x := f.unpack a
  let y := f.unpack b
  let un := anyNan [x, y]
  let nv := match c with
    | .lt | .le | .gt | .ge => if un then flagNV else 0
    | _ => nvOf [x, y]
  let r := match c with
    | .eq => !un && !x.lt y && !y.lt x
    | .ne => un || x.lt y || y.lt x
    | .lt => !un && x.lt y
    | .le => !un && !y.lt x
    | .gt => !un && y.lt x
    | .ge => !un && !x.lt y
    | .unord => un
    | .ord => !un
  (r, nv)

/-- minimumNumber and maximumNumber (R93): −0 is below +0. -/
def FFmt.minMax (f : FFmt) (max : Bool) (a b : Nat) : Nat × BitVec 5 :=
  let x := f.unpack a
  let y := f.unpack b
  let nv := nvOf [x, y]
  match x, y with
  | .nan _, .nan _ => (f.nan, nv)
  | .nan _, _ => (b, nv)
  | _, .nan _ => (a, nv)
  | _, _ =>
    let below := x.lt y || (!y.lt x && x.sign && !y.sign)
    (if below != max then a else b, nv)

/-! ### Conversions (R109, R451) -/

/-- An integer converted, rounded once (R109). -/
def FFmt.ofInt (f : FFmt) (frm : BitVec 2) (x : Int) : Nat × BitVec 5 := f.roundInt frm x 0 false

/-- A value converted to another format (R109). -/
def FFmt.convert (f g : FFmt) (frm : BitVec 2) (a : Nat) : Nat × BitVec 5 := g.ofV frm (f.unpack a)

/-- A finite value rounded to an integer, and whether it is inexact. -/
def roundToInt (frm : BitVec 2) (s : Bool) (m : Nat) (e : Int) : Int × Bool :=
  let (h, nx) := roundTo frm s m e 0
  (sInt s h, nx)

/-- An integer clamped to a range, with the flags of the conversion (R109): out of range saturates with NV alone. -/
def clampInt (lo hi x : Int) (nx : Bool) : Int × BitVec 5 :=
  if x < lo then (lo, flagNV) else if hi < x then (hi, flagNV) else (x, if nx then flagNX else 0)

/-- A value converted to an integer in a range, rounded once and saturated (R109). -/
def FFmt.toInt (f : FFmt) (frm : BitVec 2) (lo hi : Int) (a : Nat) : Int × BitVec 5 :=
  match f.unpack a with
  | .nan _ => (0, flagNV)
  | .inf s => (if s then lo else hi, flagNV)
  | .fin s m e =>
    let (x, nx) := roundToInt frm s m e
    clampInt lo hi x nx

/-- A value rounded to an integral value of its format (R451): zeros keep the sign, and NX is raised only when told. -/
def FFmt.rint (f : FFmt) (frm : BitVec 2) (raiseNx : Bool) (a : Nat) : Nat × BitVec 5 :=
  match f.unpack a with
  | .nan q => (f.nan, if q then flagNV else 0)
  | .inf _ => (a, 0)
  | .fin s m e =>
    let (h, nx) := roundTo frm s m e 0
    if !nx then (a, 0) else
    ((f.round 0 s h 0).1, if raiseNx then flagNX else 0)

/-! ### Dots (R103, R105, R431) -/

/-- The exact sum of finite terms, as an Int at the least exponent. -/
def sumExact (l : List (Int × Int)) : Int × Int :=
  let e := l.foldl (fun e t => if t.2 < e then t.2 else e) (0 : Int)
  (l.foldl (fun x t => x + t.1 * 2 ^ (t.2 - e).toNat) 0, e)

/-- The terms of finite products. -/
def FVal.term : FVal → Int × Int
  | .fin s m e => (sInt s m, e)
  | _ => (0, 0)

/-- Products of values, none for an invalid one. -/
def products (ab : List (FVal × FVal)) : List (Option FVal) := ab.map (fun p => mulV p.1 p.2)

/-- The sum of products of a BF16 block, formed exactly (R105), or a NaN with NV, or an infinity. -/
def dotSum (ab : List (FVal × FVal)) : FVal × BitVec 5 :=
  if ab.any (fun p => anyNan [p.1, p.2]) then (.nan false, flagNV) else
  let ps := products ab
  if ps.any (·.isNone) then (.nan false, flagNV) else
  let vs := ps.filterMap id
  let pos := vs.any (fun v => decide (v = .inf false))
  let neg := vs.any (fun v => decide (v = .inf true))
  if pos && neg then (.nan false, flagNV)
  else if pos then (.inf false, 0)
  else if neg then (.inf true, 0)
  else
    let (x, e) := sumExact (vs.map FVal.term)
    (.fin (decide (x < 0)) x.natAbs e, 0)

/-- A BF16 block added to an FP32 accumulator with one rounding (R105). -/
def bf16Step (frm : BitVec 2) (acc : Nat) (a b : List Nat) : Nat × BitVec 5 :=
  let (v, fl) := dotSum ((a.zip b).map (fun p => (fmtB16.unpack p.1, fmtB16.unpack p.2)))
  match v with
  | .nan _ => (fmt32.nan, fl)
  | _ => fmt32.addV frm (fmt32.unpack acc) v

end Sys2Proof.Machine
end

