-- ==== Sys2Proof/Machine/Tapered.lean ====
section
/-! DEFINITION. Thelor's tapered formats T8 and T6, the SX8 scale byte, and block-scaled accumulation (R95 to R104, R108,
R110, R223). -/

namespace Sys2Proof.Machine

/-- Which tapered format. -/
inductive Tap where
  | t8 | t6
  deriving DecidableEq, Repr

/-- n of a magnitude code (R96, R97). -/
def Tap.mag : Tap → Nat → Nat
  | .t8, c => if c < 0x40 then c else if c < 0x60 then 2 * c - 64 else if c < 0x70 then 8 * c - 640
    else if c < 0x78 then 32 * c - 3328 else 64 * c - 7168
  | .t6, c => if c < 16 then c else if c < 24 then 2 * c - 16 else if c < 28 then 8 * c - 160 else 16 * c - 384

/-- The number of magnitude codes, the bits of a code, NaV, the grid's reciprocal and the largest value. -/
def Tap.codes : Tap → Nat
  | .t8 => 128
  | .t6 => 32
def Tap.bits : Tap → Nat
  | .t8 => 8
  | .t6 => 6
def Tap.nav : Tap → Nat
  | .t8 => 0x80
  | .t6 => 0x20
def Tap.grid : Tap → Nat
  | .t8 => 64
  | .t6 => 16
def Tap.max : Tap → Nat
  | .t8 => 15
  | .t6 => 7
/-- Elements of a word (R99). -/
def Tap.count : Tap → Nat
  | .t8 => 4
  | .t6 => 5

/-- decode_t8 and decode_t6 (R96, R97): none for NaV, else the integer m. -/
def Tap.decode (f : Tap) (x : Nat) : Option Int :=
  let x := x % 2 ^ f.bits
  if x == f.nav then none else some (sInt (f.codes ≤ x) (f.mag (x % f.codes)))

/-- The nearest magnitude code to num/den in units of the grid; a tie takes the code with bit 0 clear (R108). -/
def Tap.nearest (f : Tap) (num den : Nat) : Nat :=
  ((upto 0 (f.codes - 1)).filter (fun c =>
    let mid := (f.mag c + f.mag (c + 1)) * den
    decide (mid < 2 * num) || (2 * num == mid && c % 2 == 1))).length

/-- round_t8 and round_t6 of the exact value (−1)^s · num/den (R108). -/
def Tap.round (f : Tap) (s : Bool) (num den : Nat) : Nat × BitVec 5 :=
  let sign := if s then f.codes else 0
  if f.max * den < num then (sign + (f.codes - 1), flagOF ||| flagNX) else
  let c := f.nearest (num * f.grid) den
  let n := f.mag c
  let nx := if n * den == num * f.grid then 0 else flagNX
  let uf := if n == 0 && num != 0 then flagUF else 0
  (if n == 0 then 0 else sign + c, nx ||| uf)

/-- round of an exact dyadic value (R108). -/
def Tap.roundDyadic (f : Tap) (s : Bool) (m : Nat) (e : Int) : Nat × BitVec 5 :=
  if 0 ≤ e then f.round s (m * 2 ^ e.toNat) 1 else f.round s m (2 ^ (-e).toNat)

/-- round of a value; a NaN or an infinity gives NaV with NV (R108). -/
def Tap.ofV (f : Tap) (v : FVal) : Nat × BitVec 5 :=
  match v with
  | .fin s m e => f.roundDyadic s m e
  | _ => (f.nav, flagNV)

/-- The value of a code as an exact value (R95, R97). -/
def Tap.value (f : Tap) (x : Nat) : Option FVal :=
  (f.decode x).map (fun m => .fin (decide (m < 0)) m.natAbs (if f = .t8 then -6 else -4))

/-- A T8 or T6 element of a word (R99). -/
def Tap.elem (f : Tap) (w j : Nat) : Nat := natBits w (f.bits * j) f.bits

/-- A word of packed elements, the first lowest (R99). -/
def Tap.pack (f : Tap) : List Nat → Nat
  | [] => 0
  | c :: r => c + 2 ^ f.bits * f.pack r

/-! ### SX8 (R98) -/

/-- decode_sx8: a zero scale, (8 + M)·2^(E−18), or a NaN scale. -/
inductive Sx8 where
  | zero
  | fin (m : Nat) (e : Int)
  | nan
  deriving DecidableEq, Repr

def sx8 (s : Nat) : Sx8 :=
  let e := natBits s 3 5
  if e == 0 then .zero else if e == 31 then .nan else .fin (8 + s % 8) ((e : Int) - 18)

/-- The scale 1.0, which unscaled passes use (R98, R104). -/
def sx8One : Nat := 0x78

/-! ### Block sums and steps (R101, R103, R223) -/

/-- The decoded elements of two blocks multiplied and summed; none when one is NaV (R103). -/
def Tap.blockSum (f : Tap) (a b : List Nat) : Option Int :=
  (a.zip b).foldl (fun x p => match x, f.decode p.1, f.decode p.2 with
    | some x, some m, some n => some (x + m * n)
    | _, _, _ => none) (some 0)

/-- block_step (R103). -/
def Tap.blockStep (f : Tap) (frm : BitVec 2) (acc : Nat) (a b : List Nat) (sa sb : Nat) : Nat × BitVec 5 :=
  match f.blockSum a b, sx8 sa, sx8 sb with
  | none, _, _ => (fmt32.nan, flagNV)
  | _, .nan, _ => (fmt32.nan, flagNV)
  | _, _, .nan => (fmt32.nan, flagNV)
  | some x, .fin m1 e1, .fin m2 e2 =>
    let y := x * (m1 * m2 : Nat)
    fmt32.addV frm (fmt32.unpack acc)
      (.fin (decide (y < 0)) y.natAbs (e1 + e2 + (if f = .t8 then -12 else -8)))
  | some _, _, _ => fmt32.addV frm (fmt32.unpack acc) (.fin false 0 0)

/-- The sum of INT8 products (R101). -/
def int8Sum (a b : List Nat) : Int :=
  (a.zip b).foldl (fun x p => x + (BitVec.ofNat 8 p.1).toInt * (BitVec.ofNat 8 p.2).toInt) 0

/-- The four bytes of a word. -/
def wordBytes (w : Nat) : List Nat := (upto 0 4).map (fun j => natBits w (8 * j) 8)

/-- The two BF16 elements of a word (R94). -/
def wordHalves (w : Nat) : List Nat := [natBits w 0 16, natBits w 16 16]

/-- The elements of a word (R99). -/
def Tap.elems (f : Tap) (w : Nat) : List Nat := (upto 0 f.count).map (f.elem w)

/-! ### VREQ (R110) -/

/-- VREQ of one element: m·grid(src)·so/sn rounded once to the destination. -/
def reqElem (src dst : Tap) (so sn : Sx8) (x : Nat) : Nat × BitVec 5 :=
  match src.decode x, so, sn with
  | none, _, _ => (dst.nav, flagNV)
  | _, .nan, _ => (dst.nav, flagNV)
  | _, _, .nan => (dst.nav, flagNV)
  | _, _, .zero => (dst.nav, flagNV)
  | _, .zero, _ => (0, 0)
  | some m, .fin m1 e1, .fin m2 e2 =>
    let k := e1 - e2
    let num := m.natAbs * m1 * (if 0 ≤ k then 2 ^ k.toNat else 1)
    let den := src.grid * m2 * (if 0 ≤ k then 1 else 2 ^ (-k).toNat)
    dst.round (decide (m < 0)) num den

/-- VREQ of a word, by the kind of vb[17:16]; an element beyond the destination's count is dropped, with its flags, and
missing ones are zero. -/
def reqWord (va vb : Nat) : Nat × BitVec 5 :=
  let kind := natBits vb 16 2
  let src : Tap := if kind == 0 || kind == 2 then .t8 else .t6
  let dst : Tap := if kind == 0 || kind == 3 then .t8 else .t6
  let so := sx8 (natBits vb 0 8)
  let sn := sx8 (natBits vb 8 8)
  let rs := (src.elems va).map (reqElem src dst so sn)
  (dst.pack ((rs.take dst.count).map Prod.fst), rs.foldl (fun fl r => fl ||| r.2) 0)

end Sys2Proof.Machine
end

