-- ==== Sys2Proof/Machine/Flags.lean ====
section
/-! DEFINITION. FFLAGS over time (R62, R92): exceptions enter it when their instruction writes its result. Conditions of
integer comparison (R132, R425), and the element conversions of VCVT with their flags (R427, R428). -/

namespace Sys2Proof.Machine

/-- The exceptions whose results are written by a cycle are ORed into FFLAGS (R62). -/
def Team.settleFlags (t : Team) (cc : Nat) : Team :=
  { t with
    fflags := (t.fpend.filter (fun f => decide (f.1 ≤ cc))).foldl (fun a f => a ||| f.2) t.fflags,
    fpend := t.fpend.filter (fun f => decide (cc < f.1)) }

/-- An integer condition (R425). -/
def condHolds (c : ICond) (a b : Word) : Bool :=
  match c with
  | .eq => a == b
  | .ne => a != b
  | .ltS => a.slt b
  | .geS => b.sle a
  | .ltU => a.ult b
  | .geU => b.ule a
  | .leS => a.sle b
  | .gtS => b.slt a

/-- A predicate's value as a result. -/
def predVal (b : Bool) : DWord := if b then 1 else 0

/-- A source of VCVT as an exact value, with the flags its reading raises; T8 and T6 give none for NaV (R109, R427). -/
inductive CvtSrc where
  | int (x : Int)
  | val (v : FVal)
  | nav
  deriving DecidableEq, Repr

/-- The element of a packed word (R427). -/
def packedElem (f : Fmt) (w e : Nat) : Nat :=
  match f with
  | .bf16 => natBits w (16 * e) 16
  | .t8 => natBits w (8 * e) 8
  | .t6 => natBits w (6 * e) 6
  | _ => w

/-- The source value (R427). -/
def cvtSource (f : Fmt) (e : Nat) (a : DWord) : CvtSrc :=
  let w := (lo32 a).toNat
  match f with
  | .int => .int (lo32 a).toInt
  | .uint => .int w
  | .f32 => .val (fmt32.unpack w)
  | .f64 => .val (fmt64.unpack a.toNat)
  | .bf16 => .val (fmtB16.unpack (packedElem .bf16 w e))
  | .t8 => match Tap.t8.value (packedElem .t8 w e) with
    | some v => .val v
    | none => .nav
  | .t6 => match Tap.t6.value (packedElem .t6 w e) with
    | some v => .val v
    | none => .nav

/-- The element of a packed word replaced; for T6 bits 31:30 are zero (R427). -/
def insertElem (f : Fmt) (w e r : Nat) : Nat :=
  let put := fun (bits : Nat) => w - natBits w (bits * e) bits * 2 ^ (bits * e) + r % 2 ^ bits * 2 ^ (bits * e)
  match f with
  | .bf16 => put 16
  | .t8 => put 8
  | .t6 => put 6 % 2 ^ 30
  | _ => r

/-- The integer range of INT and UINT (R428). -/
def intRange (f : Fmt) : Int × Int :=
  match f with
  | .uint => (0, 4294967295)
  | _ => (-2147483648, 2147483647)

/-- A value as an IEEE format. -/
def cvtFloat (g : FFmt) (frm : BitVec 2) (c : CvtSrc) : Nat × BitVec 5 :=
  match c with
  | .int x => g.ofInt frm x
  | .val v => g.ofV frm v
  | .nav => (g.nan, 0)

/-- A value as a tapered format; NaV from a NaN raises NV, from a T8 source of T6 as well, from T6 to T8 nothing
(R108, R109, R428). -/
def cvtTap (f : Tap) (c : CvtSrc) : Nat × BitVec 5 :=
  match c with
  | .int x => f.roundDyadic (decide (x < 0)) x.natAbs 0
  | .val v => f.ofV v
  | .nav => (f.nav, if f = .t6 then flagNV else 0)

/-- A value as an integer (R428). -/
def cvtInt (d : Fmt) (frm : BitVec 2) (c : CvtSrc) : Int × BitVec 5 :=
  let (lo, hi) := intRange d
  match c with
  | .int x => clampInt lo hi x false
  | .nav => (0, flagNV)
  | .val (.nan _) => (0, flagNV)
  | .val (.inf s) => (if s then lo else hi, flagNV)
  | .val (.fin s m e) =>
    let (x, nx) := roundToInt frm s m e
    clampInt lo hi x nx

/-- VCVT of a source and the destination's old word (R427, R428). -/
def convertElem (f : FCvt) (frm : BitVec 2) (a old : DWord) : DWord × BitVec 5 :=
  let e := f.e.toNat
  let c := cvtSource f.src e a
  let packed := fun (r : Nat × BitVec 5) =>
    (BitVec.ofNat 64 (insertElem f.dst (lo32 old).toNat e r.1), r.2)
  match f.dst with
  | .int | .uint =>
    let r := cvtInt f.dst frm c
    ((BitVec.ofInt 32 r.1).zeroExtend 64, r.2)
  | .f32 => let r := cvtFloat fmt32 frm c; (BitVec.ofNat 64 r.1, r.2)
  | .f64 => let r := cvtFloat fmt64 frm c; (BitVec.ofNat 64 r.1, r.2)
  | .bf16 => packed (cvtFloat fmtB16 frm c)
  | .t8 => packed (cvtTap .t8 c)
  | .t6 => packed (cvtTap .t6 c)

end Sys2Proof.Machine
end

