-- ==== Sys2Proof/Machine/Operands.lean ====
section
/-! DEFINITION. What every issued instruction shares: the group it issues to, its operands with their routing (R42, R129,
R130), the checks on them (R85, R127, R128), and the vector instruction as one operation over all of these
(R415, R416). -/

namespace Sys2Proof.Machine

/-! ### The issue context -/

/-- An instruction issued to a group (R43). -/
structure Ctx where
  core : Nat
  team : Nat
  /-- the index of the group in its pass, and the issued threads of the group, pawns included -/
  grp : Nat
  group : List Nat
  /-- the instruction's address and word, and the address after it when the body goes on (R46) -/
  pc : DWord
  word : Word
  next : Option DWord
  /-- only a NOP may follow in the body (R285) -/
  last : Bool
  /-- the header of the pass -/
  hdr : DWord
  w0 : Word
  w1 : Word
  /-- the issue cycle -/
  cc : Nat
  deriving DecidableEq, Repr

/-- The body of the block at a header (R114): its length in bytes. -/
def bodyBytes (w0 : Word) : Nat := 2 * (hdrLen w0 - 2)

/-- The length in bytes of the instruction at an offset of a body: 4 when its bit 0 is 1 (R113). -/
def insnLen (body : List Byte) (off : Nat) : Nat := if (fieldAt body off 2) % 2 == 1 then 4 else 2

/-- Has the pass instructions left to issue? -/
def Pass.busy (p : Pass) : Bool := decide (p.off < p.body.length)

/-- The cycle from which R43 spaces the issue of a pass to its next group: e. -/
def Pass.due (p : Pass) : Nat :=
  if p.k == 0 then
    if p.fresh then p.start
    else max (p.prev.headD 0 + max p.groups.length (1 + p.wprev)) (p.prev.getLastD 0 + 1)
  else p.cur.getLastD 0 + 1

/-- The first cycle in which a pass may issue to its next group (R43, R125, R126). -/
def Pass.earliest (p : Pass) : Nat :=
  max p.floor (if p.fresh then p.due else max p.due ((p.prev[p.k]?).getD 0 + 1 + p.wprev))

/-- Has every thread of the group that comes next left the pass? It keeps its place, and counts as issued to at e (R43). -/
def Pass.absent (p : Pass) : Bool := p.busy && ((p.groups[p.k]?).getD []).isEmpty

/-- Can the core's port serve the pass: it has an instruction to issue and waits for nothing (R34, R165, R207, R301)? -/
def Pass.serves (p : Pass) : Bool := p.wait.isNone && p.busy && !p.stopped

/-- The cycle in which a pass goes on (R34, R43): with an issue after the core's last cycle, or, for a group that every thread has
left, in a cycle that another pass may use as well. -/
def Core.goesOn (c : Core) (p : Pass) : Nat := if p.absent then max p.due c.cc else max p.earliest (c.cc + 1)

/-- The pass that a core's port serves (R34): the one that is issuing within the step under way; else, of those that go on in the
first cycle in which one can, an issue before a group passed over, and then the earliest started. One that waits for room for
a register line comes after those that do not (R76). -/
def Core.served (c : Core) : Option Pass :=
  let ps := c.passes.filter Pass.serves
  match ps.find? Pass.issuing with
  | some p => some p
  | none =>
    let key := fun p => 2 * c.goesOn p + (if p.absent then 1 else 0)
    (minBy key (ps.filter (fun p => !p.blocked))).orElse (fun _ => minBy key ps)

/-- The context of the instruction that a pass of a core issues next to its next group. The word of a 32-bit instruction
that the body's end cuts off (R114) is its lone halfword. DESIGN CHOICE: assumption 84. -/
def State.ctxFor (s : State) (c : Nat) (p : Pass) : Ctx :=
  let len := insnLen p.body p.off
  let rest := p.body.drop (p.off + len)
  { core := c, team := p.team, grp := p.k, group := (p.groups[p.k]?).getD [],
    pc := p.hdr + BitVec.ofNat 64 (8 + p.off),
    word := BitVec.ofNat 32 (fieldAt p.body p.off len),
    next := if rest.isEmpty then none else some (p.hdr + BitVec.ofNat 64 (8 + p.off + len)),
    last := decide (rest = []) || decide (rest = [0, 0]),
    hdr := p.hdr, w0 := p.w0, w1 := p.w1, cc := (s.core c).cc }

/-- The context of the instruction that a core issues next. -/
def State.ctxOf (s : State) (c : Nat) : Option Ctx :=
  match (s.core c).served with
  | none => none
  | some p => some (s.ctxFor c p)

/-- The context of an instruction on the core whose turn it is. DESIGN CHOICE: assumption 78. -/
def State.ctx (s : State) : Option Ctx :=
  match s.turn with
  | .core c => s.ctxOf c
  | _ => none

/-- The resume point of a thread that the instruction holds (R46). -/
def Ctx.resume (x : Ctx) : Resume := { pc := x.pc, word := x.word, next := x.next, hdr := x.hdr, w0 := x.w0, w1 := x.w1 }

/-- A trap at the instruction. -/
def Ctx.trap (x : Ctx) (cause : BitVec 8) (info0 info1 : DWord) : TrapInfo :=
  { cause := cause, info0 := info0, info1 := info1, pc := x.pc }

/-- ILLEGAL_OP at the instruction (R142): TRAPINFO0 is its word. -/
def Ctx.illegal (x : Ctx) : TrapInfo := x.trap causeIllegalOp (x.word.zeroExtend 64) 0

/-- The real threads of the group, in ascending TID. -/
def Ctx.real (x : Ctx) (t : Team) : List Nat := sortNat (x.group.filter (fun j => !t.isPawn j))

/-- The gangs of the group, in ascending order (R120). -/
def Ctx.gangs (x : Ctx) (t : Team) : List Nat := dedupSorted (sortNat (x.group.map t.gangOf))

/-- The issued threads of a gang, in ascending TID. -/
def Ctx.ofGang (x : Ctx) (t : Team) (g : Nat) : List Nat := sortNat (x.group.filter (fun j => t.gangOf j == g))

/-- The gangs of the group that have an issued real thread (R381, R456). -/
def Ctx.realGangs (x : Ctx) (t : Team) : List Nat := dedupSorted (sortNat ((x.real t).map t.gangOf))

/-- Traps taken by threads, in order. -/
def State.trapAll (s : State) (k : Nat) (ts : List (Nat × TrapInfo)) : State :=
  ts.foldl (fun s c => s.trapThread k c.1 c.2) s

/-- The threads of a list that are real trap with one cause (R280); pawns do not (R27). -/
def State.trapReal (s : State) (k : Nat) (tids : List Nat) (i : TrapInfo) : State :=
  s.trapAll k (((tids.filter (fun j => !(s.team k).isPawn j))).map (fun j => (j, i)))

/-! ### Reads -/

/-- One register that a thread reads: its owner (a thread, or a gang for an s register), the slot by the numbering of
`Mark` with 100 + n for s[n], 200 + n for p[n] and 300 + j for i[j], and the cycles by which it is needed early
(R124). -/
structure Rd where
  owner : Nat
  slot : Nat
  early : Nat
  /-- a fill value, which consumes no word (R42, R85) -/
  fill : Bool := false
  deriving DecidableEq, Repr

def sSlot (n : Nat) : Nat := 100 + n
def pSlot (n : Nat) : Nat := 200 + n
def iSlot (n : Nat) : Nat := 300 + n

/-- The number of a slot as traps report it (R86, R127): 64 a predicate, 65 an index register, 127 an s register. -/
def slotNumber (slot : Nat) : Nat :=
  if slot < 100 then slot else if slot < 200 then 127 else if slot < 300 then 64 else 65

/-- The register line that a mark's slot lies in (R71), 127 for an s register. -/
def markLine (slot : Nat) : Nat := slotNumber slot

/-- Is the word poisoned (R84)? -/
def Team.poisoned (t : Team) (r : Rd) : Bool :=
  if r.fill then false
  else if 100 ≤ r.slot && r.slot < 200 then t.spoison r.owner (r.slot - 100)
  else (t.thread r.owner).bad.contains (slotNumber r.slot)

/-- RF_UE for a consumed word (R86): of an s register the reporter's own TID stands for the source thread.
DEDUCED: assumption 38. -/
def Ctx.rfUe (x : Ctx) (tid : Nat) (r : Rd) : TrapInfo :=
  let src := if 100 ≤ r.slot && r.slot < 200 then tid else r.owner
  x.trap causeRfUe (BitVec.ofNat 64 (slotNumber r.slot + 2 ^ 16 * src)) 0

/-- The group that a slot's mark is kept for: an s register's result becomes available to each group in its own cycle
(R124), every other slot is of one thread, which is in one group. -/
def markGrp (grp slot : Nat) : Nat := if decide (100 ≤ slot) && decide (slot < 200) then grp else 0

/-- The mark of a register's result that is not yet readable to the issuing group (R124, R127). -/
def Team.markOf (t : Team) (x : Ctx) (r : Rd) : Option Mark :=
  t.marks.find? (fun m => m.tid == r.owner && m.slot == r.slot && m.grp == markGrp x.grp r.slot)

/-- The shortfall in cc of a read by an instruction, 0 when the result is readable (R127).
DEDUCED: assumptions 9, 76. -/
def Team.short (t : Team) (x : Ctx) (r : Rd) : Nat :=
  match t.markOf x r with
  | none => 0
  | some m => m.avail + r.early - x.cc

/-- A 32-bit slot read at a cycle: a result that is not yet readable gives a free value (R44).
DESIGN CHOICE: assumption 5. -/
def State.rd (s : State) (x : Ctx) (r : Rd) : Word :=
  let t := s.team x.team
  if t.short x r = 0 then (t.thread r.owner).slotGet (if r.slot < 64 then r.slot else if r.slot < 300 then 64 else 65)
  else Config.freeWord (2 ^ 40 * s.fresh + 2 ^ 20 * r.owner + r.slot)

/-- An s register read at a cycle (R44); s0 is no register (R55). DESIGN CHOICE: assumption 5. -/
def State.rdS (s : State) (x : Ctx) (g n : Nat) : DWord :=
  let t := s.team x.team
  if n = 0 ∨ t.short x { owner := g, slot := sSlot n, early := 0 } = 0 then t.sget g n
  else Config.freeDWord (2 ^ 40 * s.fresh + 2 ^ 20 * g + sSlot n)

/-- A predicate read at a cycle; p0 reads 1 (R55). Where WAITCHECK is 1 a short read issues to no thread, and the value
decides only which threads trap (R44, R127): it is the one written. DEDUCED: assumptions 10, 36. -/
def State.rdP (s : State) (x : Ctx) (tid n : Nat) : Bool :=
  if n == 0 then true else
  if (s.team x.team).waitCheck then ((s.team x.team).thread tid).slotGet 64 |>.getLsbD n else
  (s.rd x { owner := tid, slot := pSlot n, early := 0 }).getLsbD n

/-- The reads of a guard or another predicate: p0 is no register (R55). DEDUCED: assumption 36. -/
def predRd (tid n : Nat) : List Rd := if n == 0 then [] else [{ owner := tid, slot := pSlot n, early := 0 }]

/-! ### Operands -/

/-- An operand form. -/
inductive Opd where
  /-- v[n], or the pair v[n]:v[n+1] -/
  | v (n : Nat)
  | v64 (n : Nat)
  /-- v[n] or the pair routed through lm[m]; m = 0 is no routing (R130) -/
  | rv (m n : Nat)
  | rv64 (m n : Nat)
  /-- v[n] of the quad lane x xor k (R453) -/
  | quadX (k n : Nat)
  /-- v[n] of quad lane k (R453) -/
  | quadB (k n : Nat)
  /-- p[n] -/
  | p (n : Nat)
  /-- i[j] -/
  | ix (j : Nat)
  /-- the window register that i[j] selects (R80) -/
  | win (j : Nat)
  /-- s[n] of the thread's gang -/
  | s (n : Nat)
  /-- v[n] of the present threads at gang lanes lo to lo + k − 1 relative to the base of the thread's group of 8 lanes, for
  VBDOT (R107) -/
  | block (lo k n : Nat)
  /-- v[n] of every present lane of the gang (R111, R454) -/
  | gangV (n : Nat)
  /-- p[n] of every present lane of the gang (R454) -/
  | gangP (n : Nat)
  deriving DecidableEq, Repr

/-- What an operand yields for a thread: the registers read in the order of R127, those read last (v[PARAM] of an IDX
routing, R129), and the values, one per lane for the operands that span lanes. -/
structure OpdVal where
  rds : List Rd
  late : List Rd
  vals : List (Option DWord)
  deriving DecidableEq, Repr

/-- A thread's word as a value. -/
def w64 (a : Word) : Option DWord := some (a.zeroExtend 64)

/-- The thread at a gang lane of a gang, when it is in the group (R42). -/
def Ctx.present (x : Ctx) (t : Team) (g l : Nat) : Option Nat :=
  let j := g * t.w + l
  if x.group.contains j then some j else none

/-- Own registers. -/
def State.opdOwn (s : State) (x : Ctx) (tid n early : Nat) (wide : Bool) : OpdVal :=
  let r := { owner := tid, slot := n, early := early : Rd }
  if wide then
    let r' := { r with slot := n + 1 }
    { rds := [r, r'], late := [], vals := [some (pair64 (s.rd x r) (s.rd x r'))] }
  else { rds := [r], late := [], vals := [w64 (s.rd x r)] }

/-- A read from another thread of the gang: its value when it is in the group, the fill otherwise (R42). A fill of the
reader's own register reads that register as an ordinary operand; a fill of zero reads none. -/
def State.opdFrom (s : State) (x : Ctx) (tid g l n early : Nat) (wide fillOwn : Bool) : OpdVal :=
  match x.present (s.team x.team) g l with
  | some j => s.opdOwn x j n early wide
  | none => if fillOwn then
      let o := s.opdOwn x tid n early wide
      { o with rds := o.rds.map (fun r => { r with fill := true }) }
    else { rds := [], late := [], vals := [some 0] }

/-- A lane-map descriptor's fields (R128). -/
def lmMode (d : BitVec 16) : Nat := (d.extractLsb' 0 3).toNat
def lmFill (d : BitVec 16) : Bool := d.getLsbD 3
def lmScope (d : BitVec 16) : Nat := (d.extractLsb' 4 2).toNat
def lmParam (d : BitVec 16) : Nat := (d.extractLsb' 6 6).toNat

/-- A descriptor that a routed read refuses (R128). -/
def lmBad (d : BitVec 16) : Bool :=
  lmMode d == 0 || decide (5 < lmMode d) || decide (1 < lmScope d) || d.extractLsb' 12 4 != 0

/-- The source gang lane of a routed read (R129); the index is what v[PARAM] holds, for IDX. -/
def lmLane (d : BitVec 16) (w l idx : Nat) : Nat :=
  let n := if lmScope d == 0 then 4 else w
  let base := if lmScope d == 0 then l - l % 4 else 0
  let x := l - base
  let y := match lmMode d with
    | 1 => (x + lmParam d) % n
    | 2 => lmParam d % n
    | 3 => (x ^^^ (lmParam d % n)) % n
    | 4 => idx % n
    | _ => n - 1 - x
  base + y

/-- A routed read (R42, R128, R129): LANE_MAP for a bad descriptor. A fill-valued read does not read the source register
and never raises RF_UE (R42), so its own register is not among the reads. -/
def State.opdRouted (s : State) (x : Ctx) (tid m n : Nat) (wide : Bool) : Except TrapInfo OpdVal :=
  if m == 0 then .ok (s.opdOwn x tid n 0 wide) else
  let t := s.team x.team
  let d := t.lmGet m
  if lmBad d then
    .error (x.trap causeLaneMap (BitVec.ofNat 64 (d.toNat + 2 ^ 16 * m)) 0)
  else
    let idx := lmMode d == 4
    let pr := { owner := tid, slot := lmParam d, early := 0 : Rd }
    let iv := if idx then (s.rd x pr).toNat else 0
    let l := lmLane d t.w (t.laneOf tid) iv
    let o := s.opdFrom x tid (t.gangOf tid) l n (if idx then 2 else 1) wide (lmFill d)
    .ok { o with late := if idx then [pr] else [] }

/-- An operand of a thread. -/
def State.opd (s : State) (x : Ctx) (tid : Nat) (o : Opd) : Except TrapInfo OpdVal :=
  let t := s.team x.team
  let g := t.gangOf tid
  let l := t.laneOf tid
  match o with
  | .v n => .ok (s.opdOwn x tid n 0 false)
  | .v64 n => .ok (s.opdOwn x tid n 0 true)
  | .rv m n => s.opdRouted x tid m n false
  | .rv64 m n => s.opdRouted x tid m n true
  | .quadX k n => .ok (s.opdFrom x tid g (l - l % 4 + ((l % 4) ^^^ k) % 4) n 1 false true)
  | .quadB k n => .ok (s.opdFrom x tid g (l - l % 4 + k % 4) n 1 false true)
  | .p n => .ok { rds := predRd tid n, late := [], vals := [some (if s.rdP x tid n then 1 else 0)] }
  | .ix j =>
    let r := { owner := tid, slot := iSlot j, early := 0 : Rd }
    .ok { rds := [r], late := [], vals := [w64 (((s.rd x r).extractLsb' (8 * j) 8).zeroExtend 32)] }
  | .win j =>
    let r := { owner := tid, slot := iSlot j, early := 0 : Rd }
    let i := ((s.rd x r).extractLsb' (8 * j) 8).toNat
    if t.wlen ≤ i then .error (x.trap causeRegBounds (BitVec.ofNat 64 i) 0)
    else .ok (s.opdOwn x tid (t.wbase + i) 0 false)
  | .s n => .ok { rds := if n == 0 then [] else [{ owner := g, slot := sSlot n, early := 0 }], late := [],
                  vals := [some (s.rdS x g n)] }
  | .block lo k n =>
    let ps := (upto (l - l % 8 + lo) k).map (fun m => x.present t g m)
    .ok { rds := (ps.filterMap id).map (fun j => { owner := j, slot := n, early := 1 }), late := [],
          vals := ps.map (fun p => p.map (fun j =>
            (s.rd x { owner := j, slot := n, early := 1 }).zeroExtend 64)) }
  | .gangV n =>
    let ps := (upto 0 t.w).map (fun m => x.present t g m)
    .ok { rds := (ps.filterMap id).map (fun j => { owner := j, slot := n, early := 1 }), late := [],
          vals := ps.map (fun p => p.map (fun j =>
            (s.rd x { owner := j, slot := n, early := 1 }).zeroExtend 64)) }
  | .gangP n =>
    let ps := (upto 0 t.w).map (fun m => x.present t g m)
    .ok { rds := (ps.filterMap id).flatMap (fun j => (predRd j n).map (fun r => { r with early := 1 })), late := [],
          vals := ps.map (fun p => p.map (fun j =>
            if n == 0 || (s.rd x { owner := j, slot := pSlot n, early := 1 }).getLsbD n then 1 else 0)) }

/-- The reads of a thread's operands in the order of R127, operands whose routing is refused left out. -/
def State.readsOf (s : State) (x : Ctx) (tid : Nat) (os : List Opd) : List Rd :=
  let vs := os.filterMap (fun o => match s.opd x tid o with
    | .ok a => some a
    | .error _ => none)
  let isS := fun (r : Rd) => decide (100 ≤ r.slot) && decide (r.slot < 200)
  let rs := vs.flatMap OpdVal.rds ++ vs.flatMap OpdVal.late
  rs.filter (fun r => !isS r) ++ rs.filter isS

/-! ### Writes -/

/-- A destination form. -/
inductive Dst where
  | v (n : Nat)
  | v64 (n : Nat)
  | p (n : Nat)
  | ix (j : Nat)
  /-- the window register that i[j] selects (R80) -/
  | win (j : Nat)
  deriving DecidableEq, Repr

/-- The slots, by `Mark`'s numbering, that a destination of a thread writes. -/
def Dst.slots (d : Dst) (t : Team) (x : Thread) : List Nat :=
  match d with
  | .v n => [n]
  | .v64 n => [n, n + 1]
  | .p n => [pSlot n]
  | .ix j => [iSlot j]
  | .win j => [t.wbase + (x.iget j).toNat]

/-- A destination written with a value. -/
def Dst.write (d : Dst) (t : Team) (x : Thread) (a : DWord) : Thread :=
  match d with
  | .v n => x.vset n (lo32 a)
  | .v64 n => x.v64set n a
  | .p n => x.pset n (a != 0)
  | .ix j => x.iset j (a.extractLsb' 0 8)
  | .win j => x.vset (t.wbase + (x.iget j).toNat) (lo32 a)

/-- The marks of a group's write: a later write's result is available no earlier than an earlier one's (R124, R126). -/
def addMarks (ms : List Mark) (grp owner : Nat) (slots : List Nat) (avail : Nat) (pc : DWord) : List Mark :=
  slots.foldl (fun ms sl =>
    let same := fun (m : Mark) => m.tid == owner && m.slot == sl && m.grp == markGrp grp sl
    let old := ms.foldl (fun a m => if same m then max a m.avail else a) 0
    ms.filter (fun m => !same m)
      ++ [{ tid := owner, slot := sl, grp := markGrp grp sl, avail := max avail old, pc := pc }]) ms

/-- Does a result of variable latency write the register of a mark? -/
def Result.writes (r : Result) (m : Mark) : Bool :=
  r.vs.any (fun v => v.1 == m.tid && v.2.1 == m.slot) || r.ss.any (fun v => v.1 == m.tid && sSlot v.2.1 == m.slot)

/-- The cycle from which a result of variable latency is available at the earliest: that of the earlier writes to its registers
(R126). -/
def Team.resultAt (t : Team) (r : Result) : Nat := (t.marks.filter r.writes).foldl (fun n m => max n m.avail) 0

/-- Marks whose results every read can take by a cycle are forgotten. -/
def Team.forget (t : Team) (cc : Nat) : Team := { t with marks := t.marks.filter (fun m => decide (cc < m.avail + 2)) }

/-! ### The vector instruction (R415, R416) -/

/-- What a vector instruction is: its guard, its operands in the order of R127, its destination, its latency (none when the
result is interlocked, R45), what it computes from the operands' values, with the exceptions it raises, and whether these count once
for each gang with an issued real thread, whichever threads' guards are 1 (R454). -/
structure VInstr where
  guard : Option Nat
  opds : List Opd
  dst : Dst
  lat : Option Nat
  f : Team → Nat → List (List (Option DWord)) → DWord × BitVec 5
  gangFlags : Bool := false

/-- The guard of a thread (R118): without a guard field it is 1. -/
def State.guardOn (s : State) (x : Ctx) (g : Option Nat) (tid : Nat) : Bool :=
  match g with
  | none => true
  | some n => s.rdP x tid n

/-- The guard's read (R119). -/
def guardRd (g : Option Nat) (tid : Nat) : List Rd :=
  match g with
  | none => []
  | some n => predRd tid n

/-- The reads of a thread that R127 compares: its guard, and its operands when the guard is 1. DEDUCED: assumption 10. -/
def State.compared (s : State) (x : Ctx) (g : Option Nat) (os : List Opd) (tid : Nat) : List Rd :=
  guardRd g tid ++ (if s.guardOn x g tid then s.readsOf x tid os else [])

/-- The read with the largest shortfall, the first of equals (R127). -/
def Team.worst (t : Team) (x : Ctx) (rs : List Rd) : Option Rd :=
  rs.foldl (fun b r =>
    if t.short x r = 0 then b else
    match b with
    | none => some r
    | some q => if t.short x q < t.short x r then some r else b) none

/-- WAIT_SHORT for a read (R127). -/
def Ctx.waitShort (x : Ctx) (t : Team) (r : Rd) : TrapInfo :=
  x.trap causeWaitShort (BitVec.ofNat 64 (slotNumber r.slot + 2 ^ 8 * min 255 (t.short x r)))
    (match t.markOf x r with
      | some m => m.pc
      | none => 0)

/-- The WAIT_SHORT traps of an issue (R127): none when WAITCHECK is 0 or every compared operand is readable. Each real
issued thread whose guard is 1 describes its own worst operand, or the group's. DEDUCED: assumption 10. -/
def State.waitShorts (s : State) (x : Ctx) (g : Option Nat) (reads : Nat → List Rd) : List (Nat × TrapInfo) :=
  let t := s.team x.team
  if !t.waitCheck then [] else
  let tids := sortNat x.group
  match t.worst x (tids.flatMap reads) with
  | none => []
  | some w => (tids.filter (fun j => !t.isPawn j && s.guardOn x g j)).map (fun j =>
      (j, x.waitShort t ((t.worst x (reads j)).getD w)))

/-- A thread's poisoned operand, if it consumes one (R85). -/
def Team.consumed (t : Team) (rs : List Rd) : Option Rd := rs.find? t.poisoned

/-- The values of a thread's operands, or the trap of the first operand that refuses or is poisoned (R85, R128).
DEDUCED: assumption 37. -/
def State.consume (s : State) (x : Ctx) (tid : Nat) : List Opd → Except TrapInfo (List (List (Option DWord)))
  | [] => .ok []
  | o :: r =>
    match s.opd x tid o with
    | .error e => .error e
    | .ok a =>
      match (s.team x.team).consumed (a.rds ++ a.late) with
      | some q => .error (x.rfUe tid q)
      | none =>
        match s.consume x tid r with
        | .error e => .error e
        | .ok b => .ok (a.vals :: b)

/-- What a vector instruction does in one thread: nothing where the guard is 0, a trap, or a value with its exceptions. -/
inductive Lane where
  | off
  | trap (i : TrapInfo)
  | val (a : DWord) (fl : BitVec 5)
  deriving DecidableEq, Repr

/-- One lane of a vector instruction (R85, R119, R128). -/
def VInstr.lane (v : VInstr) (s : State) (x : Ctx) (tid : Nat) : Lane :=
  let t := s.team x.team
  match t.consumed (guardRd v.guard tid) with
  | some r => .trap (x.rfUe tid r)
  | none =>
    if !s.guardOn x v.guard tid then .off else
    -- the window's index is checked where the destination or an operand reaches through it (R80)
    let bounds := match v.dst with
      | .win j => decide (t.wlen ≤ ((t.thread tid).iget j).toNat)
      | _ => false
    match s.consume x tid v.opds with
    | .error i => .trap i
    | .ok vs =>
      if bounds then
        match v.dst with
        | .win j => .trap (x.trap causeRegBounds (((t.thread tid).iget j).zeroExtend 64) 0)
        | _ => .off
      else
        let r := v.f t tid vs
        .val r.1 r.2

/-- The exceptions of the gangs of a group that have an issued real thread, each from its contributing lanes' operands (R454). -/
def VInstr.flagsOfGangs (v : VInstr) (s : State) (x : Ctx) : BitVec 5 :=
  let t := s.team x.team
  (x.group.filter (fun j => !t.isPawn j)).foldl (fun f j => f ||| (match s.consume x j v.opds with
    | .ok vs => (v.f t j vs).2
    | .error _ => 0)) 0

/-- Has a thread the destination of an instruction? A window's register exists only for an index within it (R80). -/
def Dst.exists (d : Dst) (t : Team) (tid : Nat) : Bool :=
  match d with
  | .win j => decide (((t.thread tid).iget j).toNat < t.wlen)
  | _ => true

/-- The results of a group's lanes written (R44, R45, R62): a pawn that would trap receives zero, and its exceptions are
not accumulated (R27). -/
def VInstr.commit (v : VInstr) (s : State) (x : Ctx) (lanes : List (Nat × Lane)) : State :=
  let t := s.team x.team
  let out := lanes.filterMap (fun c => match c.2 with
    | .off => none
    | .trap _ => if t.isPawn c.1 && v.dst.exists t c.1 then some (c.1, (0 : DWord), (0 : BitVec 5)) else none
    | .val a fl => some (c.1, a, if t.isPawn c.1 then 0 else fl))
  let flags := if v.gangFlags then v.flagsOfGangs s x else out.foldl (fun f c => f ||| c.2.2) (0 : BitVec 5)
  match v.lat with
  | some l =>
    let t := out.foldl (fun t c =>
      let th := t.thread c.1
      let slots := v.dst.slots t th
      { t.setThread c.1 (v.dst.write t th c.2.1) with
        marks := addMarks t.marks x.grp c.1 slots (x.cc + l) x.pc }) t
    s.setTeam x.team { t with fpend := if flags = 0 then t.fpend else t.fpend ++ [(x.cc + l, flags)] }
  | none =>
    let vs := out.flatMap (fun c =>
      let th := t.thread c.1
      match v.dst with
      | .v64 n => [(c.1, n, lo32 c.2.1), (c.1, n + 1, hi32 c.2.1)]
      | d => (d.slots t th).map (fun n => (c.1, n, lo32 c.2.1)))
    s.setTeam x.team { t with results := t.results ++ [{ load := false, vs := vs, ss := [], flags := flags }] }

/-- Did an operand's early read take a free value? -/
def State.anyEarly (s : State) (x : Ctx) (reads : Nat → List Rd) : Bool :=
  x.group.any (fun j => (reads j).any (fun r => decide ((s.team x.team).short x r ≠ 0)))

/-- Free values taken are not taken again. DESIGN CHOICE: assumption 5. -/
def State.spendFresh (s : State) (b : Bool) : State := if b then { s with fresh := s.fresh + 1 } else s

/-- A vector instruction issued to a group (R415, R416, R280): all operands are read before any result is written; a
WAIT_SHORT stops the whole group (R127); otherwise the threads that do not trap complete, and then the traps are
taken. -/
def VInstr.issue (v : VInstr) (s : State) (x : Ctx) : State :=
  let reads := s.compared x v.guard v.opds
  let shorts := s.waitShorts x v.guard reads
  let t := s.team x.team
  if shorts.isEmpty && !(t.waitCheck && s.anyEarly x reads) then
    let lanes := x.group.map (fun j => (j, v.lane s x j))
    let s' := (v.commit s x lanes).spendFresh
      (s.anyEarly x reads || (v.gangFlags && s.anyEarly x (fun j => s.readsOf x j v.opds)))
    s'.trapAll x.team (lanes.filterMap (fun c => match c.2 with
      | .trap i => if t.isPawn c.1 then none else some (c.1, i)
      | _ => none))
  else
    -- no thread issues; a pawn whose guard is 1 receives zero (R27)
    let lanes := (x.group.filter (fun j => t.isPawn j && s.guardOn x v.guard j && v.dst.exists t j)).map (fun j => (j, Lane.val 0 0))
    (({ v with gangFlags := false }.commit s x lanes).spendFresh true).trapAll x.team shorts

/-- A vector instruction on the core whose turn it is; nothing happens where no pass is active.
DESIGN CHOICE: assumption 78. -/
def execVector (v : VInstr) (s : State) : Host.Outcome State Fault Refusal :=
  match s.ctx with
  | none => .next s
  | some x => .next (v.issue s x)

/-- The operation of operands that are single values. -/
def scalar (f : Team → List DWord → DWord × BitVec 5) : Team → Nat → List (List (Option DWord)) → DWord × BitVec 5 :=
  fun t _ vs => f t (vs.map (fun l => ((l.headD (some 0)).getD 0)))

/-- Operations on 32-bit words, without exceptions. -/
def op1 (f : Word → Word) : Team → Nat → List (List (Option DWord)) → DWord × BitVec 5 :=
  scalar (fun _ l => match l with
    | [a] => ((f (lo32 a)).zeroExtend 64, 0)
    | _ => (0, 0))
def op2 (f : Word → Word → Word) : Team → Nat → List (List (Option DWord)) → DWord × BitVec 5 :=
  scalar (fun _ l => match l with
    | [a, b] => ((f (lo32 a) (lo32 b)).zeroExtend 64, 0)
    | _ => (0, 0))
def op3 (f : Word → Word → Word → Word) : Team → Nat → List (List (Option DWord)) → DWord × BitVec 5 :=
  scalar (fun _ l => match l with
    | [a, b, c] => ((f (lo32 a) (lo32 b) (lo32 c)).zeroExtend 64, 0)
    | _ => (0, 0))

/-- Operations on 32-bit words that round under FRM and raise exceptions. -/
def fop1 (f : BitVec 2 → Word → Word × BitVec 5) : Team → Nat → List (List (Option DWord)) → DWord × BitVec 5 :=
  scalar (fun t l => match l with
    | [a] => let r := f t.frm (lo32 a); (r.1.zeroExtend 64, r.2)
    | _ => (0, 0))
def fop2 (f : BitVec 2 → Word → Word → Word × BitVec 5) : Team → Nat → List (List (Option DWord)) → DWord × BitVec 5 :=
  scalar (fun t l => match l with
    | [a, b] => let r := f t.frm (lo32 a) (lo32 b); (r.1.zeroExtend 64, r.2)
    | _ => (0, 0))
def fop3 (f : BitVec 2 → Word → Word → Word → Word × BitVec 5) :
    Team → Nat → List (List (Option DWord)) → DWord × BitVec 5 :=
  scalar (fun t l => match l with
    | [a, b, c] => let r := f t.frm (lo32 a) (lo32 b) (lo32 c); (r.1.zeroExtend 64, r.2)
    | _ => (0, 0))

/-- Operations on 64-bit pairs. -/
def op64 (f : DWord → DWord → DWord) : Team → Nat → List (List (Option DWord)) → DWord × BitVec 5 :=
  scalar (fun _ l => match l with
    | [a, b] => (f a b, 0)
    | _ => (0, 0))
def fop64 (f : BitVec 2 → List DWord → DWord × BitVec 5) : Team → Nat → List (List (Option DWord)) → DWord × BitVec 5 :=
  scalar (fun t l => f t.frm l)

end Sys2Proof.Machine
end

