-- ==== Sys2Proof/Machine/Translate.lean ====
section
/-! DEFINITION. Translation (R147 to R149, R170 to R172): the walker, with one stage or two, the TLBs, and the fault table
and its parking of threads (R173 to R175, R287). -/

namespace Sys2Proof.Machine

/-! ### Packets between dies (R318, R331) -/

/-- A router of the slice to which an address's granule belongs (R14, R313), and that slice's die. -/
def State.homeRouter (s : State) (pa : Nat) : Nat :=
  (sliceRouters ((s.desc.slmap[(homeOf s.channels (max 1 s.nsl) pa).1]?).getD 0)).headD 0
def State.homeDie (s : State) (pa : Nat) : Nat := sliceDie ((s.desc.slmap[(homeOf s.channels (max 1 s.nsl) pa).1]?).getD 0)

/-- The rows that a packet enters on its way from row a to row b. -/
def rowsTo (a b : Nat) : List Nat := if a ≤ b then upto (a + 1) (b - a) else (upto b (a - b)).reverse

/-- The dies that a packet enters on its way (R14, R318): every hop leads towards its destination; of the rows between, it
crosses from one column to the other in a row that `n` chooses. DESIGN CHOICE: assumption 111. -/
def dieRoute (src dst n : Nat) : List Nat :=
  let a := src / 2
  let b := dst / 2
  if src % 2 == dst % 2 then (rowsTo a b).map (fun y => 2 * y + dst % 2) else
  let y := if a == b then a else min a b + n % (max a b - min a b + 1)
  (rowsTo a y).map (fun y => 2 * y + src % 2) ++ [2 * y + dst % 2] ++ (rowsTo y b).map (fun y => 2 * y + dst % 2)

/-- Does a die refuse a packet from another die (R331): do their worlds differ? -/
def Castle.refuses (c : Castle) (die source : Nat) : Bool := Tab.get 0 c.worlds source != Tab.get 0 c.worlds die

/-- The die that refuses a packet on its way from one die to another, none where it arrives (R331). DESIGN CHOICE: assumption 111. -/
def State.refusedAt (s : State) (src dst : Nat) : Option Nat :=
  (dieRoute src dst (Config.crossRow src dst s.part.wall)).find? (fun d => s.castle.refuses d src)

/-- A packet that a die refuses: the event of R331 is what happens next. DESIGN CHOICE: assumption 111. -/
def State.linkRefused (s : State) (die source : Nat) : State :=
  { s with sched := .input (.linkRefused die source) :: s.sched }

/-! ### Page-table entries (R170) -/

/-- A leaf that a stage accepts: the frame of the 4 KiB page that holds the address, log2 of the page's 4 KiB pages, and
the entry's permissions. -/
structure Leaf where
  ppn : Nat
  order : Nat
  r : Bool
  w : Bool
  x : Bool
  u : Bool
  d : Bool
  pbmt : Nat
  deriving DecidableEq, Repr

/-- Does the entry point to the next table? PRESUMED: assumption 17. -/
def ptePointer (e : Nat) : Bool := natBit e 0 && !natBit e 1 && !natBit e 2 && !natBit e 3

/-- Is the entry one the format refuses: not valid, writable but not readable, a reserved bit set, or the reserved PBMT 3;
a pointer also with U, A, D, PBMT or N set? PRESUMED: assumption 17. -/
def pteBad (e : Nat) : Bool :=
  !natBit e 0 || (natBit e 2 && !natBit e 1) || natBits e 54 7 != 0 || natBits e 61 2 == 3
    || (ptePointer e && (natBit e 4 || natBit e 6 || natBit e 7 || natBits e 61 3 != 0))

/-- The frame field of an entry. -/
def ptePpn (e : Nat) : Nat := natBits e 10 44

/-- A leaf at a level for a page number, as the table of R170 accepts it. PRESUMED: assumption 17. -/
def leafOf (level vpn e : Nat) : Option Leaf :=
  let p := ptePpn e
  let mk := fun (order : Nat) => some
    { ppn := p - p % 2 ^ order + vpn % 2 ^ order, order := order, r := natBit e 1, w := natBit e 2, x := natBit e 3,
      u := natBit e 4, d := natBit e 7, pbmt := natBits e 61 2 : Leaf }
  if pteBad e || ptePointer e then none
  else if natBit e 63 then
    if level == 0 && p % 16 == 8 then mk 4
    else if level == 2 && p % 2 ^ 18 == 0 && p / 2 ^ 18 % 16 == 8 then mk 22
    else none
  else if 3 ≤ level then none
  else if p % 2 ^ (9 * level) == 0 then mk (9 * level)
  else none

/-- Why a stage yields no leaf: no valid leaf; an entry outside the partition's memory or poisoned; a fault of the second
stage on the entry's address; a die that refuses the packet that reads an entry (R331). DEDUCED: assumption 27. -/
inductive StageFail where
  | noLeaf
  | outside
  | second
  | refused (die : Nat)
  deriving DecidableEq, Repr

/-- What a stage's walk finds: the leaf, the physical address of its entry, and the entry; and the memory that its reads leave
(R153). -/
abbrev StageRes := Except (StageFail × Memory) (Leaf × Nat × Nat × Memory)

/-- Where the walker reads an entry: the physical address of an address of the stage's space, with the memory that finding
it leaves. -/
abbrev EntryAt := Memory → Nat → Except (StageFail × Memory) (Nat × Memory)

/-- The entry that a translation uses where the one of its address is a leaf of a 16 GiB page: one of the sixteen of its region
(R170), which one the manual does not say. -/
def napotEntry (a e level : Nat) : Nat :=
  if level == 2 && natBit e 63 && (leafOf 2 0 e).isSome then a - a % 128 + 8 * (Config.napotChoice a % 16) else a

/-- The walk from a level down (R170): n levels are left, and the table is at the frame `base`. `wide` widens the root
index, as Sv57x4 does. PRESUMED: assumption 17. -/
def walkFrom (look : EntryAt) (wide : Bool) (vpn : Nat) : Nat → Memory → Nat → StageRes
  | 0, m, _ => .error (.noLeaf, m)
  | n + 1, m, base =>
    let idx := vpn / 512 ^ n % (if wide && n == 4 then 2048 else 512)
    match look m (4096 * base + 8 * idx) with
    | .error e => .error e
    | .ok (a, m) =>
      let m := m.install a
      if m.poisoned a 8 then .error (.outside, m) else
      let a := napotEntry a (m.readNat a 8) n
      if m.poisoned a 8 then .error (.outside, m) else
      let e := m.readNat a 8
      if pteBad e then .error (.noLeaf, m)
      else if ptePointer e then walkFrom look wide vpn n m (ptePpn e)
      else match leafOf n vpn e with
        | none => .error (.noLeaf, m)
        | some l => .ok (l, a, e, m)

/-- The A bit set on any access and the D bit on any write, at the entry (R170). DEDUCED: assumption 27. -/
def setAD (m : Memory) (a e : Nat) (write : Bool) : Memory :=
  let e1 := if natBit e 6 then e else e + 2 ^ 6
  let e2 := if write && !natBit e1 7 then e1 + 2 ^ 7 else e1
  if e2 == e then m else m.writeNat a 8 e2

/-- The permission that an access needs (R149). PRESUMED: assumption 17. -/
def Leaf.allows (l : Leaf) (acc : Access) : Bool :=
  l.u && (match acc with
    | .read => l.r
    | .write => l.w
    | .exec => l.x
    | .atom => l.r && l.w)

/-- Does the access write? -/
def isWrite : Access → Bool
  | .write | .atom => true
  | _ => false

/-! ### An address space -/

/-- The roots and tags of a translation (R148, R261). -/
structure Space where
  asid : Nat
  vmid : Nat
  satp : DWord
  hgatp : DWord
  deriving DecidableEq, Repr

def Team.space (t : Team) : Space := { asid := t.asid, vmid := t.vmid, satp := t.satp, hgatp := t.hgatp }

/-- MODE of satp, vsatp or hgatp: 0 is Bare. PRESUMED: assumption 17. -/
def satpMode (x : DWord) : Nat := (x.extractLsb' 60 4).toNat
/-- The root table's frame. -/
def satpRoot (x : DWord) : Nat := (x.extractLsb' 0 44).toNat

/-- What a translation yields (R147, R149, R174): a physical address with the page's PBMT, a page fault with its cause, or
ACCESS. -/
inductive Tr where
  | ok (pa : Nat) (pbmt : Nat)
  | fault (cause : Nat)
  | access
  deriving DecidableEq, Repr

/-- An address of partition memory of n bytes, or of nothing. -/
def inside (lim a n : Nat) : Bool := decide (a + n ≤ lim)

/-- What keeps a walker from an entry at a physical address, if anything does. -/
abbrev Reach := Nat → Option StageFail

/-- The walker of a die (R171): an entry lies in partition memory, and no die on the way refuses the packet (R331). -/
def State.walkReach (s : State) (d : Nat) : Reach := fun a =>
  if !inside s.memEnd a 8 then some .outside else (s.refusedAt d (s.homeDie a)).map StageFail.refused

/-- Where a walker finds an entry at a physical address. -/
def directAt (reach : Reach) : EntryAt := fun m a =>
  match reach a with
  | some e => .error (e, m)
  | none => .ok (a, m)

/-- The second stage of a guest physical address (R170): the leaf, which gives the frame with its order, where the entry stands,
and the entry. DEDUCED: assumption 27. -/
def stageTwo (reach : Reach) (hgatp : DWord) (m : Memory) (gpa : Nat) (acc : Access) : StageRes :=
  match walkFrom (directAt reach) true (gpa / 4096) 5 m (satpRoot hgatp - satpRoot hgatp % 4) with
  | .error (.noLeaf, m) => .error (.second, m)
  | .error e => .error e
  | .ok (l, a, e, m) => if l.allows acc then .ok (l, a, e, m) else .error (.second, m)

/-- Where the first stage's walker reads its entries: directly, or through the second stage, as a read. The setting of the
entry's own A and D bits is no write for the second stage: R170 does not say whether it needs its W permission and sets its D
bit. A of the second stage's own entry is set with the lookup, whatever becomes of the walk. DEDUCED: assumption 27.
DESIGN CHOICE: assumption 105. -/
def entryAt (reach : Reach) (hgatp : DWord) : EntryAt := fun m a =>
  if satpMode hgatp == 0 then directAt reach m a
  else match stageTwo reach hgatp m a .read with
    | .error e => .error e
    | .ok (l, b, e, m) => directAt reach (setAD m b e false) (4096 * l.ppn + a % 4096)

/-- What a page walk yields: the translation; where it succeeds, the entry that a TLB keeps; the memory that it leaves; and the die
that refused its packet, if one did. -/
structure Walked where
  tr : Tr
  entry : Option TlbEntry
  mem : Memory
  refusedBy : Option Nat

/-- What a walk yields whose stage failed: ACCESS where an entry is not reached. -/
def StageFail.walked (f : StageFail) (m : Memory) : Walked :=
  { entry := none, mem := m
    tr := match f with
      | .noLeaf => .fault 1
      | .second => .fault 3
      | .outside | .refused _ => .access
    refusedBy := match f with
      | .refused d => some d
      | _ => none }

/-- A page walk (R149, R170, R383): the leaf of the first stage, the second stage, then the partition and IO checks, then the
permission, and the A and D bits of both stages' leaves last. The first stage is left out where its mode is Bare.
DEDUCED: assumption 27. -/
def walk (lim : Nat) (reach : Reach) (sp : Space) (m : Memory) (va : DWord) (acc : Access) : Walked :=
  let off := va.toNat % 4096
  let vpn := va.toNat / 4096 % 2 ^ 45
  let first : StageRes :=
    if satpMode sp.satp == 0 then
      .ok ({ ppn := va.toNat / 4096, order := 0, r := true, w := true, x := true, u := true, d := true, pbmt := 0 }, 0, 0, m)
    else walkFrom (entryAt reach sp.hgatp) false vpn 5 m (satpRoot sp.satp)
  match first with
  | .error (f, m) => f.walked m
  | .ok (l, a, e, m) =>
    let second : StageRes :=
      if satpMode sp.hgatp == 0 then .ok ({ l with order := 45 }, 0, 0, m)
      else stageTwo reach sp.hgatp m (4096 * l.ppn + off) acc
    match second with
    | .error (f, m) => f.walked m
    | .ok (g, b, f, m) =>
      let pbmt := if l.pbmt ≠ 0 then l.pbmt else g.pbmt
      let pa := 4096 * g.ppn + off
      let stops := fun (t : Tr) => ({ tr := t, entry := none, mem := m, refusedBy := none } : Walked)
      if !inside lim pa 1 || pbmt == 2 then stops .access
      else if !l.allows acc then stops (.fault 2)
      else
        let m := if satpMode sp.hgatp == 0 then m else setAD m b f (isWrite acc)
        let m := if satpMode sp.satp == 0 then m else setAD m a e (isWrite acc)
        let t : TlbEntry :=
          { asid := sp.asid, vmid := sp.vmid, vpn := vpn, order := min l.order g.order, ppn := g.ppn,
            r := l.r && g.r, w := l.w && g.w, x := l.x && g.x, u := l.u, d := isWrite acc || (l.d && g.d), pbmt := pbmt }
        { tr := .ok pa pbmt, entry := some t, mem := m, refusedBy := none }

/-! ### TLBs (R171, R172) -/

/-- Does an entry serve an access: its page, its tags, its permission, and D where the access writes? -/
def TlbEntry.serves (t : TlbEntry) (sp : Space) (va : DWord) (acc : Access) : Bool :=
  t.asid == sp.asid && t.vmid == sp.vmid
    && (va.toNat / 4096 % 2 ^ 45) / 2 ^ t.order == t.vpn / 2 ^ t.order
    && t.u && (match acc with
      | .read => t.r
      | .write => t.w && t.d
      | .exec => t.x
      | .atom => t.r && t.w && t.d)

/-- The address that an entry gives. -/
def TlbEntry.pa (t : TlbEntry) (va : DWord) : Nat :=
  4096 * (t.ppn - t.ppn % 2 ^ t.order + va.toNat / 4096 % 2 ^ t.order) + va.toNat % 4096

/-- What a translation by an entry yields: an address outside partition memory traps ACCESS (R147, R313). -/
def TlbEntry.gives (t : TlbEntry) (lim : Nat) (va : DWord) : Tr := if inside lim (t.pa va) 1 then .ok (t.pa va) t.pbmt else .access

/-- An entry added to a TLB of a size: one for the same page gives way, else the oldest when the TLB is full.
DESIGN CHOICE: assumption 25. -/
def tlbAdd (size : Nat) (l : List TlbEntry) (t : TlbEntry) : List TlbEntry :=
  let same := fun (e : TlbEntry) => e.asid == t.asid && e.vmid == t.vmid && e.order == t.order
    && e.vpn / 2 ^ e.order == t.vpn / 2 ^ t.order
  let l := l.filter (fun e => !same e)
  (l.drop (l.length + 1 - size)) ++ [t]

/-- A translation for a die's engines: its shared TLB, then a walk (R171); a refused packet raises its event (R331).
DEDUCED: assumption 27. -/
def State.translateDie (s : State) (d : Nat) (sp : Space) (va : DWord) (acc : Access) : Tr × State :=
  match (s.die d).tlb.find? (fun t => t.serves sp va acc) with
  | some t => (t.gives s.memEnd va, s)
  | none =>
    let w := walk s.memEnd (s.walkReach d) sp s.mem va acc
    let s := s.setMem w.mem
    let s := match w.refusedBy with
      | some x => s.linkRefused x d
      | none => s
    match w.entry with
    | none => (w.tr, s)
    | some e => (w.tr, s.setDie d { s.die d with tlb := tlbAdd 2048 (s.die d).tlb e })

/-- A translation for a core: its L1 TLB, then its die's, then a walk (R171). DEDUCED: assumption 27. -/
def State.translate (s : State) (c : Nat) (sp : Space) (va : DWord) (acc : Access) : Tr × State :=
  match (s.core c).tlb.find? (fun t => t.serves sp va acc) with
  | some t => (t.gives s.memEnd va, s)
  | none =>
    let (r, s) := s.translateDie (coreDie c) sp va acc
    match (s.die (coreDie c)).tlb.find? (fun t => t.serves sp va acc) with
    | some e => (r, s.updCore c (fun k => { k with tlb := tlbAdd 64 k.tlb e }))
    | none => (r, s)

/-- A translation that changes no TLB and no A or D bit, by which the selector reads a header ahead of its pass.
DEDUCED: assumption 44. -/
def State.peek (s : State) (c : Nat) (sp : Space) (va : DWord) (acc : Access) : Tr := (s.translate c sp va acc).1

/-- Does an invalidation select the entry (R172)? -/
def TlbEntry.selected (t : TlbEntry) (vmid asid : Option Nat) (va : Option DWord) : Bool :=
  (match vmid with
    | none => true
    | some v => t.vmid == v)
  && (match asid with
    | none => true
    | some a => t.asid == a)
  && (match va with
    | none => true
    | some a => (a.toNat / 4096 % 2 ^ 45) / 2 ^ t.order == t.vpn / 2 ^ t.order)

/-- The entries that an invalidation selects leave every TLB of the partition (R172). -/
def State.invalidate (s : State) (sel : TlbEntry → Bool) : State :=
  { s with
    cores := s.cores.mapVal (fun _ c => { c with tlb := c.tlb.filter (fun t => !sel t) })
    dies := s.dies.mapVal (fun _ d => { d with tlb := d.tlb.filter (fun t => !sel t) }) }

/-! ### The fault table (R173, R174) -/

/-- The KIND of an access (R174); an NMRED's is that of a write (R248). DEDUCED: assumptions 15, 40. -/
def kindOf (acc : Access) (engine : Bool) : BitVec 4 :=
  (match acc with
    | .read => 1#4
    | .write => 2#4
    | .atom => 3#4
    | .exec => 4#4) ||| (if engine then 8#4 else 0)

/-- The page of an address (R173). -/
def pageOf (va : DWord) : DWord := va &&& ~~~(0xFFF#64)

/-- A fault record (R174). -/
def faultRecord (e : FaultEntry) (idx : Nat) : List Byte :=
  toBytes 8 e.page.toNat ++ toBytes 2 e.asid ++ toBytes 2 e.vmid ++ toBytes 2 idx ++ toBytes 1 e.kind.toNat
    ++ toBytes 1 e.cause ++ toBytes 8 e.ctxid.toNat ++ toBytes 8 0

/-- The kind that a joiner adds to an entry whose record has not been written yet (R174): KIND of the last pending record of
the entry. -/
def Ring.addKind (r : Ring) (idx : Nat) (kind : BitVec 4) : Ring :=
  let mine := fun (b : List Byte) => fieldAt b 0xC 2 == idx
  { r with pending := ((r.pending.foldr (fun b (acc : List (List Byte) × Bool) =>
      if mine b && !acc.2 then ((b.take 0xE ++ toBytes 1 (BitVec.ofNat 4 (fieldAt b 0xE 1) ||| kind).toNat ++ b.drop 0xF) :: acc.1, true)
      else (b :: acc.1, acc.2)) ([], false)).1) }

/-- A fault recorded (R173): it joins the pending entry of its page, or takes a free entry and writes a record, or waits
without one. The index of its entry is answered. -/
def State.recordFault (s : State) (d : Nat) (sp : Space) (va : DWord) (kind : BitVec 4) (cause : Nat) (ctxid : DWord)
    (who : Waiter) : Option Nat × State :=
  let die := s.die d
  let page := pageOf va
  match List.find? (fun e => e.2.asid == sp.asid && e.2.vmid == sp.vmid && e.2.page == page) die.faults with
  | some (i, e) =>
    let e := { e with kind := e.kind ||| kind, waiters := e.waiters ++ [who] }
    (some i, s.setDie d { die with faults := die.faults.set i e, fq := die.fq.addKind i kind })
  | none =>
    if die.faults.length < 512 then
      let i := die.faults.freeKey 0
      let e : FaultEntry :=
        { asid := sp.asid, vmid := sp.vmid, page := page, kind := kind, cause := cause, ctxid := ctxid, waiters := [who] }
      let (r, m, irq) := die.fq.push s.mem (faultRecord e i)
      let s := (s.setMem m).setDie d { die with faults := die.faults.set i e, fq := r }
      (some i, s.raiseIf irq (.fault d))
    else (none, s.setDie d { die with noEntry := die.noEntry ++ [who] })

/-- A translation fault of a thread (R280, R287): it parks at its region entry and its fault is recorded; without a region
entry, or in a user handler, it takes PAGE_FAULT at once; in a context that has been killed meanwhile it exits (R296). `pc` is
the faulting instruction, or the block for a fetch. -/
def State.faultThread (s : State) (c k tid : Nat) (va pc : DWord) (acc : Access) (cause : Nat) : State :=
  let t := s.team k
  let x := t.thread tid
  if x.loc = .exited then s
  else if t.onCore.isSome && !t.isResident then s.exitThread k tid
  else if x.handler || x.trapPc = 0 then
    if t.isPawn tid then s.dormant k tid
    else s.trapThread k tid { cause := causePageFault, info0 := va, info1 := pc, pc := pc }
  else
    let s := s.leavePass k tid
    let s := s.updThread k tid (fun x => { x with loc := .parked, info0 := va, info1 := pc })
    (s.recordFault (coreDie c) t.space va (kindOf acc false) cause t.ctxid (.thread k tid)).2

end Sys2Proof.Machine
end

