-- ==== Sys2Proof/Machine/Issue.lean ====
section
/-! DEFINITION. The drivers of the instructions that are no vector instructions: the issue checks that every instruction
makes (R127, R280, R285), the instructions that act per thread with effects outside the thread (format M, T, Q and the
thread functions of format K), and those that act per gang (R120, R381). -/

namespace Sys2Proof.Machine

/-! ### Scopes (R176, R197, R198) -/

/-- The code of a scope (R176). -/
def scopeCode : Scope → Nat
  | .gang => 0
  | .team => 1
  | .cluster => 2
  | .partition => 3
  | .tenant => 4
  | .system => 5

/-- CLUSTER or wider (R187). -/
def wideScope (sc : Scope) : Bool := decide (2 ≤ scopeCode sc)

/-- The scopes that a context of a VMID may name: SCOPEPOL, and its VDEV's VSCOPEPOL (R197). -/
def State.scopePolicy (s : State) (vmid : Nat) : BitVec 2 :=
  match vdevOf vmid with
  | none => s.part.scopePol
  | some v => s.part.scopePol &&& (s.vdev v).scopePol

/-- Does the policy deny the scope (R198)? -/
def State.scopeDenied (s : State) (vmid : Nat) (sc : Scope) : Bool :=
  match sc with
  | .tenant => !(s.scopePolicy vmid).getLsbD 0
  | .system => !(s.scopePolicy vmid).getLsbD 1
  | _ => false

/-- SCOPE_DENIED (R198). -/
def Ctx.scopeTrap (x : Ctx) (sc : Scope) : TrapInfo := x.trap causeScopeDenied (BitVec.ofNat 64 (scopeCode sc)) 0

/-! ### The checks at issue -/

/-- The team's active pass, changed. -/
def State.updPass (s : State) (c k : Nat) (f : Pass → Pass) : State :=
  s.updCore c (fun core => { core with passes := core.passes.map (fun p => if p.team == k then f p else p) })

/-- Threads that completed an irrevocable instruction are remembered until successor evaluation (R283); one that it holds
completes it later (R46). -/
def State.markIrrev (s : State) (x : Ctx) (tids : List Nat) : State :=
  s.updTeam x.team (fun t => tids.foldl (fun t j =>
    let y := t.thread j
    if y.loc = .pass then t.setThread j { y with irrev := true } else t) t)

/-- ILLEGAL_REGION at the instruction (R285). -/
def Ctx.illegalRegion (x : Ctx) : TrapInfo := x.trap causeIllegalRegion 1 0

/-- The checks that come before any thread acts: an irrevocable instruction out of place traps in every issued thread
(R285), and an operand that is not yet readable traps WAIT_SHORT when WAITCHECK is set (R127). `zero` is what a pawn then
receives (R27). -/
def State.gate (s : State) (x : Ctx) (irrev : Bool) (guard : Option Nat) (reads : Nat → List Rd)
    (zero : State → List Nat → State) (run : State → State) : State :=
  let t := s.team x.team
  let pawns := x.group.filter (fun j => t.isPawn j)
  if irrev && !x.last then (zero s pawns).trapReal x.team (sortNat x.group) x.illegalRegion
  else
    let early := s.anyEarly x reads
    if t.waitCheck && early then
      (zero s (pawns.filter (fun j => s.guardOn x guard j))).trapAll x.team (s.waitShorts x guard reads)
    else (run s).spendFresh early

/-! ### Instructions that act per thread -/

/-- What such an instruction does in one thread. -/
inductive LaneOut where
  /-- it completes without a result -/
  | done
  /-- it completes with words for register slots -/
  | vals (l : List (Nat × Word))
  | trap (i : TrapInfo)
  /-- a translation fault at a virtual address -/
  | park (va : DWord) (acc : Access) (cause : Nat)
  deriving DecidableEq, Repr

/-- An instruction that acts per thread: its guard, its operands, whether it is irrevocable, the slots of its destination,
its latency (none when its result is interlocked), whether its reply is a load's, what it does in a thread, and whether a thread
reads its operands at all. -/
structure MInstr where
  guard : Option Nat
  opds : List Opd
  irrev : Bool
  dst : List Nat
  lat : Option Nat
  load : Bool
  body : Ctx → Nat → List (List (Option DWord)) → State → LaneOut × State
  acts : Thread → Bool := fun _ => true

/-- One thread (R85, R119). -/
def MInstr.lane (v : MInstr) (x : Ctx) (s : State) (tid : Nat) : LaneOut × State :=
  let t := s.team x.team
  match t.consumed (guardRd v.guard tid) with
  | some r => (.trap (x.rfUe tid r), s)
  | none =>
    if !s.guardOn x v.guard tid || !v.acts (t.thread tid) then (.done, s) else
    match s.consume x tid v.opds with
    | .error i => (.trap i, s)
    | .ok vs => v.body x tid vs s

/-- The threads of a group in ascending TID (R399, R404); a pawn that would trap or fault receives zero (R27). -/
def MInstr.lanes (v : MInstr) (x : Ctx) (s : State) : List Nat → List (Nat × LaneOut) × State
  | [] => ([], s)
  | tid :: r =>
    let (o, s1) := v.lane x s tid
    let o := if (s.team x.team).isPawn tid then
        (match o with
          | .trap _ => .vals (v.dst.map (fun n => (n, 0)))
          | .park _ _ _ => .vals (v.dst.map (fun n => (n, 0)))
          | o => o)
      else o
    let (l, s2) := v.lanes x s1 r
    ((tid, o) :: l, s2)

/-- Words written at once, readable after a latency (R44). -/
def State.writeFixed (s : State) (x : Ctx) (lat : Nat) (vs : List (Nat × Nat × Word)) : State :=
  s.updTeam x.team (fun t => vs.foldl (fun t c =>
    { t.setThread c.1 ((t.thread c.1).slotSet c.2.1 c.2.2) with
      marks := addMarks t.marks x.grp c.1 [c.2.1] (x.cc + lat) x.pc }) t)

/-- The results of a group's threads: fixed latency, or one reply (R44, R45). -/
def State.writeSlots (s : State) (x : Ctx) (lat : Option Nat) (load : Bool) (vs : List (Nat × Nat × Word)) : State :=
  match lat with
  | some l => s.writeFixed x l vs
  | none => if vs.isEmpty then s else
      s.updTeam x.team (fun t => { t with results := t.results ++ [{ load := load, vs := vs, ss := [], flags := 0 }] })

/-- The traps and faults of a group's threads, taken in order (R280). -/
def State.dispose (s : State) (x : Ctx) (outs : List (Nat × LaneOut)) : State :=
  outs.foldl (fun s o => match o.2 with
    | .trap i => s.trapThread x.team o.1 i
    | .park va acc cause => s.faultThread x.core x.team o.1 va x.pc acc cause
    | _ => s) s

/-- An instruction that acts per thread, issued to a group (R280, R283). -/
def MInstr.issue (v : MInstr) (s : State) (x : Ctx) : State :=
  let zero := fun (s : State) (pawns : List Nat) =>
    s.writeSlots x v.lat v.load (pawns.flatMap (fun j => v.dst.map (fun n => (j, n, (0 : Word)))))
  let reads := fun (j : Nat) => s.compared x v.guard (if v.acts ((s.team x.team).thread j) then v.opds else []) j
  s.gate x v.irrev v.guard reads zero (fun s =>
    let (outs, s) := v.lanes x s (sortNat x.group)
    let vs := outs.flatMap (fun o => match o.2 with
      | .vals l => l.map (fun a => (o.1, a.1, a.2))
      | _ => [])
    let s := s.writeSlots x v.lat v.load vs
    let ok := outs.filterMap (fun o => match o.2 with
      | .done => some o.1
      | .vals _ => some o.1
      | _ => none)
    let s := if v.irrev then s.markIrrev x ok else s
    s.dispose x outs)

/-- Such an instruction on the core whose turn it is. DESIGN CHOICE: assumption 78. -/
def execThreads (v : MInstr) (s : State) : Host.Outcome State Fault Refusal :=
  match s.ctx with
  | none => .next s
  | some x => .next (v.issue s x)

/-! ### Instructions that act per gang (R120, R381) -/

/-- What such an instruction does for one gang: it completes with writes of s registers, or traps, or faults in every
issued thread of the gang (R280). -/
inductive GangOut where
  | done (ss : List (Nat × DWord))
  | trap (i : TrapInfo)
  | park (va : DWord) (acc : Access) (cause : Nat)
  deriving DecidableEq, Repr

/-- An instruction that acts per gang: the s registers it reads, whether it is irrevocable, whether it acts only for gangs
with an issued real thread (R381), the s register it writes, its latency, what it does for a gang from the values read, and
whether it never traps, so that a source that is poisoned or not yet readable gives a free value (R393). DESIGN CHOICE:
assumption 112. -/
structure GInstr where
  srcs : List Nat
  irrev : Bool
  realOnly : Bool
  dst : Option Nat
  lat : Option Nat
  body : Ctx → Nat → List DWord → State → GangOut × State
  calm : Bool := false

/-- The s registers that the instruction reads for a thread's gang. -/
def GInstr.reads (v : GInstr) (t : Team) (tid : Nat) : List Rd :=
  v.srcs.flatMap (fun n => if n == 0 then [] else [{ owner := t.gangOf tid, slot := sSlot n, early := 0 }])

/-- One gang: a poisoned source traps in every issued thread of it (R85). -/
def GInstr.gang (v : GInstr) (x : Ctx) (s : State) (g : Nat) : GangOut × State :=
  let t := s.team x.team
  let free := fun (n : Nat) => Config.freeDWord (2 ^ 40 * s.fresh + 2 ^ 20 * g + sSlot n)
  match v.srcs.find? (fun n => t.spoison g n) with
  | some _ =>
    if v.calm then v.body x g (v.srcs.map (fun n => if t.spoison g n then free n else s.rdS x g n)) s
    else (.trap (x.trap causeRfUe 127 0), s)
  | none => v.body x g (v.srcs.map (fun n => s.rdS x g n)) s

/-- The gangs in ascending order, each seeing what the one before it did (R120). -/
def GInstr.gangs (v : GInstr) (x : Ctx) (s : State) : List Nat → List (Nat × GangOut) × State
  | [] => ([], s)
  | g :: r =>
    let (o, s1) := v.gang x s g
    let (l, s2) := v.gangs x s1 r
    ((g, o) :: l, s2)

/-- s registers written: fixed latency, or one reply (R44, R45). Of a gang split over two groups (R124) each group's act writes in its
own cycle, and the first group's next read, from its own c + L on, finds what the second group's act wrote.
DESIGN CHOICE: assumption 107. -/
def State.writeS (s : State) (x : Ctx) (lat : Option Nat) (ss : List (Nat × Nat × DWord)) : State :=
  match lat with
  | some l => s.updTeam x.team (fun t => ss.foldl (fun t c =>
      if c.2.1 == 0 then t else
      { t.sset c.1 c.2.1 c.2.2 with marks := addMarks t.marks x.grp c.1 [sSlot c.2.1] (x.cc + l) x.pc }) t)
  | none => if ss.isEmpty then s else
      s.updTeam x.team (fun t => { t with results := t.results ++ [{ load := false, vs := [], ss := ss, flags := 0 }] })

/-- The traps and faults of a gang: every issued real thread of it (R280); RF_UE names each reporter's own TID (R86).
DEDUCED: assumption 38. -/
def State.disposeGang (s : State) (x : Ctx) (g : Nat) (o : GangOut) : State :=
  let tids := (x.ofGang (s.team x.team) g).filter (fun j => !(s.team x.team).isPawn j)
  match o with
  | .done _ => s
  | .trap i => s.trapAll x.team (tids.map (fun j =>
      (j, if i.cause = causeRfUe then { i with info0 := i.info0 + BitVec.ofNat 64 (2 ^ 16 * j) } else i)))
  | .park va acc cause => tids.foldl (fun s j => s.faultThread x.core x.team j va x.pc acc cause) s

/-- The gangs that the instruction acts for (R120, R381). -/
def GInstr.acts (v : GInstr) (x : Ctx) (t : Team) : List Nat := if v.realOnly then x.realGangs t else x.gangs t

/-- An instruction that acts per gang, issued to a group. A gang of pawns whose instruction traps has its destination
zeroed where the instruction acts for it (R27). -/
def GInstr.issue (v : GInstr) (s : State) (x : Ctx) : State :=
  let t := s.team x.team
  let pawnGangs := fun (gs : List Nat) => gs.filter (fun g => (x.ofGang t g).all (fun j => t.isPawn j))
  let zeros := fun (gs : List Nat) => match v.dst with
    | some d => if v.realOnly then [] else (pawnGangs gs).map (fun g => (g, d, (0 : DWord)))
    | none => []
  let zero := fun (s : State) (_ : List Nat) => s.writeS x v.lat (zeros (v.acts x t))
  if v.calm then
    let poison := (v.acts x t).any (fun g => v.srcs.any (fun n => t.spoison g n))
    (v.gangs x s (v.acts x t)).2.spendFresh (poison || s.anyEarly x (v.reads t))
  else
  s.gate x v.irrev none (v.reads t) zero (fun s =>
    let (outs, s) := v.gangs x s (v.acts x t)
    let ss := outs.flatMap (fun o => match o.2 with
      | .done l => l.map (fun a => (o.1, a.1, a.2))
      | _ => [])
    let bad := outs.filterMap (fun o => match o.2 with
      | .done _ => none
      | _ => some o.1)
    let s := s.writeS x v.lat (ss ++ zeros bad)
    let s := if v.irrev then s.markIrrev x (x.group.filter (fun j => !bad.contains (t.gangOf j))) else s
    outs.foldl (fun s o => s.disposeGang x o.1 o.2) s)

/-- Such an instruction on the core whose turn it is. DESIGN CHOICE: assumption 78. -/
def execGangs (v : GInstr) (s : State) : Host.Outcome State Fault Refusal :=
  match s.ctx with
  | none => .next s
  | some x => .next (v.issue s x)

end Sys2Proof.Machine
end

