-- ==== Sys2Proof/Machine/Memory.lean ====
section
/-! DEFINITION. Global memory as the cores reach it: stores performed at their homes and what they wake (R180, R186, R292,
R327), the L1 and the write-through queue (R150, R185, R187), atomics and near-memory updates (R169, R189, R249), and the
checks of an access (R383). -/

namespace Sys2Proof.Machine

/-! ### A store performed at its home -/

/-- The 128-byte lines of a range. -/
def linesOf (pa n : Nat) : List Nat := if n == 0 then [] else upto (pa / 128) ((pa + n - 1) / 128 + 1 - pa / 128)

/-- An error-queue record (R322), and its interrupt. -/
def State.errorRecord (s : State) (pa unit kind count : Nat) : State :=
  let rec_ := toBytes 8 (pa - pa % 64) ++ toBytes 2 unit ++ toBytes 1 kind ++ toBytes 5 0 ++ toBytes 8 count ++ toBytes 8 0
  let (r, m, irq) := s.part.eq.push s.mem rec_
  ((s.setMem m).setPart { s.part with eq := r }).raiseIf irq .error

/-- The unit of a physical address's channel, as R322 numbers it. -/
def State.channelUnit (s : State) (pa : Nat) : Nat :=
  let (i, ch, _) := homeOf s.channels (max 1 s.nsl) pa
  i + 16 * 2 + 256 * ch

/-- An MWAIT that a write wakes: its thread disarms, acquires at MARM's scope and goes on (R293). -/
def State.wakeMonitor (s : State) (k tid : Nat) (m : Monitor) : State :=
  let s := s.updThread k tid (fun x => { x with mon := none })
  let s := match (s.team k).onCore with
    | some c => s.followAll c k tid
    | none => s
  (s.acquire k m.sc).resume k tid

/-- Lines have been written at home: armed monitors note it and held MWAITs wake (R292, R293); the monitor tables make
their teams bindable (R294). -/
def State.linesWritten (s : State) (ls : List Nat) : State :=
  let s := s.teams.foldl (fun s kt =>
    kt.2.threads.foldl (fun s jx =>
      match jx.2.mon with
      | some m =>
        if ls.contains m.line then
          match jx.2.loc with
          | .held (.monitor _ _) _ =>
            if kt.2.isResident then s.wakeMonitor kt.1 jx.1 m
            else s.updThread kt.1 jx.1 (fun x => { x with mon := some { m with written := true } })
          | _ => s.updThread kt.1 jx.1 (fun x => { x with mon := some { m with written := true } })
        else s
      | none => s) s) s
  let woken := s.slices.flatMap (fun c => (c.2.monitors.filter (fun r => r.lines.any ls.contains)).map MonRecord.team)
  woken.foldl (fun s k => s.updTeam k (fun t => { t with bindable := true })) s

/-- The 64-bit word that an XLJWAIT reads, and the exception of a poisoned one (R265, R321). -/
def State.jwaitRead (s : State) (h : Nat) (j : JWait) : State :=
  let x := s.hart h
  let rd := j.rd
  let pa := j.pa
  if s.mem.poisoned pa 8 then
    (s.setHart h { x with jwait := none, exc := some (.loadFault j.va) }).errorRecord pa (s.channelUnit pa) 0 0
  else
    (s.readHome pa 8).setHart h { x with
      jwait := none, exc := none, pc := x.pc + 4
      x := if rd == 0 then x.x else Tab.set x.x rd (BitVec.ofNat 64 (s.mem.readNat pa 8)) }

/-- The XLJWAITs whose line has been written end (R265). -/
def State.wakeHarts (s : State) (ls : List Nat) : State :=
  s.harts.foldl (fun s hx => match hx.2.jwait with
    | some j => if ls.contains (j.pa / 128) then s.jwaitRead hx.1 j else s
    | none => s) s

/-- The harts whose LR has reserved a block that is written lose their reservation (R199). -/
def State.dropResv (s : State) (pa n : Nat) : State :=
  { s with harts := s.harts.mapVal (fun _ (h : Hart) => match h.resv with
    | some b => if decide (pa < 64 * b + 64) && decide (64 * b < pa + n) then { h with resv := none } else h
    | none => h) }

/-- A store performed at its home (R180, R186): the bytes with what R152 to R154 say of them, the dirty bits, the monitors
and the waits on its lines. -/
def State.storeHome (s : State) (pa : Nat) (bs : List Byte) (vmid : Nat) : State :=
  let s := s.setMem (s.mem.write pa bs)
  let s := s.markRange vmid pa bs.length
  let ls := linesOf pa bs.length
  ((s.linesWritten ls).dropResv pa bs.length).wakeHarts ls

/-! ### A core's view (R185) -/

/-- Bytes at an address, overlaid by bytes at another. -/
def patch : List Byte → Nat → Nat → List Byte → List Byte
  | [], _, _, _ => []
  | b :: r, at_, pa, new =>
    (if pa ≤ at_ then (new[at_ - pa]?).getD b else b) :: patch r (at_ + 1) pa new

/-- What a core reads of a range: its bytes, and the poisoned words among them. -/
structure View where
  bytes : List Byte
  bad : List Nat
  deriving DecidableEq, Repr

/-- Words of a list outside those that a store covers wholly (R154). -/
def healed (bad : List Nat) (pa n : Nat) : List Nat :=
  bad.filter (fun w => !(decide (pa ≤ 4 * w) && decide (4 * w + 4 ≤ pa + n)))

/-- The home's range with the core's own stores that are still on their way (R185, rule 3). -/
def State.homeView (s : State) (c pa n : Nat) : View :=
  let q := (s.core c).stq
  { bytes := q.foldl (fun bs st => patch bs pa st.pa st.bytes) (s.mem.read pa n)
    bad := q.foldl (fun b st => healed b st.pa st.bytes.length)
      (s.mem.badIn pa n) }

/-- The number of lines of a core's L1 (R82, R150). -/
def Core.l1Lines (k : Core) : Nat := 512 * (k.pbL1 - k.pbScr)

/-- A line put into the L1, kept or next to be evicted (R150). DESIGN CHOICE: assumption 25. -/
def Core.install (k : Core) (l : L1Line) (keep : Bool) : Core :=
  let rest := k.l1.filter (fun x => x.line != l.line)
  let rest := rest.drop (rest.length + 1 - k.l1Lines)
  { k with l1 := if keep then rest ++ [l] else l :: rest }

/-- A line dropped from the L1. -/
def Core.drop (k : Core) (line : Nat) : Core := { k with l1 := k.l1.filter (fun x => x.line != line) }

/-- A line read from its home into the L1 (R384). DESIGN CHOICE: assumption 25. -/
def State.fetchLine (s : State) (c line : Nat) (keep : Bool) : State :=
  let v := s.homeView c (128 * line) 128
  (s.readHome (128 * line) 128).updCore c (fun k => k.install { line := line, bytes := v.bytes, bad := v.bad } keep)

/-- A load's bytes at a core (R150, R384): from the L1 where the access may be served there and the line is present, else
from the home. -/
def State.load (s : State) (c pa n : Nat) (hint : Hint) (home : Bool) : View × State :=
  let line := pa / 128
  let part := fun (l : L1Line) =>
    { bytes := (l.bytes.drop (pa % 128)).take n,
      bad := l.bad.filter (fun w => decide (pa / 4 ≤ w) && decide (4 * w < pa + n)) : View }
  match hint with
  | .bypass => (s.homeView c pa n, (s.readHome (128 * line) 128).updCore c (fun k => k.drop line))
  | _ =>
    let keep := hint == .normal
    match (s.core c).l1.find? (fun l => l.line == line) with
    | some l =>
      if home then (s.homeView c pa n, s.fetchLine c line keep)
      else (part l, if keep then s.updCore c (fun k => k.install l true) else s)
    | none => (s.homeView c pa n, s.fetchLine c line keep)

/-- A store's bytes enter the write-through queue (R150, R187): a copy of the line in the L1 changes with it, and one is
allocated unless the L1 is bypassed. DESIGN CHOICE: assumption 25. -/
def State.enqueue (s : State) (c : Nat) (st : Store) (hint : Hint) : State :=
  let s := s.updCore c (fun k => { k with stq := k.stq ++ [st], mseq := k.mseq + 1 })
  let line := st.pa / 128
  match (s.core c).l1.find? (fun l => l.line == line) with
  | some l =>
    let l := { l with bytes := patch l.bytes (128 * line) st.pa st.bytes, bad := healed l.bad st.pa st.bytes.length }
    match hint with
    | .normal => s.updCore c (fun k => k.install l true)
    | _ => s.updCore c (fun k => { k with l1 := k.l1.map (fun x => if x.line == line then l else x) })
  | none =>
    match hint with
    | .bypass => s
    | .normal => s.fetchLine c line true
    | .streaming => s.fetchLine c line false

/-! ### Stores, atomics and updates on their way -/

/-- The store at a place of a core's queue performed at its home, with nothing before it. -/
def State.performStoreAt (s : State) (c i : Nat) : State :=
  match (s.core c).stq[i]? with
  | none => s
  | some st => (s.updCore c (fun k => { k with stq := dropAt k.stq i })).storeHome st.pa st.bytes st.vmid

/-- Do two ranges meet? -/
def meets (a n b m : Nat) : Bool := decide (a < b + m) && decide (b < a + n)

/-- The store that can be performed when the one at a place is asked for: itself, unless it releases, or an earlier one meets it
or is one that it follows, and then the oldest (R180, R181, R187, R399). -/
def Core.storeTurn (k : Core) (i : Nat) : Nat :=
  match k.stq[i]? with
  | none => 0
  | some st =>
    if st.rel || (k.stq.take i).any (fun e => decide (e.seq < st.after) || meets e.pa e.bytes.length st.pa st.bytes.length) then 0
    else i

/-- k[n] of a team (R212). -/
def Team.conv (t : Team) (n : Nat) : Conv := Tab.get Conv.empty t.k n

/-- k[n] written. -/
def State.setConv (s : State) (k n : Nat) (v : Conv) : State := s.updTeam k (fun t => { t with k := Tab.set t.k n v })

/-- The oldest arrival of a core counted (R357). -/
def State.performOldestArrival (s : State) (c : Nat) : State :=
  match (s.core c).arrivals with
  | [] => s
  | a :: r => (s.updCore c (fun k => { k with arrivals := r })).updBarrier a.team a.b Barrier.arrive

/-- The oldest signature of a core counted (R379), and the request that the last one posts (R210). -/
def State.performOldestSig (s : State) (c : Nat) : State :=
  match (s.core c).sigs with
  | [] => s
  | g :: r =>
    let s := s.updCore c (fun k => { k with sigs := r })
    let v := (s.team g.team).conv g.k
    if v.state ≠ 1 then s
    else if v.signed + 1 = v.expect then
      let s := s.setConv g.team g.k { v with state := 2, frmp := g.frm, signed := 0 }
      let cl := s.cluster (coreCluster c)
      s.setCluster (coreCluster c) { cl with matrix := { cl.matrix with posting := cl.matrix.posting ++ [(g.team, g.k)] } }
    else s.setConv g.team g.k { v with signed := v.signed + 1 }

/-- What a core has on its way in order of issue: a store, a BARV arrival or a KSIGN signature. -/
inductive Issued where
  | arrival | sig | store
  deriving DecidableEq, Repr

/-- The first of a core's arrivals and signatures numbered below n and of its stores numbered below m, in the order in which
they issued. -/
def Core.oldest (k : Core) (n m : Nat) : Option Issued :=
  let l := ((k.arrivals.head?.filter (fun a => decide (a.seq < n))).map (fun a => (a.seq, Issued.arrival))).toList
    ++ ((k.sigs.head?.filter (fun g => decide (g.seq < n))).map (fun g => (g.seq, Issued.sig))).toList
    ++ ((k.stq.head?.filter (fun st => decide (st.seq < m))).map (fun st => (st.seq, Issued.store))).toList
  (minBy Prod.fst l).map Prod.snd

/-- One of them performed. -/
def State.performIssued (s : State) (c : Nat) (i : Issued) : State :=
  match i with
  | .arrival => s.performOldestArrival c
  | .sig => s.performOldestSig c
  | .store => s.performStoreAt c 0

/-- A core's arrivals and signatures numbered below n and stores numbered below m performed in the order in which they issued,
at most so many as the last number says. -/
def State.performInOrder (s : State) (c n m : Nat) : Nat → State
  | 0 => s
  | f + 1 =>
    match (s.core c).oldest n m with
    | none => s
    | some i => (s.performIssued c i).performInOrder c n m f

/-- How many stores, arrivals and signatures a core has on their way. -/
def Core.underWay (k : Core) : Nat := k.arrivals.length + k.sigs.length + k.stq.length

/-- What a core has issued before a place in its order, performed in that order: what a release waits for (R181, R187, R462). -/
def State.settleBefore (s : State) (c n : Nat) : State := s.performInOrder c n n (s.core c).underWay

/-- The place after everything that a core has on its way. -/
def Core.topSeq (k : Core) : Nat :=
  ((k.arrivals.map Arrival.seq) ++ (k.sigs.map Sig.seq) ++ (k.stq.map Store.seq)).foldl (fun m n => max m (n + 1)) k.mseq

/-- Every store, arrival and signature that a core has on its way, performed in order. -/
def State.settleAll (s : State) (c : Nat) : State := s.settleBefore c (s.core c).topSeq

/-- The place before which every store is performed when the arrivals and signatures before a place are: the last of those whose
release is at CLUSTER or wider (R187). -/
def Core.storesDue (k : Core) (n : Nat) : Nat :=
  (((k.arrivals.filter (fun a => a.rel)).map Arrival.seq) ++ ((k.sigs.filter (fun g => g.rel)).map Sig.seq)).foldl
    (fun m q => if q < n then max m q else m) 0

/-- A core's arrivals and signatures before a place performed, each after its release (R357, R379, R465). -/
def State.settleSyncsBefore (s : State) (c n : Nat) : State :=
  s.performInOrder c n ((s.core c).storesDue n) (s.core c).underWay

/-- All of them: a core performs its teams' operations on barrier objects and convergence registers in the order in which they
issue (R465). -/
def State.settleSyncs (s : State) (c : Nat) : State := s.settleSyncsBefore c (s.core c).topSeq

/-- The oldest arrival of a core performed: its release, and what the core has issued before it, then the arrival (R357, R465). -/
def State.performArrival (s : State) (c : Nat) : State :=
  match (s.core c).arrivals with
  | [] => s
  | a :: _ => (if a.rel then s.settleBefore c a.seq else s.settleSyncsBefore c a.seq).performOldestArrival c

/-- The oldest signature of a core performed: its release, and what the core has issued before it, then the signature (R379,
R465). -/
def State.performSig (s : State) (c : Nat) : State :=
  match (s.core c).sigs with
  | [] => s
  | g :: _ => (if g.rel then s.settleBefore c g.seq else s.settleSyncsBefore c g.seq).performOldestSig c

/-- The store whose turn it is performed. One that releases follows every earlier arrival and signature; another those that it is
ordered after, by a release of its thread or an acquire that read one (R181, R462). -/
def State.performStore (s : State) (c i : Nat) : State :=
  let j := (s.core c).storeTurn i
  match (s.core c).stq[j]? with
  | none => s
  | some st => (s.settleBefore c (if st.rel then st.seq else min st.after st.seq)).performStoreAt c j

/-- The place after the last store on its way that meets a range. -/
def Core.metBy (k : Core) (pa n : Nat) : Nat :=
  (k.stq.filter (fun st => meets st.pa st.bytes.length pa n)).foldl (fun m st => max m (st.seq + 1)) 0

/-- What a core has issued up to the last store that meets a range, performed. -/
def State.drainFor (s : State) (c pa n : Nat) : State := s.settleBefore c ((s.core c).metBy pa n)

/-- Threads have read a range at their core: they remember the last store on its way that they read, and after an acquire their
later stores follow it and everything before it (R181). DESIGN CHOICE: assumption 104. -/
def State.noteRead (s : State) (c k : Nat) (tids : List Nat) (pa n : Nat) (acq : Bool) : State :=
  let m := (s.core c).metBy pa n
  if m == 0 then s else
  tids.foldl (fun s j => s.updThread k j (fun x =>
    { x with seen := max m x.seen, after := if acq then max m x.after else x.after })) s

/-- The new value of an atomic (R354), none where a comparison fails. -/
def atomNew (op : AtomOp) (wide : Bool) (old a b : DWord) : Option DWord :=
  let cut := fun (x : DWord) => if wide then x else (lo32 x).zeroExtend 64
  let sx := fun (x : DWord) => if wide then x.toInt else (lo32 x).toInt
  let zx := fun (x : DWord) => if wide then x.toNat else (lo32 x).toNat
  match op with
  | .add => some (cut (old + a))
  | .and => some (old &&& a)
  | .or => some (old ||| a)
  | .xor => some (old ^^^ a)
  | .minS => some (if sx a < sx old then a else old)
  | .maxS => some (if sx old < sx a then a else old)
  | .minU => some (if zx a < zx old then a else old)
  | .maxU => some (if zx old < zx a then a else old)
  | .xchg => some a
  | .cas => if zx old = zx a then some b else none
  | .fadd => some (BitVec.ofNat 64 (fmt32.add 0 (lo32 old).toNat (lo32 a).toNat).1)

/-- An atomic performed at its home (R189, R354): the core's earlier stores first, all of them at CLUSTER or wider or after a
fence that orders them, and those to its location or that an acquire of its thread has read (R181) otherwise; then the step;
then its reply, and an acquire at CLUSTER or wider. A copy of its line that the core's L1 has fetched meanwhile is dropped, for
it lacks the step (R185, rule 3). A poisoned target traps MEM_UE in the thread, and a pawn has no request (R27). DEDUCED:
assumption 39. -/
def State.atomHome (s : State) (c : Nat) (r : AtomReq) : State :=
  let n := if r.wide then 8 else 4
  let s := s.updCore c (fun k => k.drop (r.pa / 128))
  let s := if wideScope r.sc || r.rel then s.settleAll c else (s.settleBefore c r.after).drainFor c r.pa n
  if s.mem.poisoned r.pa n then
    s.trapThread r.team r.tid { cause := causeMemUe, info0 := r.va, info1 := 0, pc := r.pc }
  else
    let old := BitVec.ofNat 64 (s.mem.readNat r.pa n)
    let s := match atomNew r.op r.wide old r.a r.b with
      | some new => s.storeHome r.pa (toBytes n new.toNat) (s.team r.team).vmid
      | none => s.readHome r.pa n
    let vs := (r.tid, r.vd, lo32 old) :: (if r.wide then [(r.tid, r.vd + 1, hi32 old)] else [])
    let s := s.updTeam r.team (fun t => { t with results := t.results ++ [{ load := false, vs := vs, ss := [], flags := 0 }] })
    if wideScope r.sc then s.updCore c (fun k => { k with l1 := [] }) else s

/-- The atomic at a place of a core's list performed; one that an earlier one of its location precedes waits for it. -/
def State.performAtom (s : State) (c i : Nat) : State :=
  let q := (s.core c).atq
  match q[i]? with
  | none => s
  | some r =>
    let i := if (q.take i).any (fun e => meets e.pa 8 r.pa 8) then 0 else i
    match q[i]? with
    | none => s
    | some r => (s.updCore c (fun k => { k with atq := dropAt k.atq i })).atomHome c r

/-- Every atomic of a core performed, the oldest first. -/
def State.drainAtoms (s : State) (c : Nat) : Nat → State
  | 0 => s
  | n + 1 => (s.performAtom c 0).drainAtoms c n

/-- The atomics of a core that meet a range are performed before a later access of the core reads it (R185, rule 3). -/
def State.settleAtoms (s : State) (c pa n : Nat) : State :=
  if (s.core c).atq.any (fun r => meets r.pa 8 pa n) then s.drainAtoms c (s.core c).atq.length else s

/-- A release at CLUSTER or wider (R187): what the core has issued, stores, arrivals and signatures in order and atomics, is
performed. Peer tile accesses are performed at issue. -/
def State.release (s : State) (c : Nat) (sc : Scope) : State :=
  if wideScope sc then
    let s := s.settleAll c
    s.drainAtoms c (s.core c).atq.length
  else s

/-- The new value of a near-memory update (R169). -/
def nmNew (op : NmOp) (wide : Bool) (old a : DWord) : DWord :=
  let sx := fun (x : DWord) => if wide then x.toInt else (lo32 x).toInt
  let zx := fun (x : DWord) => if wide then x.toNat else (lo32 x).toNat
  let fp := fun (r : Nat × BitVec 5) => BitVec.ofNat 64 r.1
  match op with
  | .add => old + a
  | .maxS => if sx old < sx a then a else old
  | .minS => if sx a < sx old then a else old
  | .maxU => if zx old < zx a then a else old
  | .minU => if zx a < zx old then a else old
  | .fadd => fp (fmt32.add 0 (lo32 old).toNat (lo32 a).toNat)
  | .fmax => fp (fmt32.minMax true (lo32 old).toNat (lo32 a).toNat)
  | .fmin => fp (fmt32.minMax false (lo32 old).toNat (lo32 a).toNat)

/-- A near-memory update performed (R169, R249): a poisoned target stays poisoned and is reported. -/
def State.nmHome (s : State) (r : NmReq) : State :=
  let n := if r.wide then 8 else 4
  if s.mem.poisoned r.pa n then s.errorRecord r.pa (s.channelUnit r.pa) 0 0
  else
    let old := BitVec.ofNat 64 (s.mem.readNat r.pa n)
    s.storeHome r.pa (toBytes n (nmNew r.op r.wide old r.v).toNat) r.vmid

/-- The update at a place of a core's list performed, after what a FENCE.NM puts before it (R188, R190). -/
def State.performNm (s : State) (c i : Nat) : State :=
  match (s.core c).nmq[i]? with
  | none => s
  | some r => ((s.updCore c (fun k => { k with nmq := dropAt k.nmq i })).settleBefore c r.after).nmHome r

/-- Every access of a core that is on its way to its home performed (R172, R183). -/
def State.drainCore (s : State) (c : Nat) : State :=
  let s := s.settleAll c
  let s := s.drainAtoms c (s.core c).atq.length
  (s.core c).nmq.foldl (fun s _ => s.performNm c 0) s

/-- What a store of a thread that takes effect at once follows is performed: everything after a FENCE that orders it (R188),
else what an acquire of the thread has read (R181). -/
def State.afterFence (s : State) (c k tid : Nat) : State :=
  let y := (s.team k).thread tid
  if y.fenced then s.settleAll c else s.settleBefore c y.after

/-- The updates of a thread performed (R188, NM). -/
def State.drainNm (s : State) (c k tid : Nat) : Nat → State
  | 0 => s
  | n + 1 =>
    match (s.core c).nmq.findIdx? (fun r => r.team == k && r.tid == tid) with
    | some i => (s.performNm c i).drainNm c k tid n
    | none => s

/-! ### The checks of an access (R383) -/

/-- What the checks of a global access yield: its physical address and whether the L1 is bypassed, or a trap, or a fault. -/
inductive Checked where
  | ok (pa : Nat) (nc : Bool)
  | stop (o : LaneOut)
  deriving DecidableEq, Repr

/-- Scope policy, alignment, canonical address, translation, the partition and IO checks, permission (R383). -/
def State.checked (s : State) (x : Ctx) (sc : Scope) (va : DWord) (size : Nat) (acc : Access) : Checked × State :=
  let t := s.team x.team
  if s.scopeDenied t.vmid sc then (.stop (.trap (x.scopeTrap sc)), s)
  else if va.toNat % size != 0 then (.stop (.trap (x.trap causeMisaligned va 0)), s)
  else if !canonical va then (.stop (.trap (x.trap causeAccess va 0)), s)
  else
    match s.translate x.core t.space va acc with
    | (.ok pa pbmt, s) => (.ok pa (pbmt == 1), s)
    | (.fault cause, s) => (.stop (.park va acc cause), s)
    | (.access, s) => (.stop (.trap (x.trap causeAccess va 0)), s)

/-- A hint, or the bypass of an NC page (R150). -/
def hintOf (h : Hint) (nc : Bool) : Hint := if nc then .bypass else h

/-- A load of one thread or gang, checked and read (R383, R384): the value, or the stop. A poisoned word traps MEM_UE.
DEDUCED: assumption 39. -/
def State.loadChecked (s : State) (x : Ctx) (tids : List Nat) (sc : Scope) (va : DWord) (size : Nat) (hint : Hint) (acq : Bool) :
    Except LaneOut DWord × State :=
  match s.checked x sc va size .read with
  | (.stop o, s) => (.error o, s)
  | (.ok pa nc, s) =>
    let s := s.settleAtoms x.core pa size
    let s := s.noteRead x.core x.team tids pa size acq
    let (v, s) := s.load x.core pa size (hintOf hint nc) (acq || wideScope sc)
    if v.bad.isEmpty then (.ok (BitVec.ofNat 64 (ofBytes v.bytes)), s)
    else (.error (.trap (x.trap causeMemUe va 0)), s)

/-- A load of one thread of a group, checked and read from the line that the group's request for it brings (R383, R384). -/
def State.loadGroup (s : State) (x : Ctx) (tid : Nat) (sc : Scope) (va : DWord) (size : Nat) (hint : Hint) (acq : Bool) :
    Except LaneOut DWord × State :=
  match s.checked x sc va size .read with
  | (.stop o, s) => (.error o, s)
  | (.ok pa nc, s) =>
    let s := s.noteRead x.core x.team [tid] pa size acq
    let line := pa / 128
    let give := fun (l : L1Line) =>
      if (l.bad.filter (fun w => decide (pa / 4 ≤ w) && decide (4 * w < pa + size))).isEmpty then
        .ok (BitVec.ofNat 64 (fieldAt l.bytes (pa % 128) size))
      else .error (.trap (x.trap causeMemUe va 0))
    match (s.core x.core).brought.find? (fun l => l.line == line) with
    | some l => (give l, s)
    | none =>
      let s := s.settleAtoms x.core (128 * line) 128
      let (v, s) := s.load x.core (128 * line) 128 (hintOf hint nc) (acq || wideScope sc)
      let l : L1Line := { line := line, bytes := v.bytes, bad := v.bad }
      (give l, s.updCore x.core (fun k => { k with brought := k.brought ++ [l] }))

/-- An instruction whose group's loads are requests of its own (R384). -/
def State.withRequests (s : State) (c : Nat) (f : State → State) : State :=
  let clear := fun (s : State) => s.updCore c (fun k => { k with brought := [] })
  clear (f (clear s))

/-- A store of one thread, checked and sent (R398); a pawn's does nothing (R27). A release at GANG or TEAM also follows what the
core has issued before it, so that whoever reads it finds that at home or on its way (R181). -/
def State.storeChecked (s : State) (x : Ctx) (sc : Scope) (va : DWord) (size : Nat) (a : DWord) (hint : Hint) (tid : Nat)
    (rel : Bool) : LaneOut × State :=
  if (s.team x.team).isPawn tid then (.done, s) else
  match s.checked x sc va size .write with
  | (.stop o, s) => (o, s)
  | (.ok pa nc, s) =>
    let t := s.team x.team
    let n := (s.core x.core).mseq
    (.done, s.enqueue x.core
      { pa := pa, bytes := toBytes size a.toNat, vmid := t.vmid,
        rel := (rel && wideScope sc) || (t.thread tid).fenced, team := x.team, tid := tid, seq := n,
        after := if rel then n else (t.thread tid).after } (hintOf hint nc))

end Sys2Proof.Machine
end

