-- ==== Sys2Proof/Machine/VecMem.lean ====
section
/-! DEFINITION. Format M and FENCE: LD (R382 to R384), ST (R398 to R400), ATOM (R352 to R356), NMRED (R390, R391) and
FENCE (R188). -/

namespace Sys2Proof.Machine

/-- The first value of an operand. -/
def val1 (vs : List (List (Option DWord))) (n : Nat) : DWord := (((vs[n]?).getD []).headD none).getD 0

/-- Bytes of an SZ field (R382). -/
def sizeOf_ (sz : BitVec 2) : Nat := 2 ^ sz.toNat

/-- What LD writes: the value sign- or zero-extended to the destination (R383). -/
def loadResult (sz : BitVec 2) (sx : BitVec 1) (vd : Nat) (a : DWord) : List (Nat × Word) :=
  match sz.toNat with
  | 0 => [(vd, if sx = 1 then (a.extractLsb' 0 8).signExtend 32 else (a.extractLsb' 0 8).zeroExtend 32)]
  | 1 => [(vd, if sx = 1 then (a.extractLsb' 0 16).signExtend 32 else (a.extractLsb' 0 16).zeroExtend 32)]
  | 2 => [(vd, lo32 a)]
  | _ => [(vd, lo32 a), (vd + 1, hi32 a)]

/-- The slots of a result of a width (R54). -/
def slotsOf (wide : Bool) (vd : Nat) : List Nat := if wide then [vd, vd + 1] else [vd]

/-- LD (R383, R384). -/
def ldInstr (f : FLd) : MInstr :=
  { guard := some f.p.toNat, opds := [.v64 f.va.toNat], irrev := false, dst := slotsOf (f.sz = 3) f.vd.toNat,
    lat := none, load := true,
    body := fun x tid vs s =>
      match s.loadGroup x tid f.sc (val1 vs 0) (sizeOf_ f.sz) f.hint (f.acq = 1) with
      | (.error o, s) => (o, s)
      | (.ok a, s) =>
        (.vals (loadResult f.sz f.sx f.vd.toNat a), if f.acq = 1 then s.acquire x.team f.sc else s) }

/-- LD: the group's requests are its own (R384). -/
def execLd (f : FLd) (s : State) : Host.Outcome State Fault Refusal :=
  match s.ctx with
  | none => .next s
  | some x => .next (s.withRequests x.core (fun s => (ldInstr f).issue s x))

/-- ST (R398 to R400): a release store is irrevocable (R285). -/
def stInstr (f : FSt) : MInstr :=
  { guard := some f.p.toNat, opds := [.v64 f.va.toNat, if f.sz = 3 then .v64 f.vd.toNat else .v f.vd.toNat],
    irrev := f.rel = 1, dst := [], lat := none, load := false,
    body := fun x tid vs s => s.storeChecked x f.sc (val1 vs 0) (sizeOf_ f.sz) (val1 vs 1) f.hint tid (f.rel = 1) }

/-- ST. -/
def execSt (f : FSt) (s : State) : Host.Outcome State Fault Refusal := execThreads (stInstr f) s

/-- The operands of an atomic (R353): the address, x, and for CAS the new value. -/
def atomOpds (op : AtomOp) (wide : Bool) (va vd : Nat) : List Opd :=
  match op, wide with
  | .cas, false => [.v64 va, .v vd, .v (vd + 1)]
  | .cas, true => [.v64 va, .v64 vd, .v64 (vd + 2)]
  | _, false => [.v64 va, .v vd]
  | _, true => [.v64 va, .v64 vd]

/-- ATOM (R354): checked at the core and sent to its home; the L1 copy of its line is dropped (R189). -/
def atomInstr (f : FRmw AtomOp) : MInstr :=
  { guard := some f.p.toNat, opds := atomOpds f.op (f.wide = 1) f.va.toNat f.vd.toNat, irrev := true,
    dst := slotsOf (f.wide = 1) f.vd.toNat, lat := none, load := false,
    body := fun x tid vs s =>
      if (s.team x.team).isPawn tid then (.vals ((slotsOf (f.wide = 1) f.vd.toNat).map (fun n => (n, 0))), s) else
      match s.checked x f.sc (val1 vs 0) (if f.wide = 1 then 8 else 4) .atom with
      | (.stop o, s) => (o, s)
      | (.ok pa _, s) =>
        (.done, s.updCore x.core (fun k =>
          { k.drop (pa / 128) with
            atq := k.atq ++ [{ team := x.team, tid := tid, op := f.op, wide := f.wide = 1, pa := pa, va := val1 vs 0,
                               a := val1 vs 1, b := val1 vs 2, vd := f.vd.toNat, sc := f.sc, pc := x.pc,
                               rel := ((s.team x.team).thread tid).fenced,
                               after := ((s.team x.team).thread tid).after }] })) }

/-- ATOM. -/
def execAtom (f : FRmw AtomOp) (s : State) : Host.Outcome State Fault Refusal := execThreads (atomInstr f) s

/-- NMRED (R248, R391): checked at the core and sent; at CLUSTER or wider the L1 copy of its line is dropped (R191). Only a FENCE.NM
orders it after other accesses (R190). Its page fault is recorded as a write's (R174). DEDUCED: assumption 40. -/
def nmredInstr (f : FRmw NmOp) : MInstr :=
  { guard := some f.p.toNat, opds := [.v64 f.va.toNat, if f.wide = 1 then .v64 f.vd.toNat else .v f.vd.toNat],
    irrev := true, dst := [], lat := none, load := false,
    body := fun x tid vs s =>
      if (s.team x.team).isPawn tid then (.done, s) else
      match s.checked x f.sc (val1 vs 0) (if f.wide = 1 then 8 else 4) .write with
      | (.stop o, s) => (o, s)
      | (.ok pa _, s) =>
        (.done, s.updCore x.core (fun k =>
          let k := if wideScope f.sc then k.drop (pa / 128) else k
          { k with nmq := k.nmq ++ [{ team := x.team, tid := tid, op := f.op, wide := f.wide = 1, pa := pa, v := val1 vs 1,
                                      vmid := (s.team x.team).vmid,
                                      after := if ((s.team x.team).thread tid).nmFenced then k.mseq else 0 }] })) }

/-- NMRED. -/
def execNmred (f : FRmw NmOp) (s : State) : Host.Outcome State Fault Refusal := execThreads (nmredInstr f) s

/-- What a FENCE does for a thread (R181, R188): ACQ drops the L1 at CLUSTER or wider, and the thread's later stores follow the
stores on their way that its loads have read; REL makes the later stores of the thread
follow every earlier one; AR and NM at CLUSTER or wider also perform the core's earlier stores and atomics. NM performs
the thread's updates first, drops the L1's copies of what they changed, at every scope, and makes its later updates follow what the
core has issued before them (R190). -/
def State.fence (s : State) (c k tid : Nat) (kind : FenceKind) (sc : Scope) : State :=
  let later := fun (s : State) => s.updThread k tid (fun x => { x with fenced := true })
  match kind with
  | .acq => (s.updThread k tid (fun x => { x with after := max x.seen x.after })).acquire k sc
  | .rel => later s
  | .ar => later ((s.release c sc).acquire k sc)
  | .nm => (later ((((s.drainNm c k tid (s.core c).nmq.length).release c sc).acquire k sc).updCore c (fun k => { k with l1 := [] }))).updThread k tid
      (fun x => { x with nmFenced := true })

/-- FENCE (R188, R350). -/
def fenceInstr (f : FFence) : MInstr :=
  { guard := none, opds := [], irrev := false, dst := [], lat := none, load := false,
    body := fun x tid _ s =>
      let t := s.team x.team
      if s.scopeDenied t.vmid f.sc then (.trap (x.scopeTrap f.sc), s)
      else if t.isPawn tid then (.done, s)
      else (.done, s.fence x.core x.team tid f.kind f.sc) }

/-- FENCE. -/
def execFence (f : FFence) (s : State) : Host.Outcome State Fault Refusal := execThreads (fenceInstr f) s

end Sys2Proof.Machine
end

