-- ==== Sys2Proof/Machine/Tile.lean ====
section
/-! DEFINITION. Tile handles (R155 to R168): resolving a handle, its elements, TALLOC, TFREE, TINFO, TLD, TST, TATOM, RGET
and RPUT (R394 to R409). -/

namespace Sys2Proof.Machine

/-! ### Handles -/

/-- An allocated handle of a team. -/
def Team.handle? (t : Team) (n : Nat) : Option Handle := t.h.find? n

/-- A handle of a team, written. -/
def State.setHandle (s : State) (k n : Nat) (h : Handle) : State := s.updTeam k (fun t => { t with h := t.h.set n h })

/-- Bytes of an element (R155). -/
def Handle.esize (h : Handle) : Nat := if h.wide then 8 else 4

/-- Elements of the tile. -/
def Handle.count (h : Handle) : Nat := h.rows * h.cols

/-- 4 KiB units of the scratchpad that the tile occupies (R156). -/
def Handle.units (h : Handle) : Nat :=
  match h.level with
  | .gwin => 0
  | _ => (h.count * h.esize + 4095) / 4096

/-- Where the tile save area holds the tile of a handle: in ascending handle number, unit after unit (R158).
DEDUCED: assumption 30. -/
def Team.saveAddr (t : Team) (n : Nat) : Nat :=
  t.tsBase + 4096 * ((t.h.filter (fun h => decide (h.1 < n))).map (fun h => h.2.units)).foldl (· + ·) 0

/-- TILE_HANDLE (R157). -/
def Ctx.tileTrap (x : Ctx) (reason h : Nat) (peer : Bool) (info1 : DWord) : TrapInfo :=
  x.trap causeTileHandle (BitVec.ofNat 64 (reason + 2 ^ 8 * h + (if peer then 2 ^ 13 else 0))) info1

/-- The team at a place of a team's league, unless R166 makes it absent: it counts as retired once its retirement has begun (R463). -/
def State.peer (s : State) (k m : Nat) : Option Nat :=
  let t := s.team k
  if t.leagueSize < 2 || t.leagueSize ≤ m then none
  else (s.league k).find? (fun j => (s.team j).leaguePos == m && decide ((s.team j).state ≠ .retired) && !(s.team j).retiring)

/-- The tile that an instruction names (R157, R166): the owning team and its handle, or the trap. -/
def State.resolve (s : State) (x : Ctx) (peer : Bool) (core h : Nat) : Except TrapInfo (Nat × Handle) :=
  if peer then
    match s.peer x.team core with
    | none => .error (x.trap causePeerAbsent (BitVec.ofNat 64 (core + 2 ^ 8 * h)) 0)
    | some j =>
      match (s.team j).handle? h with
      | none => .error (x.tileTrap 1 h true 0)
      | some d => .ok (j, d)
  else
    match (s.team x.team).handle? h with
    | none => .error (x.tileTrap 1 h false 0)
    | some d => .ok (x.team, d)

/-- The words of an element of a scratchpad tile (R161). -/
def Handle.words (h : Handle) (i : Nat) : List Nat := if h.wide then [2 * i, 2 * i + 1] else [i]

/-- An element of a scratchpad tile. -/
def Handle.elem (h : Handle) (i : Nat) : DWord :=
  if h.wide then pair64 (Tab.get 0 h.data (2 * i)) (Tab.get 0 h.data (2 * i + 1))
  else (Tab.get 0 h.data i).zeroExtend 64

/-- Is a word of the element poisoned (R163)? -/
def Handle.poisoned (h : Handle) (i : Nat) : Bool := (h.words i).any h.bad.contains

/-- A word of the tile written; its poison is cleared. -/
def Handle.put (h : Handle) (w : Nat) (a : Word) : Handle :=
  { h with data := Tab.set h.data w a, bad := setDel h.bad w }

/-- An element written. -/
def Handle.setElem (h : Handle) (i : Nat) (a : DWord) : Handle :=
  if h.wide then (h.put (2 * i) (lo32 a)).put (2 * i + 1) (hi32 a) else h.put i (lo32 a)

/-- The global address of an element of a GWIN tile (R161). -/
def Handle.gwinAddr (h : Handle) (i : Nat) : DWord :=
  h.base + BitVec.ofNat 64 (i / h.cols) * h.rstride.signExtend 64 + BitVec.ofNat 64 (i % h.cols) * h.cstride.signExtend 64

/-! ### TLD, TST and TATOM -/

/-- The tile of a format T instruction (R407): resolved, and its level allowed. -/
def State.tileOf (s : State) (x : Ctx) (f : FT) : Except TrapInfo (Nat × Handle) :=
  match s.resolve x (f.peer = 1) f.core.toNat f.h.toNat with
  | .error e => .error e
  | .ok (j, h) =>
    if f.peer = 1 ∧ h.level ≠ .scr then .error (x.tileTrap 4 f.h.toNat true 0) else .ok (j, h)

/-- Does the instruction move pairs? -/
def State.tileWide (s : State) (x : Ctx) (f : FT) : Bool :=
  match s.tileOf x f with
  | .ok (_, h) => h.wide
  | .error _ => false

/-- The checks of an element access after the tile is resolved (R161, R407): an odd VD for a pair, then the index. -/
def Handle.refuse (h : Handle) (x : Ctx) (f : FT) (i : Nat) : Option TrapInfo :=
  if h.wide && f.vd.toNat % 2 == 1 then some x.illegal
  else if h.count ≤ i then some (x.tileTrap 3 f.h.toNat (f.peer = 1) (BitVec.ofNat 64 i))
  else none

/-- TLD's latency (R168): fixed for an own scratchpad tile. -/
def State.tldLat (s : State) (x : Ctx) (f : FT) : Option Nat :=
  if f.peer = 1 then none else
  match s.tileOf x f with
  | .ok (_, h) => if h.level = .gwin then none else some 8
  | .error _ => some 8

/-- TLD (R407, R408). -/
def tldInstr (f : FT) (s : State) (x : Ctx) : MInstr :=
  { guard := some f.p.toNat, opds := [.v f.va.toNat], irrev := false, dst := slotsOf (s.tileWide x f && f.vd.toNat % 2 == 0) f.vd.toNat,
    lat := s.tldLat x f, load := f.peer = 0,
    body := fun x tid vs s =>
      match s.tileOf x f with
      | .error e => (.trap e, s)
      | .ok (_, h) =>
        let i := (val1 vs 0).toNat
        match h.refuse x f i with
        | some e => (.trap e, s)
        | none =>
          let out := fun (a : DWord) => LaneOut.vals
            (if h.wide then [(f.vd.toNat, lo32 a), (f.vd.toNat + 1, hi32 a)] else [(f.vd.toNat, lo32 a)])
          match h.level with
          | .gwin =>
            match s.loadGroup x tid .team (h.gwinAddr i) h.esize .normal false with
            | (.error o, s) => (o, s)
            | (.ok a, s) => (out a, s)
          | _ => if h.poisoned i then (.trap (x.trap causeMemUe (BitVec.ofNat 64 i) 0), s) else (out (h.elem i), s) }

/-- Does a TLD or TST name a global window? -/
def State.tileGwin (s : State) (x : Ctx) (f : FT) : Bool :=
  match s.tileOf x f with
  | .ok (_, h) => decide (h.level = .gwin)
  | .error _ => false

/-- TLD: through a global window it loads as LD does (R384). -/
def execTld (f : FT) (s : State) : Host.Outcome State Fault Refusal :=
  match s.ctx with
  | none => .next s
  | some x =>
    let run := fun (s : State) => (tldInstr f s x).issue s x
    .next (if s.tileGwin x f then s.withRequests x.core run else run s)

/-- TST (R407 to R409): a peer store is irrevocable, and a pawn stores nothing. -/
def tstInstr (f : FT) (s : State) (x : Ctx) : MInstr :=
  { guard := some f.p.toNat,
    opds := [.v f.va.toNat, if s.tileWide x f && f.vd.toNat % 2 == 0 then .v64 f.vd.toNat else .v f.vd.toNat],
    irrev := f.peer = 1, dst := [], lat := none, load := false,
    body := fun x tid vs s =>
      match s.tileOf x f with
      | .error e => (.trap e, s)
      | .ok (j, h) =>
        let i := (val1 vs 0).toNat
        match h.refuse x f i with
        | some e => (.trap e, s)
        | none =>
          match h.level with
          | .gwin => s.storeChecked x .team (h.gwinAddr i) h.esize (val1 vs 1) .normal tid false
          | _ => if (s.team x.team).isPawn tid then (.done, s)
                 else (.done, (s.afterFence x.core x.team tid).setHandle j f.h.toNat (h.setElem i (val1 vs 1))) }

/-- TST. -/
def execTst (f : FT) (s : State) : Host.Outcome State Fault Refusal :=
  match s.ctx with
  | none => .next s
  | some x => .next ((tstInstr f s x).issue s x)

/-- The new element of TATOM (R403). -/
def tatomNew (op : TatomOp) (old a : Word) : Word :=
  match op with
  | .add => old + a
  | .minS => if a.slt old then a else old
  | .maxS => if old.slt a then a else old
  | .minU => if a.ult old then a else old
  | .and => old &&& a
  | .or => old ||| a
  | .xor => old ^^^ a
  | .xchg => a

/-- TATOM (R403, R404): each thread's step in ascending TID, indivisible at the owner's scratchpad. -/
def tatomInstr (f : FTatom) : MInstr :=
  { guard := none, opds := [.v f.va.toNat, .v f.vd.toNat], irrev := true, dst := [f.vd.toNat], lat := none, load := false,
    body := fun x tid vs s =>
      match s.resolve x (f.peer = 1) f.core.toNat f.h.toNat with
      | .error e => (.trap e, s)
      | .ok (j, h) =>
        let i := (val1 vs 0).toNat
        if h.level ≠ .scr ∨ h.wide then (.trap (x.tileTrap 4 f.h.toNat (f.peer = 1) 0), s)
        else if h.count ≤ i then (.trap (x.tileTrap 3 f.h.toNat (f.peer = 1) (BitVec.ofNat 64 i)), s)
        else if (s.team x.team).isPawn tid then (.vals [(f.vd.toNat, 0)], s)
        else if h.poisoned i then (.trap (x.trap causeMemUe (BitVec.ofNat 64 i) 0), s)
        else
          let old := lo32 (h.elem i)
          (.vals [(f.vd.toNat, old)],
            (s.afterFence x.core x.team tid).setHandle j f.h.toNat (h.setElem i ((tatomNew f.op old (lo32 (val1 vs 1))).zeroExtend 64))) }

/-- TATOM. -/
def execTatom (f : FTatom) (s : State) : Host.Outcome State Fault Refusal := execThreads (tatomInstr f) s

/-- The scratchpad words that a thread of a TLD, TST or TATOM requests, counted from the scratchpad's start (R162).
DEDUCED: assumption 11. -/
def State.bankWords (s : State) (x : Ctx) (peer : Bool) (core hn va : Nat) (guard : Option Nat) (tid : Nat) : List Nat :=
  match s.resolve x peer core hn with
  | .error _ => []
  | .ok (_, h) =>
    let i := ((s.team x.team).thread tid).vget va |>.toNat
    if h.level = .gwin ∨ h.count ≤ i ∨ s.guardOn x guard tid = false then []
    else (h.words i).map (fun w => 1024 * h.unit + w)

/-- The most words that a list, without repeats, has in one of the 64 banks (R162). -/
def bankCycles (ws : List Nat) : Nat :=
  (upto 0 64).foldl (fun m b => max m (ws.filter (fun w => w % 64 == b)).length) 0

/-- The cycles of the issue port that an instruction takes for a group (R162). DEDUCED: assumption 11. -/
def State.portCycles (s : State) (x : Ctx) (i : Instr) : Nat :=
  let k := fun (peer : BitVec 1) (core : BitVec 2) (h : BitVec 5) (va : BitVec 6) (guard : Option Nat) =>
    max 1 (bankCycles (dedupSorted (sortNat (x.group.flatMap
      (s.bankWords x (peer == 1) core.toNat h.toNat va.toNat guard)))))
  match i with
  | .tld f => k f.peer f.core f.h f.va (some f.p.toNat)
  | .tst f => k f.peer f.core f.h f.va (some f.p.toNat)
  | .tatom f => k f.peer f.core f.h f.va none
  | _ => 1

/-! ### TALLOC -/

/-- The teams resident on a core. -/
def State.teamsOn (s : State) (c : Nat) : List Nat :=
  (s.teams.filter (fun t => decide (t.2.onCore = some c))).map Prod.fst

/-- Tile-table entries in use (R156). -/
def State.tilesUsed (s : State) (c : Nat) : Nat := ((s.teamsOn c).map (fun k => (s.team k).h.length)).foldl (· + ·) 0

/-- The units of the scratchpad in use: first unit and length. -/
def State.unitsUsed (s : State) (c : Nat) : List (Nat × Nat) :=
  (s.teamsOn c).flatMap (fun k => ((s.team k).h.filter (fun h => h.2.units != 0)).map (fun h => (h.2.unit, h.2.units)))

/-- Units of a core's scratchpad (R82). -/
def Core.scrUnits (k : Core) : Nat := 16 * (k.pbScr - k.pbReg)

/-- The lowest run of free units (R156), from a unit up, with n places left to try. -/
def freeRun (used : List (Nat × Nat)) (u total : Nat) : Nat → Nat → Option Nat
  | 0, _ => none
  | n + 1, lo =>
    if total < lo + u then none
    else if used.any (fun r => meets r.1 r.2 lo u) then freeRun used u total n (lo + 1)
    else some lo

/-- The handle that a shape descriptor gives at a level, or none where it breaks R155. -/
def shapeOf (lv : Level) (d : List Byte) : Option Handle :=
  let rows := fieldAt d 0 2
  let cols := fieldAt d 2 2
  let es := fieldAt d 4 1
  let base := fieldAt d 8 8
  let rs := fieldAt d 0x10 4
  let cs := fieldAt d 0x14 4
  let ok := rows != 0 && cols != 0 && (es == 4 || es == 8) && fieldAt d 5 3 == 0 && fieldAt d 0x18 8 == 0
  let lvOk := match lv with
    | .scr => true
    | .ring => decide (2 ≤ rows) && decide (rows ≤ 64) && es == 4
    | .gwin => base % es == 0 && rs % es == 0 && cs % es == 0
  if !ok || !lvOk then none else
  let g := lv == .gwin
  some
    { level := lv, rows := rows, cols := cols, wide := es == 8, base := BitVec.ofNat 64 (if g then base else 0),
      rstride := BitVec.ofNat 32 (if g then rs else 0), cstride := BitVec.ofNat 32 (if g then cs else 0), phead := 0,
      chead := 0, slots := [], unit := 0, data := [], bad := [] }

/-- Consecutive doublewords loaded for a gang's threads, as LD.D at TEAM scope (R401), n of them. -/
def State.loadDWords (s : State) (x : Ctx) (tids : List Nat) (a : DWord) : Nat → Except LaneOut (List Byte) × State
  | 0 => (.ok [], s)
  | n + 1 =>
    match s.loadChecked x tids .team a 8 .normal false with
    | (.error o, s) => (.error o, s)
    | (.ok v, s) =>
      match s.loadDWords x tids (a + 8) n with
      | (.error o, s) => (.error o, s)
      | (.ok r, s) => (.ok (toBytes 8 v.toNat ++ r), s)

/-- A stop of a gang's access. -/
def LaneOut.asGang (o : LaneOut) : GangOut :=
  match o with
  | .trap i => .trap i
  | .park va acc cause => .park va acc cause
  | _ => .done []

/-- TALLOC once its descriptor is read (R401). -/
def State.allocate (s : State) (x : Ctx) (lv : Level) (n : Nat) (a : DWord) (d : List Byte) : GangOut × State :=
  let t := s.team x.team
  let core := s.core x.core
  let bad := fun (r : Nat) => (GangOut.trap (x.tileTrap r n false a), s)
  match shapeOf lv d with
  | none => bad 9
  | some h =>
    if core.scrUnits < h.units then bad 9
    else if Config.tileEntries ≤ s.tilesUsed x.core then bad 6
    else if h.units == 0 then (.done [], s.setHandle x.team n h)
    else if t.tsUnits < (t.h.map (fun e => e.2.units)).foldl (· + ·) 0 + h.units then bad 7
    else match freeRun (s.unitsUsed x.core) h.units core.scrUnits (core.scrUnits + 1) 0 with
      | none => bad 5
      | some u => (.done [], s.setHandle x.team n { h with unit := u })

/-- TALLOC (R401, R402). -/
def tallocInstr (f : FTalloc) : GInstr :=
  { srcs := [f.sb.toNat], irrev := false, realOnly := true, dst := none, lat := none,
    body := fun x g vs s =>
      let a := vs.headD 0
      if ((s.team x.team).handle? f.h.toNat).isSome then (.trap (x.tileTrap 2 f.h.toNat false a), s)
      else if a.toNat % 8 != 0 then (.trap (x.trap causeMisaligned a 0), s)
      else match s.loadDWords x (x.ofGang (s.team x.team) g) a 4 with
        | (.error o, s) => (o.asGang, s)
        | (.ok d, s) => s.allocate x f.level f.h.toNat a d }

/-- TALLOC. -/
def execTalloc (f : FTalloc) (s : State) : Host.Outcome State Fault Refusal := execGangs (tallocInstr f) s

/-! ### TFREE and TINFO -/

/-- Does a copy operand name an own handle (R235)? -/
def operandNames (op : List Byte) (pos h : Nat) : Bool :=
  let peer := fieldAt op 0xA 1
  fieldAt op 8 1 % 4 != 0 && fieldAt op 9 1 % 32 == h && (peer < 128 || peer % 4 == pos)

/-- Does a copy descriptor of a team name a handle of the poster (R234)? -/
def copyNames (fn : Nat) (d : List Byte) (pos h : Nat) : Bool :=
  if fn == 0x30 then false
  else operandNames ((d.drop 0x10).take 16) pos h || (fn != 0x09 && operandNames ((d.drop 0x20).take 16) pos h)

/-- Does a request descriptor name a handle (R217 to R221)? -/
def matrixNames (d : List Byte) (h : Nat) : Bool :=
  let at_ := fun (o : Nat) => fieldAt d o 1 % 32 == h
  let cv := fun (o : Nat) => natBit (fieldAt d o 1) 7 && at_ o
  let fmt := fieldAt d 0x10 1
  match fieldAt d 0 1 with
  | 0x10 => at_ 0x11 || (natBit fmt 2 && at_ 0x12) || (natBit fmt 3 && at_ 0x13)
  | 0x11 => at_ 0x12 || (natBit fmt 3 && at_ 0x13) || cv 0x14
  | 0x12 => at_ 0x11 || cv 0x12
  | 0x13 => cv 0x14
  | _ => false

/-- Does an engine command that has not completed name a handle of the team (R240, R405)? One whose descriptor cannot be read yet
may name any handle, and counts as naming each: its team's, and for a CPYM its whole grid's; a DGST names none.
DESIGN CHOICE: assumption 13. -/
def State.handleBusy (s : State) (k h : Nat) : Bool :=
  let pos := (s.team k).leaguePos
  s.postedMatrix.any (fun r => r.team == k && (match r.desc with
      | some d => matrixNames d h
      | none => true))
    || s.postedCopies.any (fun r => match r.desc with
      | some d => (r.team == k && copyNames r.fn d pos h)
          || (r.fn == 0x09 && fieldAt d 0x29 1 % 32 == h && (s.receivers r.team d).contains k)
      | none => r.fn != 0x30 && (r.team == k || (r.fn == 0x09 && (s.team r.team).grid == (s.team k).grid)))

/-- TFREE (R405). -/
def tfreeInstr (f : FTfree) : GInstr :=
  { srcs := [], irrev := false, realOnly := true, dst := none, lat := none,
    body := fun x _ _ s =>
      let n := f.h.toNat
      if ((s.team x.team).handle? n).isNone then (.trap (x.tileTrap 1 n false 0), s)
      else if s.handleBusy x.team n then (.trap (x.tileTrap 8 n false 0), s)
      else (.done [], s.updTeam x.team (fun t => { t with h := t.h.erase n })) }

/-- TFREE. -/
def execTfree (f : FTfree) (s : State) : Host.Outcome State Fault Refusal := execGangs (tfreeInstr f) s

/-- The slots of a ring in a state. -/
def Handle.slotsIn (h : Handle) (st : SlotState) : Nat :=
  ((upto 0 h.rows).filter (fun i => decide (Tab.get SlotState.free h.slots i = st))).length

/-- The word of TINFO (R160). -/
def Handle.info (h : Handle) : DWord :=
  let ring := if h.level = .ring then
      h.slotsIn .free * 2 ^ 57 + h.slotsIn .filled * 2 ^ 50 + h.phead * 2 ^ 44 + h.chead * 2 ^ 38
    else 0
  BitVec.ofNat 64 (ring + (if h.wide then 2 ^ 35 else 0) + levelCode h.level * 2 ^ 32 + h.cols * 2 ^ 16 + h.rows)

/-- TINFO (R406), interlocked. -/
def tinfoInstr (f : FTinfo) : GInstr :=
  { srcs := [], irrev := false, realOnly := false, dst := some f.sb.toNat, lat := none,
    body := fun x _ _ s =>
      match (s.team x.team).handle? f.h.toNat with
      | none => (.trap (x.tileTrap 1 f.h.toNat false 0), s)
      | some h => (.done [(f.sb.toNat, h.info)], s) }

/-- TINFO. -/
def execTinfo (f : FTinfo) (s : State) : Host.Outcome State Fault Refusal := execGangs (tinfoInstr f) s

/-! ### Rings (R164, R165, R394) -/

/-- The state of a ring's slot. -/
def Handle.slot (h : Handle) (i : Nat) : SlotState := Tab.get .free h.slots i

/-- A slot's state, written. -/
def Handle.setSlot (h : Handle) (i : Nat) (st : SlotState) : Handle := { h with slots := Tab.set h.slots i st }

/-- RGET of a side (R164): the slot granted and the ring after it, or none while the condition fails. -/
def Handle.take (h : Handle) (cons : Bool) : Option (Nat × Handle) :=
  if cons then
    if h.slot h.chead = .filled then
      some (h.chead, { h.setSlot h.chead .taken with chead := (h.chead + 1) % h.rows })
    else none
  else
    if h.slot h.phead = .free then
      some (h.phead, { h.setSlot h.phead .reserved with phead := (h.phead + 1) % h.rows })
    else none

/-- RPUT of a slot by a side (R164). -/
def Handle.give (h : Handle) (cons : Bool) (i : Nat) : Option Handle :=
  if h.rows ≤ i then none
  else if cons then (if h.slot i = .taken then some (h.setSlot i .free) else none)
  else (if h.slot i = .reserved then some (h.setSlot i .filled) else none)

/-- A ring of the team, for RGET and RPUT: reasons 1 and 4 (R394). -/
def State.ringOf (s : State) (x : Ctx) (n : Nat) : Except TrapInfo Handle :=
  match (s.team x.team).handle? n with
  | none => .error (x.tileTrap 1 n false 0)
  | some h => if h.level = .ring then .ok h else .error (x.tileTrap 4 n false 0)

/-- RPUT (R394). -/
def rputInstr (f : FRing) : GInstr :=
  { srcs := [f.sb.toNat], irrev := false, realOnly := true, dst := none, lat := none,
    body := fun x _ vs s =>
      match s.ringOf x f.h.toNat with
      | .error e => (.trap e, s)
      | .ok h =>
        let a := vs.headD 0
        match h.give (f.cons = 1) a.toNat with
        | none => (.trap (x.tileTrap 10 f.h.toNat false a), s)
        | some h => (.done [], s.setHandle x.team f.h.toNat h) }

/-- RPUT. -/
def execRput (f : FRing) (s : State) : Host.Outcome State Fault Refusal := execGangs (rputInstr f) s

/-- An s register of a gang replied to (R45). -/
def State.reply (s : State) (k g sd : Nat) (a : DWord) : State :=
  s.updTeam k (fun t => { t with results := t.results ++ [{ load := false, vs := [], ss := [(g, sd, a)], flags := 0 }] })

/-- The gangs of an RGET served in order, until one must wait (R165); those that are left are answered. -/
def State.serveRget (s : State) (k h : Nat) (cons : Bool) (sb : Nat) : List GangWait → List GangWait × State
  | [] => ([], s)
  | g :: r =>
    match (s.team k).handle? h with
    | none => ([], s)
    | some d =>
      match d.take cons with
      | none => (g :: r, s)
      | some (i, d) => ((s.setHandle k h d).reply k g.gang sb (BitVec.ofNat 64 i)).serveRget k h cons sb r

/-- RGET (R165, R394): a gang whose condition fails leaves the pass waiting, the later gangs behind it. -/
def execRget (f : FRing) (s : State) : Host.Outcome State Fault Refusal :=
  match s.ctx with
  | none => .next s
  | some x => .next (
    let t := s.team x.team
    match s.ringOf x f.h.toNat with
    | .error e => s.trapReal x.team (sortNat x.group) e
    | .ok _ =>
      let ws := (x.realGangs t).map (fun g => { gang := g, tids := x.ofGang t g, a := 0, b := 0 : GangWait })
      let (left, s) := s.serveRget x.team f.h.toNat (f.cons = 1) f.sb.toNat ws
      if left.isEmpty then s
      else s.updPass x.core x.team (fun p =>
        { p with wait := some (.rget (f.cons = 1) f.h.toNat f.sb.toNat left x.cc) }))

end Sys2Proof.Machine
end

