-- ==== Sys2Proof/Machine/Uniform.lean ====
section
/-! DEFINITION. The uniform instructions and the special registers: UOP (R414), UADDI (R413), LMAP (R385, R386), PLOG (R392,
R393), GETS (R374 to R376) and SETS (R396, R397). -/

namespace Sys2Proof.Machine

/-! ### UOP and UADDI -/

/-- A UOP: both sources of the gang, fixed latency 4 (R414). -/
def uop (f : FS) (g : DWord → DWord → DWord) : GInstr :=
  { srcs := [f.sa.toNat, f.sb.toNat], irrev := false, realOnly := false, dst := some f.sd.toNat, lat := some 4,
    body := fun _ _ vs s => (.done [(f.sd.toNat, g (vs.headD 0) ((vs.drop 1).headD 0))], s) }

/-- b[5:0]. -/
def amount64 (b : DWord) : Nat := b.toNat % 64

/-- UADD (R414). -/
def execUadd (f : FS) (s : State) : Host.Outcome State Fault Refusal :=
  execGangs (uop f (fun a b => a + b)) s

/-- USUB (R414). -/
def execUsub (f : FS) (s : State) : Host.Outcome State Fault Refusal :=
  execGangs (uop f (fun a b => a - b)) s

/-- UMUL (R414). -/
def execUmul (f : FS) (s : State) : Host.Outcome State Fault Refusal :=
  execGangs (uop f (fun a b => a * b)) s

/-- UMULH.U (R414). -/
def execUmulhU (f : FS) (s : State) : Host.Outcome State Fault Refusal :=
  execGangs (uop f (fun a b => BitVec.ofNat 64 (a.toNat * b.toNat / 2 ^ 64))) s

/-- UAND (R414). -/
def execUand (f : FS) (s : State) : Host.Outcome State Fault Refusal :=
  execGangs (uop f (fun a b => a &&& b)) s

/-- UOR (R414). -/
def execUor (f : FS) (s : State) : Host.Outcome State Fault Refusal :=
  execGangs (uop f (fun a b => a ||| b)) s

/-- UXOR (R414). -/
def execUxor (f : FS) (s : State) : Host.Outcome State Fault Refusal :=
  execGangs (uop f (fun a b => a ^^^ b)) s

/-- USHL (R414). -/
def execUshl (f : FS) (s : State) : Host.Outcome State Fault Refusal :=
  execGangs (uop f (fun a b => a <<< amount64 b)) s

/-- USHR.U (R414). -/
def execUshrU (f : FS) (s : State) : Host.Outcome State Fault Refusal :=
  execGangs (uop f (fun a b => a >>> amount64 b)) s

/-- USHR.S (R414). -/
def execUshrS (f : FS) (s : State) : Host.Outcome State Fault Refusal :=
  execGangs (uop f (fun a b => a.sshiftRight (amount64 b))) s

/-- UMIN.S (R414). -/
def execUminS (f : FS) (s : State) : Host.Outcome State Fault Refusal :=
  execGangs (uop f (fun a b => if a.slt b then a else b)) s

/-- UMIN.U (R414). -/
def execUminU (f : FS) (s : State) : Host.Outcome State Fault Refusal :=
  execGangs (uop f (fun a b => if a.ult b then a else b)) s

/-- UMAX.S (R414). -/
def execUmaxS (f : FS) (s : State) : Host.Outcome State Fault Refusal :=
  execGangs (uop f (fun a b => if a.slt b then b else a)) s

/-- UMAX.U (R414). -/
def execUmaxU (f : FS) (s : State) : Host.Outcome State Fault Refusal :=
  execGangs (uop f (fun a b => if a.ult b then b else a)) s

/-- USLT.S (R414). -/
def execUsltS (f : FS) (s : State) : Host.Outcome State Fault Refusal :=
  execGangs (uop f (fun a b => if a.slt b then 1 else 0)) s

/-- USLT.U (R414). -/
def execUsltU (f : FS) (s : State) : Host.Outcome State Fault Refusal :=
  execGangs (uop f (fun a b => if a.ult b then 1 else 0)) s

/-- USEQ (R414). -/
def execUseq (f : FS) (s : State) : Host.Outcome State Fault Refusal :=
  execGangs (uop f (fun a b => if a = b then 1 else 0)) s

/-- UADDI (R413). -/
def uaddiInstr (f : FSi) : GInstr :=
  { srcs := [f.sa.toNat], irrev := false, realOnly := false, dst := some f.sd.toNat, lat := some 4,
    body := fun _ _ vs s => (.done [(f.sd.toNat, vs.headD 0 + f.imm.signExtend 64)], s) }

/-- UADDI. -/
def execUaddi (f : FSi) (s : State) : Host.Outcome State Fault Refusal := execGangs (uaddiInstr f) s

/-! ### LMAP and PLOG -/

/-- LMAP (R385): the highest gang's value remains. -/
def lmapInstr (f : FLmap) : GInstr :=
  { srcs := [f.sa.toNat], irrev := false, realOnly := true, dst := none, lat := none,
    body := fun x _ vs s =>
      (.done [], s.updTeam x.team (fun t =>
        { t with lm := Tab.set t.lm f.m.toNat ((vs.headD 0).extractLsb' 0 16) })) }

/-- LMAP. -/
def execLmap (f : FLmap) (s : State) : Host.Outcome State Fault Refusal := execGangs (lmapInstr f) s

/-- WALL in whole ns (R60, R376). DESIGN CHOICE: assumption 79. -/
def State.wallNs (s : State) : Nat := s.part.wall / Config.unitsPerNs

/-- A program-log record (R392). -/
def Team.plogRecord (t : Team) (value : DWord) (wall ch g : Nat) : List Byte :=
  toBytes 8 value.toNat ++ toBytes 8 wall ++ toBytes 8 t.ctxid.toNat ++ toBytes 4 t.teamId.toNat ++ toBytes 1 ch
    ++ toBytes 1 g ++ toBytes 2 0

/-- PLOG (R392, R393): a disabled channel is ignored; a record without room is dropped and counted; it never traps. -/
def plogInstr (f : FKs) : GInstr :=
  { srcs := [f.sa.toNat], irrev := false, realOnly := true, dst := none, lat := none,
    body := fun x g vs s =>
      let d := coreDie x.core
      let die := s.die d
      if !die.plogMask.getLsbD f.idx.toNat then (.done [], s) else
      let (r, m, _) := die.pl.pushOrDrop s.mem ((s.team x.team).plogRecord (vs.headD 0) s.wallNs f.idx.toNat g)
      (.done [], (s.setMem m).setDie d { die with pl := r })
    calm := true }

/-- PLOG. -/
def execPlog (f : FKs) (s : State) : Host.Outcome State Fault Refusal := execGangs (plogInstr f) s

/-! ### GETS and SETS -/

/-- The value of a special register of team scope or wider at an issue (R60, R375, R376). -/
def State.special (s : State) (x : Ctx) (n : Nat) : DWord :=
  let t := s.team x.team
  match n with
  | 0x00 => t.teamId.zeroExtend 64
  | 0x01 => t.leagueId.zeroExtend 64
  | 0x02 => BitVec.ofNat 64 t.leaguePos
  | 0x03 => t.gridTeams.zeroExtend 64
  | 0x04 => BitVec.ofNat 64 t.t
  | 0x05 => BitVec.ofNat 64 t.w
  | 0x06 => BitVec.ofNat 64 t.gangs
  | 0x07 => BitVec.ofNat 64 x.cc
  | 0x08 => BitVec.ofNat 64 s.wallNs
  | 0x09 => t.frm.zeroExtend 64
  | 0x0A => (t.settleFlags x.cc).fflags.zeroExtend 64
  | 0x0B => t.trapVec
  | 0x11 => if t.waitCheck then 1 else 0
  | 0x12 => t.btimeout.zeroExtend 64
  | 0x13 => s.part.capVa
  | 0x14 => t.ctxid
  | _ => 0

/-- The value of a special register of thread scope (R60). -/
def Thread.special (x : Thread) (n : Nat) : DWord :=
  match n with
  | 0x0C => x.trapCause.zeroExtend 64
  | 0x0D => x.info0
  | 0x0E => x.info1
  | 0x0F => x.trapPc
  | 0x10 => x.regionCnt.zeroExtend 64
  | _ => 0

/-- v[32·IDX4[0] + SA] of GETS and SETS (R374). -/
def specReg (f : FSpec) : Nat := 32 * f.hi.toNat + f.sa.toNat

/-- Is the special register 64 bits wide, of those of thread scope (R60)? -/
def wideSpecial (n : Nat) : Bool := n == 0x0D || n == 0x0E || n == 0x0F

/-- GETS to an s register (R375). -/
def getsGang (f : FSpec) : GInstr :=
  { srcs := [], irrev := false, realOnly := false, dst := some f.sa.toNat, lat := some 4,
    body := fun x _ _ s => (.done [(f.sa.toNat, s.special x f.num.toNat)], s) }

/-- GETS to a v register or pair (R375). -/
def getsThread (f : FSpec) : MInstr :=
  { guard := none, opds := [], irrev := false, dst := slotsOf (wideSpecial f.num.toNat) (specReg f), lat := some 4, load := false,
    body := fun x tid _ s =>
      let a := ((s.team x.team).thread tid).special f.num.toNat
      let d := specReg f
      (.vals (if wideSpecial f.num.toNat then [(d, lo32 a), (d + 1, hi32 a)] else [(d, lo32 a)]), s) }

/-- GETS. -/
def execGets (f : FSpec) (s : State) : Host.Outcome State Fault Refusal :=
  if f.vk = 1 then execThreads (getsThread f) s else execGangs (getsGang f) s

/-- A special register of team scope written, to its width (R61, R396, R397). -/
def Team.setSpecial (t : Team) (cc n : Nat) (a : DWord) : Team :=
  match n with
  | 0x09 => { t with frm := a.extractLsb' 0 2 }
  | 0x0A => { t.settleFlags cc with fflags := a.extractLsb' 0 5 }
  | 0x0B => { t with trapVec := a }
  | 0x11 => { t with waitCheck := a.getLsbD 0 }
  | 0x12 => { t with btimeout := a.extractLsb' 0 32 }
  | _ => t

/-- A special register of thread scope written, to its width (R61, R396). -/
def Thread.setSpecial (x : Thread) (n : Nat) (a : DWord) : Thread :=
  match n with
  | 0x0C => { x with trapCause := a.extractLsb' 0 8 }
  | 0x0D => { x with info0 := a }
  | 0x0E => { x with info1 := a }
  | 0x0F => { x with trapPc := a }
  | _ => x

/-- SETS from an s register (R396): the gangs in ascending order, the last write remains (R62). -/
def setsGang (f : FSpec) : GInstr :=
  { srcs := [f.sa.toNat], irrev := false, realOnly := true, dst := none, lat := none,
    body := fun x _ vs s => (.done [], s.updTeam x.team (fun t => t.setSpecial x.cc f.num.toNat (vs.headD 0))) }

/-- SETS from a v register or pair (R396): ignored outside a user handler (R61), where the register is not read either. -/
def setsThread (f : FSpec) : MInstr :=
  { guard := none, opds := [if wideSpecial f.num.toNat then .v64 (specReg f) else .v (specReg f)], irrev := false, dst := [],
    lat := none, load := false,
    body := fun x tid vs s =>
      (.done, s.updThread x.team tid (fun y => y.setSpecial f.num.toNat (val1 vs 0)))
    acts := Thread.handler }

/-- SETS. -/
def execSets (f : FSpec) (s : State) : Host.Outcome State Fault Refusal :=
  if f.vk = 1 then execThreads (setsThread f) s else execGangs (setsGang f) s

end Sys2Proof.Machine
end

