-- ==== Sys2Proof/Machine/Sync.lean ====
section
/-! DEFINITION. Format K (R350): barrier objects (R351, R357 to R366), convergence registers (R377 to R379), monitors (R292,
R293), SYSCALL (R298), TRAP, BRK, HRET (R290, R291) and YIELD (R461). -/

namespace Sys2Proof.Machine

/-! ### Blocking instructions that complete at once (R46, R283) -/

/-- A blocking instruction completes at once for threads of the group: their region entry becomes the next instruction, and
REGIONCNT counts it; where the instruction ended the body, the successor becomes it at successor evaluation. A thread in a
user handler keeps TRAPPC. DEDUCED: assumption 45. -/
def State.completeAtOnce (s : State) (x : Ctx) (tids : List Nat) : State :=
  match x.next with
  | some a => tids.foldl (fun s j => s.updThread x.team j (fun y =>
      if y.handler then y else { y with trapPc := a, regionCnt := y.regionCnt + 1 })) s
  | none => s.markIrrev x tids

/-! ### Barrier objects -/

/-- BINIT of an object (R359, R360): PHASE is kept unless the object was uninitialised. -/
def Barrier.binit (b : Barrier) (expect : Nat) (pend : DWord) : Barrier :=
  { pend := pend, err := 0, state := 1, phase := if b.state = 0 then false else b.phase, arrived := 0, expect := expect }

/-- Is EXPECT refused (R359)? -/
def badExpect (e : DWord) : Bool := e.extractLsb' 14 50 != 0 || e.extractLsb' 0 14 == 0 || decide (8192 < (e.extractLsb' 0 14).toNat)

/-- BINIT. -/
def binitInstr (f : FKss) : GInstr :=
  { srcs := [f.sa.toNat, f.sb.toNat], irrev := false, realOnly := true, dst := none, lat := none,
    body := fun x _ vs s =>
      let e := vs.headD 0
      if badExpect e then (.trap x.illegal, s) else
      let s := s.settleSyncs x.core
      (.done [], s.updBarrier x.team f.idx.toNat
        (fun b => b.binit (e.extractLsb' 0 14).toNat ((vs.drop 1).headD 0))) }

/-- BINIT. -/
def execBinit (f : FKss) (s : State) : Host.Outcome State Fault Refusal := execGangs (binitInstr f) s

/-- BARV (R357): one arrival for each issued real thread, in ascending TID. -/
def barvInstr (f : FKsc) : MInstr :=
  { guard := none, opds := [], irrev := true, dst := [], lat := none, load := false,
    body := fun x tid _ s =>
      let t := s.team x.team
      if s.scopeDenied t.vmid f.sc then (.trap (x.scopeTrap f.sc), s)
      else if (s.barrier x.team f.idx.toNat).state = 0 then (.trap x.illegal, s)
      else if t.isPawn tid then (.done, s)
      else (.done, s.updCore x.core (fun k =>
        { k with mseq := k.mseq + 1, arrivals := k.arrivals ++
            [{ team := x.team, tid := tid, b := f.idx.toNat, rel := wideScope f.sc, seq := k.mseq }] })) }

/-- BARV. -/
def execBarv (f : FKsc) (s : State) : Host.Outcome State Fault Refusal := execThreads (barvInstr f) s

/-- BWAIT (R364, R366): at once at a boundary, else the thread is held for the phase. -/
def bwaitInstr (f : FKsc) : MInstr :=
  { guard := none, opds := [], irrev := false, dst := [], lat := none, load := false,
    body := fun x tid _ s =>
      let n := f.idx.toNat
      if s.scopeDenied (s.team x.team).vmid f.sc then (.trap (x.scopeTrap f.sc), s) else
      let s := s.settleSyncs x.core
      let b := s.barrier x.team n
      if b.state = 0 then (.trap x.illegal, s)
      else if b.state = 2 then
        (.trap (x.trap causeEngineError (BitVec.ofNat 64 (b.err.toNat + 2 ^ 8 * n)) b.pend), s)
      else if b.atBoundary then (.done, ((s.followAll x.core x.team tid).acquire x.team f.sc).completeAtOnce x [tid])
      else (.done, s.hold x.team tid (.barrier n b.phase f.sc) x.resume) }

/-- BWAIT. -/
def execBwait (f : FKsc) (s : State) : Host.Outcome State Fault Refusal := execThreads (bwaitInstr f) s

/-- BEXP (R358). -/
def bexpInstr (f : FKs) : GInstr :=
  { srcs := [f.sa.toNat], irrev := false, realOnly := true, dst := none, lat := none,
    body := fun x _ vs s =>
      let s := s.settleSyncs x.core
      if (s.barrier x.team f.idx.toNat).state = 0 then (.trap x.illegal, s)
      else (.done [], s.updBarrier x.team f.idx.toNat (fun b => b.addPend (vs.headD 0))) }

/-- BEXP. -/
def execBexp (f : FKs) (s : State) : Host.Outcome State Fault Refusal := execGangs (bexpInstr f) s

/-- The word of BSTAT (R363). -/
def Barrier.status (b : Barrier) : DWord :=
  let p := b.pend.toInt
  let sat := if p < -32768 then -32768 else if 32767 < p then 32767 else p
  BitVec.ofNat 64 (b.word + (BitVec.ofInt 16 sat).toNat * 2 ^ 48)

/-- BSTAT (R363), interlocked. -/
def bstatInstr (f : FKs) : GInstr :=
  { srcs := [], irrev := false, realOnly := false, dst := some f.sa.toNat, lat := none,
    body := fun x _ _ s =>
      let s := s.settleSyncs x.core
      let b := s.barrier x.team f.idx.toNat
      if b.state = 0 then (.trap x.illegal, s) else (.done [(f.sa.toNat, b.status)], s) }

/-- BSTAT. -/
def execBstat (f : FKs) (s : State) : Host.Outcome State Fault Refusal := execGangs (bstatInstr f) s

/-! ### Convergence registers -/

/-- CONVERGENCE (R211). -/
def Ctx.convTrap (x : Ctx) (reason n : Nat) (err : BitVec 8) : TrapInfo :=
  x.trap causeConvergence (BitVec.ofNat 64 (reason + 2 ^ 8 * n + 2 ^ 16 * err.toNat)) 0

/-- KARM (R209, R377). -/
def karmInstr (f : FKss) : GInstr :=
  { srcs := [f.sa.toNat, f.sb.toNat], irrev := false, realOnly := true, dst := none, lat := none,
    body := fun x _ vs s =>
      let n := f.idx.toNat
      let s := s.settleSyncs x.core
      let v := (s.team x.team).conv n
      let e := (vs.drop 1).headD 0
      if v.err then (.trap (x.convTrap 4 n v.errCode), s.setConv x.team n { v with err := false })
      else if v.state ≠ 0 then (.trap (x.convTrap 2 n 0), s)
      else if e.extractLsb' 12 52 ≠ 0 ∨ e.extractLsb' 0 12 = 0 ∨ 2048 < (e.extractLsb' 0 12).toNat then
        (.trap (x.convTrap 3 n 0), s)
      else (.done [], s.setConv x.team n
        { v with desc := vs.headD 0, expect := (e.extractLsb' 0 12).toNat, signed := 0, state := 1 }) }

/-- KARM. -/
def execKarm (f : FKss) (s : State) : Host.Outcome State Fault Refusal := execGangs (karmInstr f) s

/-- The signatures of a team for a register that are on their way. -/
def Core.pendingSigs (k : Core) (team n : Nat) : Nat := (k.sigs.filter (fun g => g.team == team && g.k == n)).length

/-- KSIGN (R210, R379): one signature for each issued real thread, in ascending TID; signatures beyond EXPECT trap. -/
def ksignInstr (f : FKsc) : MInstr :=
  { guard := none, opds := [], irrev := true, dst := [], lat := none, load := false,
    body := fun x tid _ s =>
      let t := s.team x.team
      let n := f.idx.toNat
      let v := t.conv n
      if s.scopeDenied t.vmid f.sc then (.trap (x.scopeTrap f.sc), s)
      else if t.isPawn tid then (.done, s)
      else if v.err then (.trap (x.convTrap 4 n v.errCode), s.setConv x.team n { v with err := false })
      else if v.state ≠ 1 ∨ v.expect ≤ v.signed + (s.core x.core).pendingSigs x.team n then
        (.trap (x.convTrap 1 n 0), s)
      else (.done, s.updCore x.core (fun k =>
        { k with mseq := k.mseq + 1, sigs := k.sigs ++
            [{ team := x.team, tid := tid, k := n, frm := t.frm, rel := wideScope f.sc, seq := k.mseq }] })) }

/-- KSIGN. -/
def execKsign (f : FKsc) (s : State) : Host.Outcome State Fault Refusal := execThreads (ksignInstr f) s

/-! ### Monitors -/

/-- An arming performed at the line's home (R292). -/
def State.performArm (s : State) (c i : Nat) : State :=
  match (s.core c).arms[i]? with
  | none => s
  | some a =>
    (s.updCore c (fun k => { k with arms := dropAt k.arms i })).updThread a.team a.tid
      (fun y => { y with mon := some a.mon })

/-- The armings of a thread performed, at most n of them. -/
def State.settleArms (s : State) (c k tid : Nat) : Nat → State
  | 0 => s
  | n + 1 =>
    match (s.core c).arms.findIdx? (fun a => a.team == k && a.tid == tid) with
    | some i => (s.performArm c i).settleArms c k tid n
    | none => s

/-- MARM (R292): checked as a load, and sent to the line's home. -/
def marmInstr (f : FMarm) : MInstr :=
  { guard := none, opds := [.s f.sa.toNat], irrev := false, dst := [], lat := none, load := false,
    body := fun x tid vs s =>
      let va := val1 vs 0
      match s.checked x f.sc va 4 .read with
      | (.stop o, s) => (o, s)
      | (.ok pa _, s) =>
        if (s.team x.team).isPawn tid then (.done, s) else
        (.done, s.updCore x.core (fun k => { k with arms := k.arms ++
          [{ team := x.team, tid := tid, mon := { va := va, line := pa / 128, sc := f.sc, written := false } }] })) }

/-- MARM. -/
def execMarm (f : FMarm) (s : State) : Host.Outcome State Fault Refusal := execThreads (marmInstr f) s

/-- MWAIT (R293): at once when nothing is armed or the line was written, else the thread is held. s0 stands for
BTIMEOUT. -/
def mwaitInstr (f : FKsa) : MInstr :=
  { guard := none, opds := [.s f.sa.toNat], irrev := false, dst := [], lat := none, load := false,
    body := fun x tid vs s =>
      let s := s.settleArms x.core x.team tid (s.core x.core).arms.length
      let t := s.team x.team
      let timeout := if f.sa = 0 then t.btimeout.toNat else (lo32 (val1 vs 0)).toNat
      if t.isPawn tid then (.done, s.completeAtOnce x [tid]) else
      match (t.thread tid).mon with
      | none => (.done, s.completeAtOnce x [tid])
      | some m =>
        if m.written then
          (.done, (((s.followAll x.core x.team tid).updThread x.team tid (fun y => { y with mon := none })).acquire x.team m.sc).completeAtOnce x [tid])
        else
          (.done, s.hold x.team tid (.monitor (if timeout == 0 then none else some (x.cc + timeout)) timeout) x.resume) }

/-- MWAIT. -/
def execMwait (f : FKsa) (s : State) : Host.Outcome State Fault Refusal := execThreads (mwaitInstr f) s

/-! ### SYSCALL, TRAP, BRK, HRET and YIELD -/

/-- SYSCALL (R298): every issued thread joins the team's gather, pawns included, and the watch of the gather starts
afresh (R295). -/
def syscallInstr (f : FKsa) : MInstr :=
  { guard := none, opds := [], irrev := true, dst := [], lat := none, load := false,
    body := fun x tid _ s =>
      (.done, (s.hold x.team tid (.gather f.sa.toNat) x.resume).updTeam x.team Team.resetGather) }

/-- SYSCALL. -/
def execSyscall (f : FKsa) (s : State) : Host.Outcome State Fault Refusal := execThreads (syscallInstr f) s

/-- TRAP and BRK (R291): every issued real thread traps with the code. -/
def codeInstr (cause : BitVec 8) (f : FCode) : MInstr :=
  { guard := none, opds := [], irrev := false, dst := [], lat := none, load := false,
    body := fun x tid _ s =>
      if (s.team x.team).isPawn tid then (.done, s) else (.trap (x.trap cause (f.code.zeroExtend 64) 0), s) }

/-- TRAP. -/
def execTrap (f : FCode) (s : State) : Host.Outcome State Fault Refusal := execThreads (codeInstr causeUserTrap f) s

/-- BRK. -/
def execBrk (f : FCode) (s : State) : Host.Outcome State Fault Refusal := execThreads (codeInstr causeBrk f) s

/-- HRET (R290): every issued real thread returns from its handler, or traps; a pawn is in no handler and goes on (R27). -/
def execHret (_w : BitVec 2) (s : State) : Host.Outcome State Fault Refusal :=
  match s.ctx with
  | none => .next s
  | some x => .next ((x.real (s.team x.team)).foldl (fun s j => s.handlerReturn x.team j x.pc x.word) s)

/-- YIELD (R461): every issued thread is held until its pass has issued its last instruction. -/
def yieldInstr : MInstr :=
  { guard := none, opds := [], irrev := false, dst := [], lat := none, load := false,
    body := fun x tid _ s => (.done, s.hold x.team tid .yielded x.resume) }

/-- YIELD. -/
def execYield (_w : BitVec 2) (s : State) : Host.Outcome State Fault Refusal := execThreads yieldInstr s

end Sys2Proof.Machine
end

