-- ==== Sys2Proof/Machine/Queue.lean ====
section
/-! DEFINITION. Task queues (R250 to R257): placing and taking entries, held pushes and pops, TQPUSH and TQPOP (R410 to
R412). -/

namespace Sys2Proof.Machine

/-! ### Registers of a queue (R250) -/

def Queue.en (q : Queue) : Bool := q.ctl.getLsbD 0
def Queue.block (q : Queue) : Bool := q.ctl.getLsbD 1
def Queue.bound (q : Queue) : Bool := q.ctl.getLsbD 2
def Queue.share (q : Queue) : Nat := (q.ctl.extractLsb' 20 10).toNat
def Queue.asid (q : Queue) : Nat := (q.ctl.extractLsb' 32 16).toNat
def Queue.vmid (q : Queue) : Nat := (q.ctl.extractLsb' 48 16).toNat
def Queue.log2n (q : Queue) : Nat := (q.ring.extractLsb' 0 5).toNat
def Queue.base (q : Queue) : Nat := q.ring.toNat - q.ring.toNat % 256
/-- The physical address of a ring slot. -/
def Queue.slotAt (q : Queue) (i : Nat) : Nat := q.base + 64 * (i % 2 ^ q.log2n)
/-- Entries held: on chip and in the ring. -/
def Queue.count (q : Queue) : Nat := q.chip.length + q.inRing

/-- A queue of the partition by QNUM (R250). -/
def State.queue (s : State) (n : Nat) : Queue := (s.slice (n / 64)).queue (n % 64)
def State.setQueue (s : State) (n : Nat) (q : Queue) : State :=
  let sl := s.slice (n / 64)
  s.setSlice (n / 64) { sl with queues := sl.queues.set (n % 64) q }

/-! ### Entries (R252) -/

/-- An entry of 64 bytes written to memory by an agent, with its poisoned words. -/
def State.putEntry (s : State) (pa : Nat) (e : List Byte × List Nat) (vmid : Nat) : State :=
  let s := s.storeHome pa e.1 vmid
  s.setMem (e.2.foldl (fun m w => m.mark (pa / 4 + w) true) s.mem)

/-- An entry of 64 bytes read from memory with its poisoned words. -/
def Memory.entryAt (m : Memory) (pa : Nat) : List Byte × List Nat :=
  (m.read pa 64, (upto 0 16).filter (fun w => m.poisoned (pa + 4 * w) 4))

/-- A new entry placed: on chip while the ring is empty and SHARE allows, else in the ring while it has room. -/
def State.placeEntry (s : State) (n : Nat) (e : List Byte × List Nat) : Option State :=
  let q := s.queue n
  if q.inRing == 0 && decide (q.chip.length < q.share) then some (s.setQueue n { q with chip := q.chip ++ [e] })
  else if q.inRing < 2 ^ q.log2n then
    let s := s.putEntry (q.slotAt q.tail) e q.vmid
    some (s.setQueue n { q with tail := (q.tail + 1) % 2 ^ 32, inRing := q.inRing + 1 })
  else none

/-- The ring's oldest entries moved onto chip while SHARE allows, at most k of them. -/
def State.refillChip (s : State) (n : Nat) : Nat → State
  | 0 => s
  | k + 1 =>
    let q := s.queue n
    if decide (q.chip.length < q.share) && q.inRing != 0 then
      ((s.readHome (q.slotAt q.head) 64).setQueue n { q with
        chip := q.chip ++ [s.mem.entryAt (q.slotAt q.head)], head := (q.head + 1) % 2 ^ 32, inRing := q.inRing - 1 }).refillChip n k
    else s

/-- The oldest entry taken, and the chip refilled. -/
def State.takeEntry (s : State) (n : Nat) : Option ((List Byte × List Nat) × State) :=
  let q := s.queue n
  match q.chip with
  | e :: r => some (e, (s.setQueue n { q with chip := r }).refillChip n 512)
  | [] =>
    if q.inRing == 0 then none else
    some (s.mem.entryAt (q.slotAt q.head),
      ((s.readHome (q.slotAt q.head) 64).setQueue n { q with head := (q.head + 1) % 2 ^ 32, inRing := q.inRing - 1 }).refillChip n 512)

/-! ### Pops (R255) -/

/-- The write probe of a range of n doublewords: their physical addresses, or the first stop (R255, R287). -/
def State.probeWrite (s : State) (c k : Nat) (pc : DWord) (a : DWord) : Nat → Except LaneOut (List Nat) × State
  | 0 => (.ok [], s)
  | n + 1 =>
    let sp := (s.team k).space
    if !canonical a then (.error (.trap { cause := causeAccess, info0 := a, info1 := 0, pc := pc }), s) else
    match s.translate c sp a .write with
    | (.fault cause, s) => (.error (.park a .write cause), s)
    | (.access, s) => (.error (.trap { cause := causeAccess, info0 := a, info1 := 0, pc := pc }), s)
    | (.ok pa _, s) =>
      match s.probeWrite c k pc (a + 64) n with
      | (.error o, s) => (.error o, s)
      | (.ok r, s) => (.ok (pa :: r), s)

/-- Entries taken and stored at physical addresses in order, and how many (R255). The stores take effect at once: after earlier ones
to their places. -/
def State.popInto (s : State) (c n vmid : Nat) : List Nat → Nat × State
  | [] => (0, s)
  | pa :: r =>
    match s.takeEntry n with
    | none => (0, s)
    | some (e, s) =>
      let s := (s.drainFor c pa 64).putEntry pa e vmid
      let (m, s) := s.popInto c n vmid r
      (m + 1, s)

/-- A pop for threads of a team (R255, R411): its stores also follow what a FENCE or an acquire of the threads puts before them
(R181, R188). -/
def State.popFor (s : State) (c n k : Nat) (tids pas : List Nat) : Nat × State :=
  (tids.foldl (fun s j => s.afterFence c k j) s).popInto c n (s.team k).vmid pas

/-- The threads of a held pop or push stop. -/
def State.stopHeld (s : State) (c k : Nat) (tids : List Nat) (o : LaneOut) : State :=
  match o with
  | .park va acc cause => (tids.filter (fun j => !(s.team k).isPawn j)).foldl (fun s j =>
      s.faultThread c k j va ((s.team k).thread j).heldAt acc cause) s
  | .trap i => (tids.filter (fun j => !(s.team k).isPawn j)).foldl (fun s j =>
      s.trapThread k j { i with pc := ((s.team k).thread j).heldAt }) s
  | _ => s

/-- Held threads complete (R46). -/
def State.resumeAll (s : State) (k : Nat) (tids : List Nat) : State := tids.foldl (fun s j => s.resume k j) s

/-- The first held pop of a queue served, when an entry is there (R255): a resident team's. A bound queue is never popped
(R256). -/
def State.servePop (s : State) (n : Nat) : Option State :=
  let q := s.queue n
  match q.pops with
  | [] => none
  | h :: r =>
    if q.count == 0 || q.bound then none else
    match (s.team h.team).onCore with
    | none => some (s.setQueue n { q with pops := r })
    | some c =>
      let s := s.setQueue n { q with pops := r }
      let pawns := h.tids.filter (fun j => (s.team h.team).isPawn j)
      match s.probeWrite c h.team 0 h.dst h.count with
      | (.error o, s) => some ((s.stopHeld c h.team h.tids o).resumeAll h.team pawns)
      | (.ok pas, s) =>
        let (m, s) := s.popFor c n h.team h.tids pas
        let s := s.reply h.team h.gang h.sd (BitVec.ofNat 64 m)
        some ((s.acquire h.team .partition).resumeAll h.team h.tids)

/-! ### Pushes (R254) -/

/-- A held push that is complete: its reply, and its threads go on; those of a team off its core go on at its next
residency (R412). -/
def State.finishPush (s : State) (h : HeldPush) : State :=
  let t := s.team h.team
  if t.isResident then
    let s := match h.reply with
      | some sd => s.reply h.team h.gang sd (BitVec.ofNat 64 h.count)
      | none => s
    s.resumeAll h.team h.tids
  else
    let t := h.tids.foldl (fun t j =>
      let y := t.thread j
      match y.loc with
      | .held (.push _) r => t.setThread j { y with loc := .held (.finished h.reply (BitVec.ofNat 64 h.count) true) r }
      | _ => t) t
    s.setTeam h.team { t with bindable := true }

/-- The first held push of a queue moved on by an entry, or finished. -/
def State.servePush (s : State) (n : Nat) : Option State :=
  let q := s.queue n
  match q.pushes with
  | [] => none
  | h :: r =>
    match h.left with
    | [] => some ((s.setQueue n { q with pushes := r }).finishPush h)
    | e :: es =>
      match s.placeEntry n (e, []) with
      | none => none
      | some s =>
        let q := s.queue n
        some (s.setQueue n { q with pushes := { h with left := es } :: r })

/-- Teams off their cores that a queue's held pops wait for become bindable (R277). -/
def State.wakePoppers (s : State) (n : Nat) : State :=
  if (s.queue n).count == 0 || (s.queue n).bound then s else
  { s with teams := s.teams.mapVal (fun _ t =>
      if !t.isResident && t.threads.any (fun y => match y.2.loc with
        | .held (.pop q _ _ _) _ => q == n
        | _ => false) then { t with bindable := true } else t) }

/-- Pushes and pops of a queue moved on as far as they go, at most k steps. -/
def State.advanceQueue (s : State) (n : Nat) : Nat → State
  | 0 => s
  | k + 1 =>
    if !(s.queue n).en then s else
    match s.servePop n with
    | some s => s.advanceQueue n k
    | none =>
      match s.servePush n with
      | some s => s.advanceQueue n k
      | none => s.wakePoppers n

/-- As far as they go: every step takes an entry, places one or ends a wait. -/
def State.settleQueue (s : State) (n : Nat) : State :=
  let q := s.queue n
  s.advanceQueue n (2 * q.count + 2 * q.pops.length + 2 * (q.pushes.map (fun h => h.left.length + 1)).foldl (· + ·) 0 + 64)

/-- Entries pushed one after the other while they fit, held pops taking them as they come: those that are left.
DESIGN CHOICE: assumption 115. -/
def State.pushAll (s : State) (n : Nat) : List (List Byte) → List (List Byte) × State
  | [] => ([], s)
  | e :: r =>
    match s.placeEntry n (e, []) with
    | none => (e :: r, s)
    | some s =>
      let s := match s.servePop n with
        | some s => s
        | none => s
      s.pushAll n r

/-! ### The checks of a selector (R253, R257) -/

def selCount (sel : DWord) : Nat := (sel.extractLsb' 16 6).toNat
def selQ (sel : DWord) : Nat := (sel.extractLsb' 0 16).toNat
def selNb (sel : DWord) : Bool := sel.getLsbD 23

/-- The lowest reason of R257 that holds, or none. -/
def State.queueRefuse (s : State) (sel : DWord) (asid vmid : Nat) (pop : Bool) : Option Nat :=
  let n := selQ sel
  let q := s.queue n
  if decide (64 * s.nsl ≤ n) || !q.en then some 1
  else if q.asid != asid || q.vmid != vmid then some 2
  else if pop && q.bound then some 3
  else if sel.extractLsb' 24 40 != 0 || sel.getLsbD 22 || (!pop && selNb sel) || decide (32 < selCount sel) then some 4
  else none

/-- ACCESS for a selector (R257). -/
def Ctx.queueTrap (x : Ctx) (reason : Nat) (sel : DWord) : TrapInfo :=
  x.trap causeAccess (BitVec.ofNat 64 (reason + 2 ^ 16 * selQ sel)) sel

/-- n bytes cut into entries. -/
def cut64 (bs : List Byte) : Nat → List (List Byte)
  | 0 => []
  | n + 1 => bs.take 64 :: cut64 (bs.drop 64) n

/-! ### TQPUSH and TQPOP -/

/-- TQPUSH for one gang (R254, R410, R411): its release, its reads, then the push. A blocking push that completes at once
ends the region as one that waited does. -/
def tqpushInstr (f : FX) : GInstr :=
  { srcs := [f.sa.toNat, f.sb.toNat], irrev := true, realOnly := true,
    dst := if f.re = 1 then some f.sd.toNat else none, lat := none,
    body := fun x g vs s =>
      let sel := vs.headD 0
      let a := (vs.drop 1).headD 0
      let t := s.team x.team
      match s.queueRefuse sel t.asid t.vmid false with
      | some r => (.trap (x.queueTrap r sel), s)
      | none =>
        if a.toNat % 64 != 0 then (.trap (x.trap causeMisaligned a 0), s) else
        let s := s.release x.core .partition
        match s.loadDWords x (x.ofGang t g) a (8 * selCount sel) with
        | (.error o, s) => (o.asGang, s)
        | (.ok bs, s) =>
          let n := selQ sel
          let q := s.queue n
          let es := cut64 bs (selCount sel)
          let reply := fun (m : Nat) => GangOut.done (if f.re = 1 then [(f.sd.toNat, BitVec.ofNat 64 m)] else [])
          if q.block then
            let (left, s) := if q.pushes.isEmpty then s.pushAll n es else (es, s)
            let tids := x.ofGang (s.team x.team) g
            if left.isEmpty then (reply es.length, (s.settleQueue n).completeAtOnce x tids)
            else
              let s := tids.foldl (fun s j => s.hold x.team j (.push n) x.resume) s
              let q := s.queue n
              (.done [], (s.setQueue n { q with pushes := q.pushes ++
                [{ team := x.team, gang := g, tids := tids, left := left, count := es.length,
                   reply := if f.re = 1 then some f.sd.toNat else none }] }).settleQueue n)
          else
            let (left, s) := if q.pushes.isEmpty then s.pushAll n es else (es, s)
            let s := s.settleQueue n
            let m := es.length - left.length
            if f.re = 0 ∧ m < es.length then (.trap (x.trap causeQueueFull (BitVec.ofNat 64 m) 0), s)
            else (reply m, s) }

/-- TQPUSH. -/
def execTqpush (f : FX) (s : State) : Host.Outcome State Fault Refusal := execGangs (tqpushInstr f) s

/-- TQPOP for one gang (R255, R410, R411). -/
def tqpopInstr (f : FXr) : GInstr :=
  { srcs := [f.sa.toNat, f.sb.toNat], irrev := false, realOnly := true, dst := some f.sd.toNat, lat := none,
    body := fun x g vs s =>
      let sel := vs.headD 0
      let a := (vs.drop 1).headD 0
      let t := s.team x.team
      let tids := x.ofGang t g
      match s.queueRefuse sel t.asid t.vmid true with
      | some r => (.trap (x.queueTrap r sel), s)
      | none =>
        if a.toNat % 64 != 0 then (.trap (x.trap causeMisaligned a 0), s)
        else if selCount sel == 0 then (.done [(f.sd.toNat, 0)], (s.acquire x.team .partition).completeAtOnce x tids)
        else
          match s.probeWrite x.core x.team x.pc a (selCount sel) with
          | (.error o, s) => (o.asGang, s)
          | (.ok pas, s) =>
            let n := selQ sel
            let q := s.queue n
            if q.count != 0 && q.pops.isEmpty then
              let (m, s) := s.popFor x.core n x.team tids pas
              let s := (s.acquire x.team .partition).settleQueue n
              (.done [(f.sd.toNat, BitVec.ofNat 64 m)], s.completeAtOnce x tids)
            else if selNb sel then (.done [(f.sd.toNat, 0)], (s.acquire x.team .partition).completeAtOnce x tids)
            else
              let s := tids.foldl (fun s j => s.hold x.team j (.pop n (selCount sel) a f.sd.toNat) x.resume) s
              let q := s.queue n
              (.done [], s.setQueue n { q with pops := q.pops ++
                [{ team := x.team, gang := g, tids := tids, count := selCount sel, dst := a, sd := f.sd.toNat }] }) }

/-- TQPOP. -/
def execTqpop (f : FXr) (s : State) : Host.Outcome State Fault Refusal := execGangs (tqpopInstr f) s

end Sys2Proof.Machine
end

