-- ==== Sys2Proof/Machine/VecInt.lean ====
section
/-! DEFINITION. The integer vector instructions: the compact format (R116), format A and I (R418 to R420, R424, R425, R440
to R444, R448, R449), and the integer functions of VUNA (R450). -/

namespace Sys2Proof.Machine

/-! ### Shapes -/

/-- Format A on words: v[VA] and the routed v[VB] (R418). -/
def binaryA (f : FA) (lat : Nat) (g : Team → Nat → List (List (Option DWord)) → DWord × BitVec 5) : VInstr :=
  { guard := some f.p.toNat, opds := [.v f.va.toNat, .rv f.lm.toNat f.vb.toNat], dst := .v f.vd.toNat,
    lat := some lat, f := g }

/-- Format A on pairs (R417, R419). -/
def pairA (f : FA) (lat : Nat) (g : Team → Nat → List (List (Option DWord)) → DWord × BitVec 5) : VInstr :=
  { guard := some f.p.toNat, opds := [.v64 f.va.toNat, .rv64 f.lm.toNat f.vb.toNat], dst := .v64 f.vd.toNat,
    lat := some lat, f := g }

/-- The format A instruction that a compact one equals: VA = VD, VB = VS, no guard, no routing (R116). -/
def compactA (f : FC) : FA := ⟨0, f.s.zeroExtend 6, f.d, f.d, 0, 0⟩

/-- Format I: v[VA] and a constant (R420). -/
def unaryI (f : FI) (g : Word → Word → Word) : VInstr :=
  { guard := some f.p.toNat, opds := [.v f.va.toNat], dst := .v f.vd.toNat, lat := some 4,
    f := op1 (fun a => g a (f.imm.signExtend 32)) }

/-- Format U on words: the routed v[VA] (R450). -/
def unaryU (f : FU) (lat : Option Nat) (g : Team → Nat → List (List (Option DWord)) → DWord × BitVec 5) : VInstr :=
  { guard := some f.p.toNat, opds := [.rv f.lm.toNat f.va.toNat], dst := .v f.vd.toNat, lat := lat, f := g }

/-! ### Word operations (R88, R418, R441, R448, R450) -/

/-- The low 5 bits of a shift amount (R88). -/
def amount (b : Word) : Nat := b.toNat % 32

def mulhS (a b : Word) : Word := BitVec.ofInt 32 (a.toInt * b.toInt / 2 ^ 32)
def mulhU (a b : Word) : Word := BitVec.ofNat 32 (a.toNat * b.toNat / 2 ^ 32)
def minS (a b : Word) : Word := if a.slt b then a else b
def maxS (a b : Word) : Word := if a.slt b then b else a
def minU (a b : Word) : Word := if a.ult b then a else b
def maxU (a b : Word) : Word := if a.ult b then b else a
def shl (a b : Word) : Word := a <<< amount b
def shrU (a b : Word) : Word := a >>> amount b
def shrS (a b : Word) : Word := a.sshiftRight (amount b)

/-- sat_s of the exact sum (R12, R418). -/
def addSat (a b : Word) : Word :=
  let x := a.toInt + b.toInt
  if x < -2147483648 then 0x80000000 else if 2147483647 < x then 0x7FFFFFFF else BitVec.ofInt 32 x

/-- VSHI by its kind (R448). -/
def shiftBy (k : ShKind) (n : Nat) (a : Word) : Word :=
  match k with
  | .shl => a <<< n
  | .shrU => a >>> n
  | .shrS => a.sshiftRight n
  | .rot => a.rotateLeft n

/-- The count of one bits among the low n. -/
def popFrom (a : Word) : Nat → Nat
  | 0 => 0
  | n + 1 => popFrom a n + (if a.getLsbD n then 1 else 0)

/-- The count of leading zeros among the low n bits. -/
def clzFrom (a : Word) : Nat → Nat
  | 0 => 0
  | n + 1 => if a.getLsbD n then 0 else clzFrom a n + 1

/-- The low n bits reversed into the top ones. -/
def brevFrom (a : Word) : Nat → Nat
  | 0 => 0
  | n + 1 => brevFrom a n + (if a.getLsbD n then 2 ^ (31 - n) else 0)

def vclz (a : Word) : Word := BitVec.ofNat 32 (clzFrom a 32)
def vpopc (a : Word) : Word := BitVec.ofNat 32 (popFrom a 32)
def vbrev (a : Word) : Word := BitVec.ofNat 32 (brevFrom a 32)
def vabs (a : Word) : Word := if a.msb then -a else a

/-! ### Compact forms (R116) -/

/-- MOV, which is VMOV (R116). -/
def execMov (f : FC) (s : State) : Host.Outcome State Fault Refusal :=
  execVector ({ guard := some 0, opds := [.v f.s.toNat], dst := .v f.d.toNat, lat := some 4, f := op1 id }) s

/-- NOP (R116): it reads and writes nothing. -/
def execNop (s : State) : Host.Outcome State Fault Refusal := .next s

/-- The compact VADD (R116). -/
def execVaddC (f : FC) (s : State) : Host.Outcome State Fault Refusal :=
  execVector (binaryA (compactA f) 4 (op2 (fun a b => a + b))) s

/-- The compact VSUB (R116). -/
def execVsubC (f : FC) (s : State) : Host.Outcome State Fault Refusal :=
  execVector (binaryA (compactA f) 4 (op2 (fun a b => a - b))) s

/-- The compact VMUL (R116). -/
def execVmulC (f : FC) (s : State) : Host.Outcome State Fault Refusal :=
  execVector (binaryA (compactA f) 4 (op2 (fun a b => a * b))) s

/-- The compact VMIN.S (R116). -/
def execVminSC (f : FC) (s : State) : Host.Outcome State Fault Refusal :=
  execVector (binaryA (compactA f) 4 (op2 (minS))) s

/-- The compact VMAX.S (R116). -/
def execVmaxSC (f : FC) (s : State) : Host.Outcome State Fault Refusal :=
  execVector (binaryA (compactA f) 4 (op2 (maxS))) s

/-- The compact VAND (R116). -/
def execVandC (f : FC) (s : State) : Host.Outcome State Fault Refusal :=
  execVector (binaryA (compactA f) 4 (op2 (fun a b => a &&& b))) s

/-- The compact VOR (R116). -/
def execVorC (f : FC) (s : State) : Host.Outcome State Fault Refusal :=
  execVector (binaryA (compactA f) 4 (op2 (fun a b => a ||| b))) s

/-- The compact VXOR (R116). -/
def execVxorC (f : FC) (s : State) : Host.Outcome State Fault Refusal :=
  execVector (binaryA (compactA f) 4 (op2 (fun a b => a ^^^ b))) s

/-- The compact VSHL (R116). -/
def execVshlC (f : FC) (s : State) : Host.Outcome State Fault Refusal :=
  execVector (binaryA (compactA f) 4 (op2 (shl))) s

/-- The compact VSHR.U (R116). -/
def execVshrUC (f : FC) (s : State) : Host.Outcome State Fault Refusal :=
  execVector (binaryA (compactA f) 4 (op2 (shrU))) s

/-- The compact VSHR.S (R116). -/
def execVshrSC (f : FC) (s : State) : Host.Outcome State Fault Refusal :=
  execVector (binaryA (compactA f) 4 (op2 (shrS))) s

/-! ### Format A -/

/-- VADD (R418). -/
def execVadd (f : FA) (s : State) : Host.Outcome State Fault Refusal :=
  execVector (binaryA f 4 (op2 (fun a b => a + b))) s

/-- VSUB (R441). -/
def execVsub (f : FA) (s : State) : Host.Outcome State Fault Refusal :=
  execVector (binaryA f 4 (op2 (fun a b => a - b))) s

/-- VMUL (R441). -/
def execVmul (f : FA) (s : State) : Host.Outcome State Fault Refusal :=
  execVector (binaryA f 4 (op2 (fun a b => a * b))) s

/-- VMULH.S (R441). -/
def execVmulhS (f : FA) (s : State) : Host.Outcome State Fault Refusal :=
  execVector (binaryA f 4 (op2 (mulhS))) s

/-- VMULH.U (R441). -/
def execVmulhU (f : FA) (s : State) : Host.Outcome State Fault Refusal :=
  execVector (binaryA f 4 (op2 (mulhU))) s

/-- VMIN.S (R441). -/
def execVminS (f : FA) (s : State) : Host.Outcome State Fault Refusal :=
  execVector (binaryA f 4 (op2 (minS))) s

/-- VMIN.U (R441). -/
def execVminU (f : FA) (s : State) : Host.Outcome State Fault Refusal :=
  execVector (binaryA f 4 (op2 (minU))) s

/-- VMAX.S (R441). -/
def execVmaxS (f : FA) (s : State) : Host.Outcome State Fault Refusal :=
  execVector (binaryA f 4 (op2 (maxS))) s

/-- VMAX.U (R441). -/
def execVmaxU (f : FA) (s : State) : Host.Outcome State Fault Refusal :=
  execVector (binaryA f 4 (op2 (maxU))) s

/-- VAND (R418). -/
def execVand (f : FA) (s : State) : Host.Outcome State Fault Refusal :=
  execVector (binaryA f 4 (op2 (fun a b => a &&& b))) s

/-- VOR (R441). -/
def execVor (f : FA) (s : State) : Host.Outcome State Fault Refusal :=
  execVector (binaryA f 4 (op2 (fun a b => a ||| b))) s

/-- VXOR (R441). -/
def execVxor (f : FA) (s : State) : Host.Outcome State Fault Refusal :=
  execVector (binaryA f 4 (op2 (fun a b => a ^^^ b))) s

/-- VSHL (R441). -/
def execVshl (f : FA) (s : State) : Host.Outcome State Fault Refusal :=
  execVector (binaryA f 4 (op2 (shl))) s

/-- VSHR.U (R441). -/
def execVshrU (f : FA) (s : State) : Host.Outcome State Fault Refusal :=
  execVector (binaryA f 4 (op2 (shrU))) s

/-- VSHR.S (R441). -/
def execVshrS (f : FA) (s : State) : Host.Outcome State Fault Refusal :=
  execVector (binaryA f 4 (op2 (shrS))) s

/-- VADD.SAT (R418). -/
def execVaddSat (f : FA) (s : State) : Host.Outcome State Fault Refusal :=
  execVector (binaryA f 4 (op2 (addSat))) s

/-- VADD64 (R419). -/
def execVadd64 (f : FA) (s : State) : Host.Outcome State Fault Refusal :=
  execVector (pairA f 4 (op64 (fun a b => a + b))) s

/-- VSUB64 (R449). -/
def execVsub64 (f : FA) (s : State) : Host.Outcome State Fault Refusal :=
  execVector (pairA f 4 (op64 (fun a b => a - b))) s

/-- VCMP (R425). -/
def execVcmp (f : FCmp ICond) (s : State) : Host.Outcome State Fault Refusal :=
  execVector (
    { guard := some f.p.toNat, opds := [.v f.va.toNat, .rv f.lm.toNat f.vb.toNat], dst := .p f.pd.toNat, lat := some 4,
      f := scalar (fun _ l => match l with
        | [a, b] => (predVal (condHolds f.cond (lo32 a) (lo32 b)), 0)
        | _ => (0, 0)) }) s

/-- VSEL (R444): both sources are consumed. R127's order of equal shortfalls does not name its selecting predicate, which stands
after VB. DESIGN CHOICE: assumption 90. -/
def execVsel (f : FSel) (s : State) : Host.Outcome State Fault Refusal :=
  execVector (
    { guard := some f.p.toNat, opds := [.v f.va.toNat, .v f.vb.toNat, .p f.ps.toNat], dst := .v f.vd.toNat, lat := some 4,
      f := scalar (fun _ l => match l with
        | [a, b, p] => (if p = 1 then a else b, 0)
        | _ => (0, 0)) }) s

/-! ### Format I -/

/-- VADDI (R420). -/
def execVaddi (f : FI) (s : State) : Host.Outcome State Fault Refusal :=
  execVector (unaryI f (fun a k => a + k)) s

/-- VANDI (R420). -/
def execVandi (f : FI) (s : State) : Host.Outcome State Fault Refusal :=
  execVector (unaryI f (fun a k => a &&& k)) s

/-- VORI (R443). -/
def execVori (f : FI) (s : State) : Host.Outcome State Fault Refusal :=
  execVector (unaryI f (fun a k => a ||| k)) s

/-- VXORI (R443). -/
def execVxori (f : FI) (s : State) : Host.Outcome State Fault Refusal :=
  execVector (unaryI f (fun a k => a ^^^ k)) s

/-- VSHI (R448). -/
def execVshi (f : FShi) (s : State) : Host.Outcome State Fault Refusal :=
  execVector (
    { guard := some f.p.toNat, opds := [.v f.va.toNat], dst := .v f.vd.toNat, lat := some 4,
      f := op1 (shiftBy f.kind f.amount.toNat) }) s

/-- VCMPI (R425). -/
def execVcmpi (f : FCmpI) (s : State) : Host.Outcome State Fault Refusal :=
  execVector (
    { guard := some f.p.toNat, opds := [.v f.va.toNat], dst := .p f.pd.toNat, lat := some 4,
      f := scalar (fun _ l => match l with
        | [a] => (predVal (condHolds f.cond (lo32 a) (f.imm.signExtend 32)), 0)
        | _ => (0, 0)) }) s

/-- VMOVI (R442). -/
def execVmovi (f : FMovi) (s : State) : Host.Outcome State Fault Refusal :=
  execVector (
    { guard := some f.p.toNat, opds := [], dst := .v f.vd.toNat, lat := some 4,
      f := fun _ _ _ => ((f.imm.signExtend 32).zeroExtend 64, 0) }) s

/-! ### Integer functions of VUNA (R450), and VMAD (R440) -/

/-- VMOV (R450). -/
def execVmov (f : FU) (s : State) : Host.Outcome State Fault Refusal :=
  execVector (unaryU f (some 4) (op1 (id))) s

/-- VNOT (R450). -/
def execVnot (f : FU) (s : State) : Host.Outcome State Fault Refusal :=
  execVector (unaryU f (some 4) (op1 (fun a => ~~~a))) s

/-- VNEG (R450). -/
def execVneg (f : FU) (s : State) : Host.Outcome State Fault Refusal :=
  execVector (unaryU f (some 4) (op1 (fun a => -a))) s

/-- VABS (R450). -/
def execVabs (f : FU) (s : State) : Host.Outcome State Fault Refusal :=
  execVector (unaryU f (some 4) (op1 (vabs))) s

/-- VCLZ (R450). -/
def execVclz (f : FU) (s : State) : Host.Outcome State Fault Refusal :=
  execVector (unaryU f (some 4) (op1 (vclz))) s

/-- VPOPC (R450). -/
def execVpopc (f : FU) (s : State) : Host.Outcome State Fault Refusal :=
  execVector (unaryU f (some 4) (op1 (vpopc))) s

/-- VBREV (R450). -/
def execVbrev (f : FU) (s : State) : Host.Outcome State Fault Refusal :=
  execVector (unaryU f (some 4) (op1 (vbrev))) s

/-- VSEXT.B (R450). -/
def execVsextB (f : FU) (s : State) : Host.Outcome State Fault Refusal :=
  execVector (unaryU f (some 4) (op1 (fun a => (a.extractLsb' 0 8).signExtend 32))) s

/-- VSEXT.H (R450). -/
def execVsextH (f : FU) (s : State) : Host.Outcome State Fault Refusal :=
  execVector (unaryU f (some 4) (op1 (fun a => (a.extractLsb' 0 16).signExtend 32))) s

/-- VZEXT.B (R450). -/
def execVzextB (f : FU) (s : State) : Host.Outcome State Fault Refusal :=
  execVector (unaryU f (some 4) (op1 (fun a => (a.extractLsb' 0 8).zeroExtend 32))) s

/-- VZEXT.H (R450). -/
def execVzextH (f : FU) (s : State) : Host.Outcome State Fault Refusal :=
  execVector (unaryU f (some 4) (op1 (fun a => (a.extractLsb' 0 16).zeroExtend 32))) s

/-- VMAD (R440). -/
def execVmad (f : FF) (s : State) : Host.Outcome State Fault Refusal :=
  execVector (
    { guard := none, opds := [.v f.va.toNat, .v f.vb.toNat, .v f.vc.toNat], dst := .v f.vd.toNat, lat := some 4,
      f := op3 (fun a b c => a * b + c) }) s

end Sys2Proof.Machine
end

