-- ==== Sys2Proof/Machine/VecFp.lean ====
section
/-! DEFINITION. The floating-point vector instructions: FP32 (R432 to R436), BF16 pairs (R438, R439), FP64 pairs (R429,
R430), VDOT2 (R431), the floating functions of VUNA (R451), VCVT (R426 to R428), VREQ (R110) and VBDOT (R421 to R423). -/

namespace Sys2Proof.Machine

/-- A 32-bit result of a format's operation. -/
def as32 (r : Nat × BitVec 5) : Word × BitVec 5 := (BitVec.ofNat 32 r.1, r.2)
def as64 (r : Nat × BitVec 5) : DWord × BitVec 5 := (BitVec.ofNat 64 r.1, r.2)

def fadd32 (frm : BitVec 2) (a b : Word) : Word × BitVec 5 := as32 (fmt32.add frm a.toNat b.toNat)
def fsub32 (frm : BitVec 2) (a b : Word) : Word × BitVec 5 := as32 (fmt32.sub frm a.toNat b.toNat)
def fmul32 (frm : BitVec 2) (a b : Word) : Word × BitVec 5 := as32 (fmt32.mul frm a.toNat b.toNat)
def fmin32 (_ : BitVec 2) (a b : Word) : Word × BitVec 5 := as32 (fmt32.minMax false a.toNat b.toNat)
def fmax32 (_ : BitVec 2) (a b : Word) : Word × BitVec 5 := as32 (fmt32.minMax true a.toNat b.toNat)
def fma32 (neg : Bool) (frm : BitVec 2) (a b c : Word) : Word × BitVec 5 :=
  as32 (fmt32.fma frm neg a.toNat b.toNat c.toNat)

/-- An operation on the two elements of BF16 pairs, their exceptions ORed (R94). -/
def pairB16 (g : Nat → Nat × BitVec 5) : Word × BitVec 5 :=
  let lo := g 0
  let hi := g 16
  (BitVec.ofNat 32 (lo.1 + 2 ^ 16 * hi.1), lo.2 ||| hi.2)

def hadd (frm : BitVec 2) (a b : Word) : Word × BitVec 5 :=
  pairB16 (fun i => fmtB16.add frm (natBits a.toNat i 16) (natBits b.toNat i 16))
def hmul (frm : BitVec 2) (a b : Word) : Word × BitVec 5 :=
  pairB16 (fun i => fmtB16.mul frm (natBits a.toNat i 16) (natBits b.toNat i 16))
def hfma (frm : BitVec 2) (a b c : Word) : Word × BitVec 5 :=
  pairB16 (fun i => fmtB16.fma frm false (natBits a.toNat i 16) (natBits b.toNat i 16) (natBits c.toNat i 16))

/-- VDOT2 (R431). -/
def dot2 (frm : BitVec 2) (a b c : Word) : Word × BitVec 5 :=
  as32 (bf16Step frm c.toNat (wordHalves a.toNat) (wordHalves b.toNat))

/-- Format F on words (R435). -/
def ternaryF (f : FF) (lat : Nat) (g : Team → Nat → List (List (Option DWord)) → DWord × BitVec 5) : VInstr :=
  { guard := none, opds := [.v f.va.toNat, .v f.vb.toNat, .v f.vc.toNat], dst := .v f.vd.toNat, lat := some lat, f := g }

/-- The compact VFADD (R116). -/
def execVfaddC (f : FC) (s : State) : Host.Outcome State Fault Refusal :=
  execVector (binaryA (compactA f) 6 (fop2 fadd32)) s

/-- The compact VFSUB (R116). -/
def execVfsubC (f : FC) (s : State) : Host.Outcome State Fault Refusal :=
  execVector (binaryA (compactA f) 6 (fop2 fsub32)) s

/-- The compact VFMUL (R116). -/
def execVfmulC (f : FC) (s : State) : Host.Outcome State Fault Refusal :=
  execVector (binaryA (compactA f) 6 (fop2 fmul32)) s

/-- The compact VFMAX (R116). -/
def execVfmaxC (f : FC) (s : State) : Host.Outcome State Fault Refusal :=
  execVector (binaryA (compactA f) 6 (fop2 fmax32)) s

/-- VFADD (R432, R433). -/
def execVfadd (f : FA) (s : State) : Host.Outcome State Fault Refusal :=
  execVector (binaryA f 6 (fop2 fadd32)) s

/-- VFSUB (R432, R433). -/
def execVfsub (f : FA) (s : State) : Host.Outcome State Fault Refusal :=
  execVector (binaryA f 6 (fop2 fsub32)) s

/-- VFMUL (R432, R433). -/
def execVfmul (f : FA) (s : State) : Host.Outcome State Fault Refusal :=
  execVector (binaryA f 6 (fop2 fmul32)) s

/-- VFMIN (R432, R433). -/
def execVfmin (f : FA) (s : State) : Host.Outcome State Fault Refusal :=
  execVector (binaryA f 6 (fop2 fmin32)) s

/-- VFMAX (R432, R433). -/
def execVfmax (f : FA) (s : State) : Host.Outcome State Fault Refusal :=
  execVector (binaryA f 6 (fop2 fmax32)) s

/-- VFCMP (R434). -/
def execVfcmp (f : FCmp FCond) (s : State) : Host.Outcome State Fault Refusal :=
  execVector (
    { guard := some f.p.toNat, opds := [.v f.va.toNat, .rv f.lm.toNat f.vb.toNat], dst := .p f.pd.toNat, lat := some 6,
      f := scalar (fun _ l => match l with
        | [a, b] =>
          let r := fmt32.cmp f.cond (lo32 a).toNat (lo32 b).toNat
          (predVal r.1, r.2)
        | _ => (0, 0)) }) s

/-- VHADD (R438). -/
def execVhadd (f : FA) (s : State) : Host.Outcome State Fault Refusal :=
  execVector (binaryA f 6 (fop2 hadd)) s

/-- VHMUL (R438). -/
def execVhmul (f : FA) (s : State) : Host.Outcome State Fault Refusal :=
  execVector (binaryA f 6 (fop2 hmul)) s

/-- VDADD (R429). -/
def execVdadd (f : FA) (s : State) : Host.Outcome State Fault Refusal :=
  execVector (pairA f 8 (fop64 (fun frm l => match l with
    | [a, b] => as64 (fmt64.add frm a.toNat b.toNat)
    | _ => (0, 0)))) s

/-- VDMUL (R429). -/
def execVdmul (f : FA) (s : State) : Host.Outcome State Fault Refusal :=
  execVector (pairA f 8 (fop64 (fun frm l => match l with
    | [a, b] => as64 (fmt64.mul frm a.toNat b.toNat)
    | _ => (0, 0)))) s

/-- VFNEG (R451). -/
def execVfneg (f : FU) (s : State) : Host.Outcome State Fault Refusal :=
  execVector (unaryU f (some 6) (fop1 (fun _ a => (a ^^^ 0x80000000, 0)))) s

/-- VFABS (R451). -/
def execVfabs (f : FU) (s : State) : Host.Outcome State Fault Refusal :=
  execVector (unaryU f (some 6) (fop1 (fun _ a => (a &&& 0x7FFFFFFF, 0)))) s

/-- VFFLOOR (R451). -/
def execVffloor (f : FU) (s : State) : Host.Outcome State Fault Refusal :=
  execVector (unaryU f (some 6) (fop1 (fun _ a => as32 (fmt32.rint 2 false a.toNat)))) s

/-- VFCEIL (R451). -/
def execVfceil (f : FU) (s : State) : Host.Outcome State Fault Refusal :=
  execVector (unaryU f (some 6) (fop1 (fun _ a => as32 (fmt32.rint 3 false a.toNat)))) s

/-- VFTRUNC (R451). -/
def execVftrunc (f : FU) (s : State) : Host.Outcome State Fault Refusal :=
  execVector (unaryU f (some 6) (fop1 (fun _ a => as32 (fmt32.rint 1 false a.toNat)))) s

/-- VFRINT (R451). -/
def execVfrint (f : FU) (s : State) : Host.Outcome State Fault Refusal :=
  execVector (unaryU f (some 6) (fop1 (fun frm a => as32 (fmt32.rint frm true a.toNat)))) s

/-- Is the format packed in a word (R427)? -/
def isPacked (f : Fmt) : Bool :=
  match f with
  | .bf16 | .t8 | .t6 => true
  | _ => false

/-- VCVT (R427): a packed destination's old word is a source. -/
def execVcvt (f : FCvt) (s : State) : Host.Outcome State Fault Refusal :=
  execVector (
    { guard := some f.p.toNat,
      opds := [if f.src = .f64 then .v64 f.va.toNat else .v f.va.toNat]
        ++ (if isPacked f.dst then [.v f.vd.toNat] else []),
      dst := if f.dst = .f64 then .v64 f.vd.toNat else .v f.vd.toNat,
      lat := some (if f.src = .f64 ∨ f.dst = .f64 then 8 else 6),
      f := scalar (fun t l => convertElem f t.frm (l.headD 0) ((l.drop 1).headD 0)) }) s

/-- VFMA (R436). -/
def execVfma (f : FF) (s : State) : Host.Outcome State Fault Refusal :=
  execVector (ternaryF f 6 (fop3 (fma32 false))) s

/-- VFNMA (R436). -/
def execVfnma (f : FF) (s : State) : Host.Outcome State Fault Refusal :=
  execVector (ternaryF f 6 (fop3 (fma32 true))) s

/-- VHFMA (R439). -/
def execVhfma (f : FF) (s : State) : Host.Outcome State Fault Refusal :=
  execVector (ternaryF f 6 (fop3 hfma)) s

/-- VDFMA (R430). -/
def execVdfma (f : FF) (s : State) : Host.Outcome State Fault Refusal :=
  execVector (
    { guard := none, opds := [.v64 f.va.toNat, .v64 f.vb.toNat, .v64 f.vc.toNat], dst := .v64 f.vd.toNat, lat := some 8,
      f := fop64 (fun frm l => match l with
        | [a, b, c] => as64 (fmt64.fma frm false a.toNat b.toNat c.toNat)
        | _ => (0, 0)) }) s

/-- VDOT2 (R431). -/
def execVdot2 (f : FF) (s : State) : Host.Outcome State Fault Refusal :=
  execVector (ternaryF f 6 (fop3 dot2)) s

/-- VREQ (R110). -/
def execVreq (f : FReq) (s : State) : Host.Outcome State Fault Refusal :=
  execVector (
    { guard := none, opds := [.v f.va.toNat, .v f.vb.toNat], dst := .v f.vd.toNat, lat := some 6,
      f := fop2 (fun _ a b => as32 (reqWord a.toNat b.toNat)) }) s

/-- The words of the eight lanes of a block: zero where the lane is absent (R107). -/
def laneWords (l : List (Option DWord)) : List Nat := l.map (fun w => (w.getD 0).toNat)

/-- The scale byte of a present lane; 0x00, a zero scale, where the lane is absent (R107). -/
def scaleByte (bs : Nat) (l : List (Option DWord)) (i : Nat) : Nat := natBits ((laneWords l).getD i 0) (8 * bs) 8

/-- VBDOT.T8 and VBDOT.T6 in one lane (R422). -/
def bdotTap (k : Tap) (bs : Nat) (t : Team) (vs : List (List (Option DWord))) : DWord × BitVec 5 :=
  match vs with
  | [a, b, sc, acc] =>
    as64 (k.blockStep t.frm ((acc.headD none).getD 0).toNat ((laneWords a).flatMap k.elems) ((laneWords b).flatMap k.elems)
      (scaleByte bs sc 0) (scaleByte bs sc 1))
  | _ => (0, 0)

/-- The operands of a block dot: the block's va and vb, its first two lanes' vc, and the thread's own vd (R422). -/
def bdotInstr (f : FBdot) (k : Tap) : VInstr :=
  { guard := none,
    opds := [.block 0 8 f.va.toNat, .block 0 8 f.vb.toNat, .block 0 2 f.vc.toNat, .v f.vd.toNat],
    dst := .v f.vd.toNat, lat := none, f := fun t _ vs => bdotTap k f.bs.toNat t vs }

/-- VBDOT.T8 (R422). -/
def execVbdotT8 (f : FBdot) (s : State) : Host.Outcome State Fault Refusal :=
  execVector (bdotInstr f .t8) s

/-- VBDOT.T6 (R422). -/
def execVbdotT6 (f : FBdot) (s : State) : Host.Outcome State Fault Refusal :=
  execVector (bdotInstr f .t6) s

/-- VBDOT.I8 (R422). -/
def execVbdotI8 (f : FBdotI) (s : State) : Host.Outcome State Fault Refusal :=
  execVector (
    { guard := none, opds := [.block 0 8 f.va.toNat, .block 0 8 f.vb.toNat, .v f.vd.toNat], dst := .v f.vd.toNat,
      lat := none,
      f := fun _ _ vs => match vs with
        | [a, b, acc] =>
          ((lo32 ((acc.headD none).getD 0) + BitVec.ofInt 32
            (int8Sum ((laneWords a).flatMap wordBytes) ((laneWords b).flatMap wordBytes))).zeroExtend 64, 0)
        | _ => (0, 0) }) s

end Sys2Proof.Machine
end

