-- ==== Sys2Proof/Machine/Slots.lean ====
section
/-! DEFINITION. The register lines that an instruction reads and writes (R71 to R74): its slots, 0 to 63 for v, 64 for the
predicates, 65 for the index registers, thread by thread. -/

namespace Sys2Proof

open Machine

namespace Machine

/-- The slots of an instruction: those it reads and those it writes, the index register of its window (R80), the lane map
it routes through (R129), and the tile handle that decides whether v[VD] is a pair (R407). -/
structure Slots where
  reads : List Nat := []
  writes : List Nat := []
  window : Option Nat := none
  windowWrite : Bool := false
  lm : Nat := 0
  tile : Option (Bool × FT) := none
  deriving DecidableEq, Repr

/-- The predicate line, where a predicate other than p0 is read (R55). -/
def predSlot (p : Nat) : List Nat := if p == 0 then [] else [slotP]

/-- No register line. -/
def noSlots : Slots := {}

end Machine

/-- Format C (R116). -/
def FC.slots (f : FC) : Slots := { reads := [f.s.toNat, f.d.toNat], writes := [f.d.toNat] }
/-- Format A on words, and on pairs (R418, R419). -/
def FA.slots (f : FA) : Slots :=
  { reads := [f.va.toNat, f.vb.toNat] ++ predSlot f.p.toNat, writes := [f.vd.toNat], lm := f.lm.toNat }
def FA.slots64 (f : FA) : Slots :=
  { reads := slotsOf true f.va.toNat ++ slotsOf true f.vb.toNat ++ predSlot f.p.toNat, writes := slotsOf true f.vd.toNat,
    lm := f.lm.toNat }
/-- Compares (R424, R434). -/
def FCmp.slots {C : Type} (f : FCmp C) : Slots :=
  { reads := [f.va.toNat, f.vb.toNat] ++ predSlot f.p.toNat, writes := [slotP], lm := f.lm.toNat }
def FCmpI.slots (f : FCmpI) : Slots := { reads := f.va.toNat :: predSlot f.p.toNat, writes := [slotP] }
/-- VSEL (R444). -/
def FSel.slots (f : FSel) : Slots :=
  { reads := [f.va.toNat, f.vb.toNat] ++ predSlot f.p.toNat ++ predSlot f.ps.toNat, writes := [f.vd.toNat] }
/-- Format I (R420). -/
def FI.slots (f : FI) : Slots := { reads := f.va.toNat :: predSlot f.p.toNat, writes := [f.vd.toNat] }
def FShi.slots (f : FShi) : Slots := { reads := f.va.toNat :: predSlot f.p.toNat, writes := [f.vd.toNat] }
def FMovi.slots (f : FMovi) : Slots := { reads := predSlot f.p.toNat, writes := [f.vd.toNat] }
/-- Format U, and with v[VD] as a source (R445, R450). -/
def FU.slots (f : FU) : Slots :=
  { reads := f.va.toNat :: predSlot f.p.toNat, writes := [f.vd.toNat], lm := f.lm.toNat }
def FU.slots2 (f : FU) : Slots :=
  { reads := [f.va.toNat, f.vd.toNat] ++ predSlot f.p.toNat, writes := [f.vd.toNat], lm := f.lm.toNat }
/-- VCVT (R427). -/
def FCvt.slots (f : FCvt) : Slots :=
  { reads := slotsOf (f.src = .f64) f.va.toNat ++ (if isPacked f.dst then [f.vd.toNat] else []) ++ predSlot f.p.toNat,
    writes := slotsOf (f.dst = .f64) f.vd.toNat }
/-- VXL (R453 to R455). -/
def FQx.slots (f : FQx) : Slots := { reads := f.va.toNat :: predSlot f.p.toNat, writes := [f.vd.toNat] }
def FQb.slots (f : FQb) : Slots := { reads := f.va.toNat :: predSlot f.p.toNat, writes := [f.vd.toNat] }
def FVote.slots (f : FVote) : Slots := { reads := predSlot f.ps.toNat ++ predSlot f.p.toNat, writes := [slotP] }
def FBallot.slots (f : FBallot) : Slots :=
  { reads := predSlot f.ps.toNat ++ predSlot f.p.toNat, writes := slotsOf true f.vd.toNat }
def FSeti.slots (f : FSeti) : Slots := { reads := f.va.toNat :: predSlot f.p.toNat, writes := [slotI] }
def FMovx.slots (f : FMovx) : Slots :=
  { reads := slotI :: predSlot f.p.toNat, writes := [f.vd.toNat], window := some f.n.toNat }
def FStx.slots (f : FStx) : Slots :=
  { reads := [f.vs.toNat, slotI] ++ predSlot f.p.toNat, window := some f.n.toNat, windowWrite := true }
def FGetv.slots (f : FGetv) : Slots := { reads := predSlot f.p.toNat, writes := [f.vd.toNat] }
def FMovu.slots (f : FMovu) : Slots := { reads := predSlot f.p.toNat, writes := [f.vd.toNat] }
def FRedu.slots (f : FRedu) : Slots := { reads := f.va.toNat :: predSlot f.p.toNat, writes := [f.vd.toNat] }
/-- Format F (R435), on words and on pairs. -/
def FF.slots (f : FF) : Slots := { reads := [f.va.toNat, f.vb.toNat, f.vc.toNat], writes := [f.vd.toNat] }
def FF.slots64 (f : FF) : Slots :=
  { reads := slotsOf true f.va.toNat ++ slotsOf true f.vb.toNat ++ slotsOf true f.vc.toNat, writes := slotsOf true f.vd.toNat }
def FBdot.slots (f : FBdot) : Slots :=
  { reads := [f.va.toNat, f.vb.toNat, f.vc.toNat, f.vd.toNat], writes := [f.vd.toNat] }
def FBdotI.slots (f : FBdotI) : Slots := { reads := [f.va.toNat, f.vb.toNat, f.vd.toNat], writes := [f.vd.toNat] }
def FReq.slots (f : FReq) : Slots := { reads := [f.va.toNat, f.vb.toNat], writes := [f.vd.toNat] }
/-- Format M (R352, R382, R390, R398). -/
def FLd.slots (f : FLd) : Slots :=
  { reads := slotsOf true f.va.toNat ++ predSlot f.p.toNat, writes := slotsOf (f.sz = 3) f.vd.toNat }
def FSt.slots (f : FSt) : Slots :=
  { reads := slotsOf true f.va.toNat ++ slotsOf (f.sz = 3) f.vd.toNat ++ predSlot f.p.toNat }
def FRmw.atomSlots (f : FRmw AtomOp) : Slots :=
  { reads := slotsOf true f.va.toNat ++ slotsOf (f.wide = 1) f.vd.toNat
      ++ (if f.op = .cas then slotsOf (f.wide = 1) (f.vd.toNat + (if f.wide = 1 then 2 else 1)) else [])
      ++ predSlot f.p.toNat,
    writes := slotsOf (f.wide = 1) f.vd.toNat }
def FRmw.nmSlots (f : FRmw NmOp) : Slots :=
  { reads := slotsOf true f.va.toNat ++ slotsOf (f.wide = 1) f.vd.toNat ++ predSlot f.p.toNat }
/-- Formats T and Q (R403, R407). -/
def FT.slots (f : FT) (load : Bool) : Slots :=
  { reads := f.va.toNat :: predSlot f.p.toNat, tile := some (load, f) }
def FTatom.slots (f : FTatom) : Slots := { reads := [f.va.toNat, f.vd.toNat], writes := [f.vd.toNat] }
/-- GETS and SETS of thread scope (R374). -/
def FSpec.getSlots (f : FSpec) : Slots :=
  if f.vk = 1 then { writes := slotsOf (wideSpecial f.num.toNat) (specReg f) } else {}
def FSpec.setSlots (f : FSpec) : Slots :=
  if f.vk = 1 then { reads := slotsOf (wideSpecial f.num.toNat) (specReg f) } else {}

namespace Machine

/-- The slots of an instruction. -/
def slotsFor (i : Instr) : Slots :=
  match i with
  | .mov f => f.slots
  | .nop => noSlots
  | .vaddC f => f.slots
  | .vsubC f => f.slots
  | .vmulC f => f.slots
  | .vandC f => f.slots
  | .vorC f => f.slots
  | .vxorC f => f.slots
  | .vshlC f => f.slots
  | .vshrUC f => f.slots
  | .vshrSC f => f.slots
  | .vminSC f => f.slots
  | .vmaxSC f => f.slots
  | .vfaddC f => f.slots
  | .vfsubC f => f.slots
  | .vfmulC f => f.slots
  | .vfmaxC f => f.slots
  | .vadd f => f.slots
  | .vsub f => f.slots
  | .vmul f => f.slots
  | .vmulhS f => f.slots
  | .vmulhU f => f.slots
  | .vminS f => f.slots
  | .vminU f => f.slots
  | .vmaxS f => f.slots
  | .vmaxU f => f.slots
  | .vand f => f.slots
  | .vor f => f.slots
  | .vxor f => f.slots
  | .vshl f => f.slots
  | .vshrU f => f.slots
  | .vshrS f => f.slots
  | .vaddSat f => f.slots
  | .vadd64 f => f.slots64
  | .vsub64 f => f.slots64
  | .vcmp f => f.slots
  | .vfadd f => f.slots
  | .vfsub f => f.slots
  | .vfmul f => f.slots
  | .vfmin f => f.slots
  | .vfmax f => f.slots
  | .vfcmp f => f.slots
  | .vhadd f => f.slots
  | .vhmul f => f.slots
  | .vdadd f => f.slots64
  | .vdmul f => f.slots64
  | .vsel f => f.slots
  | .tatom f => f.slots
  | .vaddi f => f.slots
  | .vandi f => f.slots
  | .vori f => f.slots
  | .vxori f => f.slots
  | .vshi f => f.slots
  | .vcmpi f => f.slots
  | .vmovi f => f.slots
  | .vmov f => f.slots
  | .vnot f => f.slots
  | .vneg f => f.slots
  | .vabs f => f.slots
  | .vclz f => f.slots
  | .vpopc f => f.slots
  | .vbrev f => f.slots
  | .vfneg f => f.slots
  | .vfabs f => f.slots
  | .vffloor f => f.slots
  | .vfceil f => f.slots
  | .vftrunc f => f.slots
  | .vfrint f => f.slots
  | .vsextB f => f.slots
  | .vsextH f => f.slots
  | .vzextB f => f.slots
  | .vzextH f => f.slots
  | .vrcp f => f.slots
  | .vrsq f => f.slots
  | .vsqrt f => f.slots
  | .vex2 f => f.slots
  | .vlg2 f => f.slots
  | .vsin f => f.slots
  | .vcos f => f.slots
  | .vtanh f => f.slots
  | .vdivU f => f.slots2
  | .vdivS f => f.slots2
  | .vremU f => f.slots2
  | .vremS f => f.slots2
  | .vfdiv f => f.slots2
  | .vcvt f => f.slots
  | .qxchH f => f.slots
  | .qxchV f => f.slots
  | .qxchD f => f.slots
  | .qbcast f => f.slots
  | .vvoteAny f => f.slots
  | .vvoteAll f => f.slots
  | .vballot f => f.slots
  | .vseti f => f.slots
  | .vmovx f => f.slots
  | .vstx f => f.slots
  | .getv f => f.slots
  | .vmovu f => f.slots
  | .vredu f => f.slots
  | .vfma f => f.slots
  | .vfnma f => f.slots
  | .vmad f => f.slots
  | .vhfma f => f.slots
  | .vdfma f => f.slots64
  | .vdot2 f => f.slots
  | .vbdotT8 f => f.slots
  | .vbdotT6 f => f.slots
  | .vbdotI8 f => f.slots
  | .vreq f => f.slots
  | .ld f => f.slots
  | .st f => f.slots
  | .atom f => f.atomSlots
  | .nmred f => f.nmSlots
  | .tld f => f.slots true
  | .tst f => f.slots false
  | .uadd _ => noSlots
  | .usub _ => noSlots
  | .umul _ => noSlots
  | .umulhU _ => noSlots
  | .uand _ => noSlots
  | .uor _ => noSlots
  | .uxor _ => noSlots
  | .ushl _ => noSlots
  | .ushrU _ => noSlots
  | .ushrS _ => noSlots
  | .uminS _ => noSlots
  | .uminU _ => noSlots
  | .umaxS _ => noSlots
  | .umaxU _ => noSlots
  | .usltS _ => noSlots
  | .usltU _ => noSlots
  | .useq _ => noSlots
  | .uaddi _ => noSlots
  | .xstat _ => noSlots
  | .cpy _ => noSlots
  | .cpym _ => noSlots
  | .cpyz _ => noSlots
  | .mlds _ => noSlots
  | .mstrm _ => noSlots
  | .mdrn _ => noSlots
  | .mzacc _ => noSlots
  | .tqpush _ => noSlots
  | .tqpop _ => noSlots
  | .dgst _ => noSlots
  | .binit _ => noSlots
  | .barv _ => noSlots
  | .bwait _ => noSlots
  | .bexp _ => noSlots
  | .bstat _ => noSlots
  | .fence _ => noSlots
  | .marm _ => noSlots
  | .mwait _ => noSlots
  | .karm _ => noSlots
  | .ksign _ => noSlots
  | .rget _ => noSlots
  | .rput _ => noSlots
  | .talloc _ => noSlots
  | .tfree _ => noSlots
  | .tinfo _ => noSlots
  | .lmap _ => noSlots
  | .plog _ => noSlots
  | .gets f => f.getSlots
  | .sets f => f.setSlots
  | .syscall _ => noSlots
  | .trap _ => noSlots
  | .hret _ => noSlots
  | .brk _ => noSlots
  | .yield _ => noSlots
  | .xlspawn _ => noSlots
  | .xljwait _ _ _ => noSlots
  | .xlqpush _ _ _ => noSlots
  | .passStart _ => noSlots
  | .registerLineFetch _ _ _ _ => noSlots
  | .successorEvaluation _ => noSlots
  | .entryAgeTick _ _ => noSlots
  | .resultWriteback _ => noSlots
  | .loadReply _ => noSlots
  | .storePerformedAtHome _ _ => noSlots
  | .atomAtHome _ _ => noSlots
  | .nmredUpdatePerformed _ _ => noSlots
  | .pageWalkComplete _ _ _ _ => noSlots
  | .barrierArrival _ => noSlots
  | .ksignSignature _ => noSlots
  | .monitorArming _ => noSlots
  | .mwaitTimeout _ _ => noSlots
  | .monitorTableTimeout _ _ => noSlots
  | .stalemateWatchdog _ => noSlots
  | .rgetWaitTimeout _ => noSlots
  | .enginePostTimeout _ => noSlots
  | .matrixRequestAccept _ => noSlots
  | .matrixGrant _ => noSlots
  | .matrixRequestComplete _ _ => noSlots
  | .matrixOperandFault _ _ => noSlots
  | .shadowPlaneTimeout _ => noSlots
  | .engineRampTick _ => noSlots
  | .copyCommandAccept _ => noSlots
  | .copyChannelGrant _ => noSlots
  | .copyChunkWritten _ _ => noSlots
  | .copyChunkFault _ _ => noSlots
  | .copyCommandComplete _ _ => noSlots
  | .dgstPathGrant _ => noSlots
  | .dgstComplete _ => noSlots
  | .syscallGatherComplete _ => noSlots
  | .scdone _ _ => noSlots
  | .queueSpawn _ => noSlots
  | .dispatchBind _ _ _ => noSlots
  | .slotctlPresent _ _ => noSlots
  | .teamRetirement _ => noSlots
  | .dependencePoll _ _ => noSlots
  | .bench _ => noSlots
  | .codepRebindTick _ _ _ => noSlots
  | .preempt _ => noSlots
  | .xljwaitTimeout _ => noSlots
  | .fqdoneRetry _ _ => noSlots
  | .fqdoneDeliver _ _ => noSlots
  | .ringBaseWrite _ _ => noSlots
  | .ringCtlWrite _ _ => noSlots
  | .ringHeadWrite _ _ => noSlots
  | .qctlWrite _ _ => noSlots
  | .queueDisable _ => noSlots
  | .heapWrite _ _ => noSlots
  | .cecountClear _ _ => noSlots
  | .controlRegisterWrite _ _ => noSlots
  | .dreqPreempt => noSlots
  | .dreqKill => noSlots
  | .dreqHold => noSlots
  | .dreqRelease => noSlots
  | .creqReleaseTop => noSlots
  | .creqResizeAdd _ _ => noSlots
  | .creqResizeRemove _ _ => noSlots
  | .creqSign => noSlots
  | .creqRestore => noSlots
  | .vfreezeFreeze _ => noSlots
  | .vfreezeThaw _ => noSlots
  | .freezeRollback _ => noSlots
  | .sfenceVma _ _ => noSlots
  | .hfence _ _ _ => noSlots
  | .hbeat _ => noSlots
  | .heartbeatMissed => noSlots
  | .scrub => noSlots
  | .pwrreq _ => noSlots
  | .fcodeStep => noSlots
  | .powerSample _ => noSlots
  | .clusterStart => noSlots
  | .powerUp => noSlots
  | .partitionCreate _ => noSlots
  | .firewallViolation _ => noSlots
  | .dieLink _ _ => noSlots
  | .ideFail _ => noSlots
  | .debugAccess _ => noSlots
  | .slicePortAuthFail _ => noSlots
  | .sliceReset _ => noSlots
  | .ideKeyProgram _ _ _ _ => noSlots
  | .getVersion _ => noSlots
  | .getCapabilities _ => noSlots
  | .negotiateAlgorithms _ => noSlots
  | .getDigests _ => noSlots
  | .getCertificate _ => noSlots
  | .challenge _ => noSlots
  | .getMeasurements _ => noSlots
  | .keyExchange _ => noSlots
  | .hostHartAccess _ _ => noSlots
  | .interruptPending _ => noSlots
  | .streamStop _ _ => noSlots
  | .functionReset _ _ => noSlots
  | .slicePortFrame _ _ => noSlots
  | .hostPortRequest _ _ => noSlots

/-- The lane block of a thread (R71). -/
def Team.laneBlock (t : Team) (tid : Nat) : Nat := t.gangOf tid * (t.w / 16) + t.laneOf tid / 16

/-- The slots that an instruction reaches for a thread, and whether it writes each (R73, R81). -/
def State.slotsOfThread (s : State) (x : Ctx) (d : Slots) (tid : Nat) : List (Nat × Bool) :=
  let t := s.team x.team
  let win := match d.window with
    | none => []
    | some j =>
      let i := ((t.thread tid).iget j).toNat
      if i < t.wlen then [(t.wbase + i, d.windowWrite)] else []
  let map := if d.lm == 0 then [] else
    let m := t.lmGet d.lm
    if lmMode m == 4 then [(lmParam m, false)] else []
  let tile := match d.tile with
    | none => []
    | some (load, f) => (slotsOf (s.tileWide x f && f.vd.toNat % 2 == 0) f.vd.toNat).map (fun n => (n, load))
  d.reads.map (fun n => (n, false)) ++ d.writes.map (fun n => (n, true)) ++ win ++ map ++ tile

/-- A register line that is needed: lane block, slot, and whether it is written. -/
def State.linesFor (s : State) (x : Ctx) (i : Instr) : List (Nat × Nat × Bool) :=
  let t := s.team x.team
  let d := slotsFor i
  x.group.flatMap (fun j => (s.slotsOfThread x d j).map (fun c => (t.laneBlock j, c.1, c.2)))

/-- Is a team's line in the register part? -/
def Core.hasLine (k : Core) (team q n : Nat) : Bool := k.lines.any (fun l => l.team == team && l.q == q && l.n == n)

/-- The first line that is needed and absent. -/
def Core.missing (k : Core) (team : Nat) (ls : List (Nat × Nat × Bool)) : Option (Nat × Nat) :=
  (ls.find? (fun l => !k.hasLine team l.1 l.2.1)).map (fun l => (l.1, l.2.1))

end Machine
end Sys2Proof
end

