-- ==== Sys2Proof/Machine/Sched.lean ====
section
/-! DEFINITION. Passes: the choice of an entry (R35 to R41), the start of a pass (R31, R72, R123, R275, R283, R286), the
spacing of its issues (R43, R125), register lines (R71 to R76), successor evaluation (R30) and the ages of entries (R37). -/

namespace Sys2Proof.Machine

/-! ### Block headers (R113, R114, R121 to R123) -/

/-- A word of a block header's form (R113). -/
def isHeader (w : Word) : Bool := w.extractLsb' 0 3 == 1 && w.extractLsb' 3 6 == 0x3F

/-- G and RG of a header (R121). -/
def hdrGang (w0 : Word) : Bool := w0.getLsbD 10
def hdrRegion (w0 : Word) : Bool := w0.getLsbD 9
/-- N and VLO of a header (R121). -/
def hdrN (w0 : Word) : Nat := (w0.extractLsb' 18 6).toNat
def hdrVlo (w0 : Word) : Nat := (w0.extractLsb' 12 6).toNat

/-- The fields of word 1 that its KIND leaves unused are not all zero (R122). -/
def kindBad (w1 : Word) : Bool :=
  let cp := w1.extractLsb' 3 2 != 0
  let inv := w1.extractLsb' 5 1 != 0
  let si := w1.extractLsb' 6 5 != 0
  let tgt := w1.extractLsb' 11 21 != 0
  match (w1.extractLsb' 0 3).toNat with
  | 1 => si
  | 2 => cp || inv || si
  | 4 => cp || inv || tgt
  | 6 => cp || inv || tgt
  | 7 => false
  | _ => cp || inv || si || tgt

/-- A header that its check at the start of a pass refuses (R123). -/
def headerBad (w0 w1 : Word) : Bool :=
  hdrLen w0 % 2 == 1 || decide (hdrLen w0 < 2) || w0.getLsbD 11 || decide (64 < hdrVlo w0 + hdrN w0) || kindBad w1

/-- The slots of the touch set (R72): those that exist, where a header reaches past v63. -/
def touchSet (w0 : Word) : List Nat :=
  if hdrN w0 == 0 then (if hdrVlo w0 == 0 then [] else upto 0 64) else upto (hdrVlo w0) (min (hdrN w0) (64 - hdrVlo w0))

/-- Does the body of the block at a header contain an address (R114, R286)? -/
def bodyHas (hdr : DWord) (w0 : Word) (a : DWord) : Bool :=
  decide (hdr.toNat + 8 ≤ a.toNat) && decide (a.toNat < hdr.toNat + 4 + 2 * hdrLen w0)

/-! ### The header of an entry, as the selector sees it -/

/-- A word of code, looked at without a trace. DEDUCED: assumption 44. -/
def State.peekWord (s : State) (c k : Nat) (a : DWord) : Option Word :=
  if !canonical a then none else
  match s.peek c (s.team k).space a .exec with
  | .ok pa _ => if s.mem.poisoned pa 4 then none else some (BitVec.ofNat 32 (s.mem.readNat pa 4))
  | _ => none

/-- The highest header at or below an address, n words down at most (R286). DEDUCED: assumption 24. -/
def enclosing (look : DWord → Option Word) (a : DWord) : Nat → Option (DWord × Word)
  | 0 => none
  | n + 1 =>
    match look a with
    | none => none
    | some w => if isHeader w then some (a, w) else enclosing look (a - 4) n

/-- The word address at or below an address. -/
def wordAt (a : DWord) : DWord := a &&& ~~~(3#64)

/-- The header of an entry's block and its word 0 (R46, R286), where it can be read. -/
def State.headerOf (s : State) (c : Nat) (e : Entry) : Option (DWord × Word) :=
  let look := s.peekWord c e.team
  if e.mid then e.encl.orElse (fun _ => enclosing look (wordAt e.addr) 128)
  else
    match look e.addr with
    | some w => if isHeader w then some (e.addr, w) else none
    | none => none

/-- Is the entry's block gang-converged (R40)? An entry without a header that can be read is not. -/
def State.gangEntry (s : State) (c : Nat) (e : Entry) : Bool :=
  match s.headerOf c e with
  | some (_, w) => hdrGang w
  | none => false

/-! ### Positions (R41) -/

/-- The entries and spill records of a team (R29, R32). -/
def State.entriesOf (s : State) (c k : Nat) : List Entry :=
  (s.core c).table.filter (fun e => e.team == k) ++ (s.team k).spill

/-- The passes of a team: active, waiting for successor evaluation, and selected. -/
def State.passesOf (s : State) (c k : Nat) : List Pass :=
  ((s.core c).passes ++ (s.core c).ended).filter (fun p => p.team == k) ++ (s.team k).sel.toList

/-- The position of a thread (R41); of one in a user handler, the address of the handler block that it is at or in; of one that a
blocking instruction holds, there as elsewhere, that instruction's address (R365). DEDUCED: assumption 110. -/
def State.position (s : State) (c k tid : Nat) : Option DWord :=
  let x := (s.team k).thread tid
  match x.loc with
  | .waits a =>
    if !x.handler then some a else
    match (s.entriesOf c k).find? (fun e => e.addr == a) with
    | some e => some (((s.headerOf c e).map Prod.fst).getD a)
    | none => some a
  | .held _ r => some r.pc
  | .parked => some x.trapPc
  | .pass => ((s.passesOf c k).find? (fun p => p.groups.any (fun g => g.contains tid))).map (fun p =>
      if x.handler then p.hdr else p.addr)
  | _ => none

/-! ### Selection (R35 to R40) -/

/-- The age of an entry (R37): the cycles without a pass of its team count 1 for every 256. -/
def Entry.years (e : Entry) : Nat := min 256 (e.age + e.idle / 256)

/-- The threads of an entry that are eligible (R36, R40). -/
def State.eligible (s : State) (c : Nat) (e : Entry) : List Nat :=
  let t := s.team e.team
  let ws := t.waiters e.addr
  if decide (e.years < 256) && s.gangEntry c e then
    let behind := fun (g : Nat) => t.threads.any (fun x =>
      t.gangOf x.1 == g && (match s.position c e.team x.1 with
        | some a => decide (a.toNat < e.addr.toNat)
        | none => false))
    ws.filter (fun j => !behind (t.gangOf j))
  else ws

/-- Entries of a list that have become runnable are stamped in order, and those that are not lose their stamp (R36).
DEDUCED: assumption 47. -/
def State.stampList (s : State) (c : Nat) : Nat → List Entry → Nat × List Entry
  | n, [] => (n, [])
  | n, e :: r =>
    let run := !(s.eligible c e).isEmpty
    let (e, n) := if run then
        (match e.ready with
          | some _ => (e, n)
          | none => ({ e with ready := some n }, n + 1))
      else ({ e with ready := none }, n)
    let (n, r) := s.stampList c n r
    (n, e :: r)

/-- The entries of a team stamped (R36). DEDUCED: assumption 47. -/
def State.stampEntries (s : State) (c k : Nat) : State :=
  let core := s.core c
  let mine := core.table.filter (fun e => e.team == k)
  let (n, mine) := s.stampList c core.seq mine
  let (n, sp) := s.stampList c n (s.team k).spill
  let pick := fun (e : Entry) => if e.team == k then (mine.find? (fun m => m.addr == e.addr)).getD e else e
  (s.setCore c { core with seq := n, table := core.table.map pick }).updTeam k (fun t => { t with spill := sp })

/-- The entry that the selector takes (R36): the aged runnable one that became runnable first, else the runnable one with
the lowest address. -/
def chooseEntry (es : List Entry) : Option Entry :=
  let run := es.filter (fun e => e.ready.isSome)
  match minBy (fun e => e.ready.getD 0) (run.filter (fun e => decide (256 ≤ e.years))) with
  | some e => some e
  | none => minBy (fun e => e.addr.toNat) run

/-- The groups of a pass over a block without G (R39): the k-th thread of every physical lane's list forms group k. -/
def Team.laneGroups (t : Team) (tids : List Nat) : List (List Nat) :=
  let rank := fun (j : Nat) => (tids.filter (fun i => decide (i < j) && t.planeOf i == t.planeOf j)).length
  let ranked := tids.map (fun j => (rank j, j))
  let n := ranked.foldl (fun m r => max m (r.1 + 1)) 0
  (upto 0 n).map (fun i => (ranked.filter (fun r => r.1 == i)).map Prod.snd)

/-- The groups of a pass over a gang-converged block (R40): one for each gang, ascending, at most 32. -/
def Team.gangGroups (t : Team) (tids : List Nat) : List (List Nat) :=
  ((dedupSorted (sortNat (tids.map t.gangOf))).take 32).map (fun g => tids.filter (fun j => t.gangOf j == g))

/-- A pass that has not started, with its header and touch set as far as they can be read (R72, R286). -/
def Pass.selected (k : Nat) (e : Entry) (h : Option (DWord × Word)) (groups : List (List Nat)) : Pass :=
  { team := k, addr := e.addr, mid := e.mid, hdr := (h.map Prod.fst).getD e.addr, w0 := (h.map Prod.snd).getD 0, w1 := 0, body := [], groups := groups, off := 0, k := 0,
    fresh := true, start := 0, wprev := 0, prev := [], cur := [], issuing := false, wait := none, stopped := false, blocked := false, floor := 0 }

/-- The lines that a pass needs (R72): the slots of its touch set and the predicate and index lines, in each lane block of its
threads. -/
def Pass.lines (p : Pass) (t : Team) : List (Nat × Nat × Nat) :=
  (dedupSorted (sortNat (p.groups.flatten.map t.laneBlock))).flatMap (fun q =>
    (touchSet p.w0 ++ [64, 65]).map (fun n => (p.team, q, n)))

/-- The fetches of the lines that a pass needs and the core does not hold are asked for (R73). -/
def State.wantLines (s : State) (c : Nat) (p : Pass) : State :=
  let ls := p.lines (s.team p.team)
  s.updCore c (fun k => { k with
    want := k.want ++ ls.filter (fun l => !k.want.contains l && !k.hasLine l.1 l.2.1 l.2.2) })

/-- The next pass of a team selected (R35): its threads leave their entry, threads left behind stay in it with age
0 (R37), and the fetch of its lines begins (R73). Nothing happens when one is selected already or no entry is runnable. -/
def State.selectNext (s : State) (c k : Nat) : State :=
  if (s.team k).sel.isSome || !(s.team k).isResident then s else
  let s := s.stampEntries c k
  match chooseEntry (s.entriesOf c k) with
  | none => s
  | some e =>
    let t := s.team k
    let tids := s.eligible c e
    let groups := if s.gangEntry c e then t.gangGroups tids else t.laneGroups tids
    let p := Pass.selected k e (s.headerOf c e) groups
    let t := groups.flatten.foldl (fun t j => t.setThread j { t.thread j with loc := .pass }) t
    let reset := fun (x : Entry) => if x.team == k && x.addr == e.addr then { x with age := 0, idle := 0, ready := none } else x
    let s := s.setTeam k { t with sel := some p, spill := t.spill.map reset }
    ((s.updCore c (fun core => { core with table := core.table.map reset })).sweep c k).wantLines c p

/-- Has a pass issued its last instruction to its first group (R35)? -/
def Pass.began (p : Pass) : Bool := !p.busy || (!p.cur.isEmpty && decide (p.body.length ≤ p.off + insnLen p.body p.off))

/-- The resident teams of a core. -/
def State.resident (s : State) (c : Nat) : List Nat :=
  (s.teams.filter (fun t => decide (t.2.onCore = some c) && t.2.isResident)).map Prod.fst

/-! ### Fetching a block (R114, R115, R286, R287) -/

/-- Why the fetch of a pass stops: a fault, or a trap in every thread. -/
inductive FetchStop where
  | park (va : DWord) (cause : Nat)
  | trap (i : TrapInfo)
  deriving DecidableEq, Repr

/-- A trap at the start of a pass. -/
def startTrap (cause : BitVec 8) (info0 pc : DWord) : FetchStop :=
  .trap { cause := cause, info0 := info0, info1 := 0, pc := pc }

/-- A word of code fetched for a pass on an entry. DEDUCED: assumption 44. -/
def State.fetchWord (s : State) (c k : Nat) (entry a : DWord) : Except FetchStop Word × State :=
  if !canonical a then (.error (startTrap causeAccess a entry), s) else
  match s.translate c (s.team k).space a .exec with
  | (.fault cause, s) => (.error (.park a cause), s)
  | (.access, s) => (.error (startTrap causeAccess a entry), s)
  | (.ok pa _, s) =>
    if s.mem.poisoned pa 4 then (.error (startTrap causeMemUe a entry), s)
    else (.ok (BitVec.ofNat 32 (s.mem.readNat pa 4)), s.readHome pa 4)

/-- n words of code. -/
def State.fetchWords (s : State) (c k : Nat) (entry a : DWord) : Nat → Except FetchStop (List Byte) × State
  | 0 => (.ok [], s)
  | n + 1 =>
    match s.fetchWord c k entry a with
    | (.error e, s) => (.error e, s)
    | (.ok w, s) =>
      match s.fetchWords c k entry (a + 4) n with
      | (.error e, s) => (.error e, s)
      | (.ok r, s) => (.ok (toBytes 4 w.toNat ++ r), s)

/-- The enclosing header of an entry, searched n words down (R286). -/
def State.fetchHeader (s : State) (c k : Nat) (entry a : DWord) : Nat → Except FetchStop (DWord × Word) × State
  | 0 => (.error (startTrap causeIllegalOp 0 entry), s)
  | n + 1 =>
    match s.fetchWord c k entry a with
    | (.error e, s) => (.error e, s)
    | (.ok w, s) => if isHeader w then (.ok (a, w), s) else s.fetchHeader c k entry (a - 4) n

/-- The block of a pass: its header's address and words and its body, or the stop (R31, R123, R286). Where code has been written while
a team of its launch is resident, R115 allows old, new or mixed contents: the model's pass runs what its home holds when the pass
starts. DEDUCED: assumptions 16, 24, 44. DESIGN CHOICE: assumption 106. -/
def State.fetchBlock (s : State) (c : Nat) (p : Pass) : Except FetchStop Pass × State :=
  let k := p.team
  let a0 := wordAt p.addr
  -- a handler's address that is no multiple of 4 counts as no header (R397)
  if !p.mid && p.addr.toNat % 4 != 0 then (.error (startTrap causeIllegalOp 0 p.addr), s) else
  match (if p.mid then s.fetchHeader c k p.addr a0 128 else s.fetchHeader c k p.addr a0 1) with
  | (.error e, s) => (.error e, s)
  | (.ok (hdr, w0), s) =>
    if hdr ≠ p.addr ∧ (!p.mid || !bodyHas hdr w0 p.addr) then (.error (startTrap causeIllegalOp 0 p.addr), s) else
    match s.fetchWord c k p.addr (hdr + 4) with
    | (.error e, s) => (.error e, s)
    | (.ok w1, s) =>
      if headerBad w0 w1 then (.error (startTrap causeIllegalOp 0 hdr), s) else
      match s.fetchWords c k p.addr (hdr + 8) ((hdrLen w0 - 2) / 2) with
      | (.error e, s) => (.error e, s)
      | (.ok body, s) =>
        (.ok { p with hdr := hdr, w0 := w0, w1 := w1, body := body,
                      off := if hdr = p.addr then 0 else (p.addr - hdr).toNat - 8 }, s)

/-! ### Starting a pass (R34, R35, R275, R283) -/

/-- The teams of a core that could start a pass (R275): resident, with no active pass, and something runnable. -/
def State.startable (s : State) (c : Nat) : List Nat :=
  (s.resident c).filter (fun k =>
    (s.team k).leaving.isNone && !(s.core c).passes.any (fun p => p.team == k)
      && ((s.team k).sel.isSome || (s.entriesOf c k).any (fun e => !(s.eligible c e).isEmpty)))

/-- The cycle since which each team of a core waits for a pass (R275). DEDUCED: assumption 47. -/
def State.noteWaits (s : State) (c : Nat) : State :=
  let ready := s.startable c
  let cc := (s.core c).cc
  (s.resident c).foldl (fun s k => s.updTeam k (fun t =>
    { t with waitSince := if ready.contains k then some (t.waitSince.getD cc) else none })) s

/-- The team that starts a pass (R275). DEDUCED: assumption 47. -/
def State.chooseTeam (s : State) (c : Nat) : Option Nat :=
  let ready := s.startable c
  let cc := (s.core c).cc
  let waited := ready.filter (fun k => match (s.team k).waitSince with
    | some w => decide (w + 4096 ≤ cc)
    | none => false)
  match minBy (fun k => (s.team k).waitSince.getD 0) waited with
  | some k => some k
  | none => minBy (fun k => (7 - (s.team k).prio) * 2 ^ 64 + (s.team k).lastStart) ready

/-- What the start of a pass does to a thread (R283): the region entry and REGIONCNT. DEDUCED: assumption 45. -/
def Thread.starts (x : Thread) (addr hdr : DWord) (w0 : Word) : Thread :=
  if x.handler then x else
  let r := if hdrRegion w0 && addr == hdr then hdr else x.trapPc
  { x with trapPc := r, regionCnt := if addr == r then x.regionCnt + 1 else x.regionCnt }

/-- The ages of a team's entries at the start of a pass on another entry (R37). DEDUCED: assumption 46. -/
def State.agePass (s : State) (c k : Nat) (addr : DWord) : State :=
  let up := fun (e : Entry) => if e.team == k && e.addr != addr then { e with age := min 256 (e.age + 1) } else e
  (s.updCore c (fun core => { core with table := core.table.map up })).updTeam k (fun t => { t with spill := t.spill.map up })

/-- The threads of a pass that cannot start (R27, R31, R123, R287): a fetch fault reports the address of the block.
DEDUCED: assumption 44. -/
def State.stopPass (s : State) (c : Nat) (p : Pass) (e : FetchStop) : State :=
  (sortNat p.groups.flatten).foldl (fun s j => match e with
    | .park va cause => s.faultThread c p.team j va p.hdr .exec cause
    | .trap i => if (s.team p.team).isPawn j then s.dormant p.team j else s.trapThread p.team j i) s

/-- The cycle from which every read finds the fixed-latency results of a team's earlier passes (R30, R124): a thread joins an
entry with the state that its instructions have left when they have completed. DEDUCED: assumption 8. -/
def Team.settledAt (t : Team) : Nat := t.marks.foldl (fun n m => max n (m.avail + 2)) 0

/-- A selected pass starts; it issues once the results of the team's earlier passes can be read. DEDUCED: assumption 8. -/
def State.startPass (s : State) (c k : Nat) : State :=
  match (s.team k).sel with
  | none => s
  | some p =>
    let cc := (s.core c).cc
    let s := s.updTeam k (fun t => { t with sel := none, lastStart := cc, waitSince := none })
    let s := s.agePass c k p.addr
    match s.fetchBlock c p with
    | (.error e, s) => s.stopPass c p e
    | (.ok p, s) =>
      let p := { p with start := max (cc + 1) (s.team k).settledAt }
      let s := p.groups.flatten.foldl (fun s j => s.updThread k j (fun x => x.starts p.addr p.hdr p.w0)) s
      (s.updCore c (fun core => if p.busy then { core with passes := core.passes ++ [p] }
        else { core with ended := core.ended ++ [p] })).wantLines c p

/-- PASS_START (R34, R35, R275): the core takes a pass while fewer than four are active. -/
def execPassStart (core : Nat) (s : State) : Host.Outcome State Fault Refusal :=
  if 4 ≤ (s.core core).passes.length ∨ s.halted = true then .next s else
  let s' := (s.syncCore core).noteWaits core
  match s'.chooseTeam core with
  | none => .next s
  | some k => .next (((s'.selectNext core k).startPass core k).noteWaits core)

/-! ### The spacing of issues (R43, R125) -/

/-- w of the instruction that a pass issues (R43): 0 for a 16-bit one, and for VBDOT, whose bits hold BS (R106). -/
def Pass.wField (p : Pass) : Nat :=
  let h := fieldAt p.body p.off 2
  let op := natBits h 3 6
  if h % 2 == 0 || (decide (0x31 ≤ op) && decide (op ≤ 0x33)) then 0 else natBits h 1 2

/-- The pass after an issue to its next group at a cycle. -/
def Pass.issued (p : Pass) (cycle : Nat) : Pass :=
  if p.groups.length ≤ p.k + 1 then
    { p with off := p.off + insnLen p.body p.off, k := 0, fresh := false, wprev := p.wField, prev := p.cur ++ [cycle], cur := [],
             issuing := false, floor := 0 }
  else { p with k := p.k + 1, cur := p.cur ++ [cycle], issuing := false, floor := 0 }

/-- Has a thread still to exit? -/
def Thread.live (x : Thread) : Bool := decide (x.loc ≠ .vacant) && decide (x.loc ≠ .exited)

/-- What ends once the issuing instruction has completed for every group: the threads of a context that is being killed, those
that it held or parked among them, with its pass (R296), and the pawns of a quad whose last real thread has exited (R28).
DEDUCED: assumption 42. -/
def State.endLate (s : State) (c k : Nat) : State :=
  let mine := (s.core c).passes.filter (fun p => p.team == k)
  if !mine.all (fun p => p.k == 0) then s else
  let t := s.team k
  match t.state with
  | .killed _ _ => ((t.threads.keysOf Thread.live).foldl (fun s j => s.endThread k j) s).updCore c (fun core =>
      { core with passes := core.passes.filter (fun p => p.team != k) })
  | _ =>
    let gone := (upto t.t (t.slotCount - t.t)).filter (fun j => (t.thread j).live && t.quadGone j)
    if gone.isEmpty then s else (gone.foldl (fun s j => s.endThread k j) s).sweep c k

/-- A core's pass of a team after its issue at a cycle, and what ends with the issuing instruction (R28, R43, R296). The passes that
waited for room for their register lines look for it again (R76). -/
def State.advance (s : State) (c k cycle : Nat) : State :=
  ((s.updPass c k (fun p => p.issued cycle)).updCore c (fun core =>
    { core with passes := core.passes.map (fun p => { p with blocked := false }) })).endLate c k

/-- n cycles of a core in which no instruction issues while a pass waits (R345). -/
def Core.stall (k : Core) (n : Nat) : Core := { k with stalled := if n = 0 then k.stalled else (k.cc + 1, n) :: k.stalled }

/-- A group that every thread of a pass has left passed over: it counts as issued to at e, without a cycle of the port (R43). The
pass of a killed context has ended with its last thread (R296). -/
def State.skipPass (s : State) (c : Nat) (p : Pass) : State :=
  let s := if p.k == 0 then s.endLate c p.team else s
  let e := p.due - (s.core c).cc
  ((s.updCore c (fun k => k.stall e)).tickTo c ((s.core c).cc + e)).advance c p.team p.due

/-- The cycle in which a pass issues its next instruction (R43). Where other cores have gone on in time beyond it, the pass has waited
for them. DESIGN CHOICE: assumption 7. -/
def State.issueCycle (s : State) (c : Nat) (p : Pass) : Nat :=
  max (max p.earliest ((s.core c).cc + 1)) ((s.core c).cc + s.lag c)

/-- The state in which an instruction of a team is issued (R43): the core's clock is at the issue cycle.
DESIGN CHOICE: assumption 7. -/
def State.issueAt (s : State) (c : Nat) (p : Pass) : State :=
  let cycle := s.issueCycle c p
  let s := s.updCore c (fun k => k.stall (cycle - (k.cc + 1)))
  let s := (s.tickTo c cycle).updPass c p.team (fun p => { p with issuing := true })
  s.updCore c (fun k => { k with issued := cycle :: k.issued })

/-- Finished passes of a core wait for successor evaluation, and the threads that YIELD holds go on (R34, R461). -/
def State.endPasses (s : State) (c : Nat) : State :=
  let done := (s.core c).passes.filter (fun p => !p.busy && p.wait.isNone)
  let s := s.updCore c (fun k => { k with
    passes := k.passes.filter (fun p => p.busy || p.wait.isSome), ended := k.ended ++ done })
  done.foldl (fun s p =>
    ((s.team p.team).threads.filter (fun x => match x.2.loc with
      | .held .yielded _ => true
      | _ => false)).foldl (fun s x => s.resume p.team x.1) s) s

/-- What follows every step on a core: finished passes end, entries that have become runnable are noted (R36), and teams select
their next passes (R35). The spec does not order the two effects of a one-group pass's last issue, which selects the
team's next pass (R35) and ends its YIELD holds (R461): the model ends the holds first. DESIGN CHOICE: assumption 83. -/
def State.settleCore (s : State) (c : Nat) : State :=
  let s := s.endPasses c
  (s.resident c).foldl (fun s k =>
    let s := s.stampEntries c k
    if (s.core c).passes.all (fun p => p.team != k || p.began) then s.selectNext c k else s) s

/-! ### Register lines (R71 to R76, R84, R87) -/

/-- The address of a register line in the image (R71). -/
def Team.lineAddr (t : Team) (q n : Nat) : Nat := t.imgBase + 0x30000 + 64 * (66 * q + n)

/-- The threads of a lane block, by word (R71). -/
def Team.blockTids (t : Team) (q : Nat) : List Nat :=
  let per := t.w / 16
  (upto 0 16).map (fun m => (q / per) * t.w + 16 * (q % per) + m)

/-- The word of a thread in a register line: 0 where launch filled no slot (R71). -/
def Team.lineWord (t : Team) (n tid : Nat) : Word :=
  match t.threads.find? tid with
  | some x => if x.loc = .vacant then 0 else x.slotGet n
  | none => 0

/-- A register line's 64 bytes. -/
def Team.lineBytes (t : Team) (q n : Nat) : List Byte := (t.blockTids q).flatMap (fun j => toBytes 4 (t.lineWord n j).toNat)

/-- Is a word of the line poisoned? -/
def Team.lineBad (t : Team) (q n : Nat) : Bool :=
  (t.blockTids q).any (fun j => (t.thread j).bad.contains n) || t.padBad.contains (q, n)

/-- Has a lane block a lane without a thread? -/
def Team.padded (t : Team) (q : Nat) : Bool := (t.blockTids q).any (fun j => decide ((t.thread j).loc = .vacant))

/-- Every word of a line poisoned (R84, R87). -/
def Team.poisonLine (t : Team) (q n : Nat) : Team :=
  let t := (t.blockTids q).foldl (fun t j => match t.threads.find? j with
    | some x => if x.loc = .vacant then t else t.setThread j { x with bad := setIns x.bad n }
    | none => t) t
  if t.padded q && !t.padBad.contains (q, n) then { t with padBad := t.padBad ++ [(q, n)] } else t

/-- The slots that successor evaluation reads or writes (R30, R73). -/
def succSlots (w1 : Word) : List (Nat × Bool) :=
  match (w1.extractLsb' 0 3).toNat with
  | 1 => if w1.extractLsb' 3 2 = 0 then [] else [(slotP, false)]
  | 2 => [(62, true), (63, true)]
  | 3 => [(62, false), (63, false)]
  | 6 => let n := 2 * (w1.extractLsb' 6 5).toNat; [(n, false), (n + 1, false)]
  | _ => []

/-- The register lines that the successor evaluation of a pass needs. -/
def State.succLines (s : State) (p : Pass) : List (Nat × Nat × Bool) :=
  p.groups.flatten.flatMap (fun j => (succSlots p.w1).map (fun c => ((s.team p.team).laneBlock j, c.1, c.2)))

/-- A register line written to its image (R75, R87): one with a poisoned word is marked poisoned as a whole, and then every
word of it is. DEDUCED: assumption 91. -/
def State.writeLine (s : State) (k q n : Nat) : State :=
  let t := s.team k
  let s := s.writeFor t.vmid (t.lineAddr q n) (t.lineBytes q n)
  if t.lineBad q n then (s.setMem (s.mem.poison (t.lineAddr q n) 64)).setTeam k (t.poisonLine q n)
  else s

/-- Does a pass need the line (R72)? -/
def Pass.needs (p : Pass) (t : Team) (l : RegLine) : Bool :=
  p.team == l.team && (decide (64 ≤ l.n) || (touchSet p.w0).contains l.n)
    && p.groups.any (fun g => g.any (fun j => t.laneBlock j == l.q))

/-- The lines that instructions in flight will write, which are pinned (R74). -/
def State.pinned (s : State) (c : Nat) (l : RegLine) : Bool :=
  let t := s.team l.team
  let here := fun (j n : Nat) => t.laneBlock j == l.q && n == l.n
  t.results.any (fun r => r.vs.any (fun v => here v.1 v.2.1))
    || t.marks.any (fun m => decide ((s.core c).cc < m.avail) && markLine m.slot != 127 && here m.tid (markLine m.slot))
    || (s.core c).atq.any (fun a => a.team == l.team && (here a.tid a.vd || (a.wide && here a.tid (a.vd + 1))))

/-- The lines that an instruction of a pass reaches (R75). -/
def State.issueLines (s : State) (c : Nat) (p : Pass) : List (Nat × Nat × Nat) :=
  let x := s.ctxFor c p
  match decodeBytes (toBytes 4 x.word.toNat) with
  | .ok (i, _) => (s.linesFor x i).map (fun l => (x.team, l.1, l.2.1))
  | .error _ => []

/-- The lines that the instructions issuing or waiting to issue on a core reach (R75). -/
def State.inUse (s : State) (c : Nat) : List (Nat × Nat × Nat) :=
  ((s.core c).passes.filter Pass.busy).flatMap (s.issueLines c)

/-- The lines that are held for the group that the port serves (R76) and for the successor evaluation that is under way
(R73): no fetch drops one of them for another. DEDUCED: assumption 100. -/
def State.serving (s : State) (c : Nat) : List (Nat × Nat × Nat) :=
  ((s.core c).served.toList.flatMap (s.issueLines c))
    ++ ((s.core c).ended.head?.toList.flatMap (fun p => (s.succLines p).map (fun l => (p.team, l.1, l.2.1))))

/-- Is a line in a list? -/
def RegLine.among (l : RegLine) (ls : List (Nat × Nat × Nat)) : Bool := ls.any (fun u => u.1 == l.team && u.2.1 == l.q && u.2.2 == l.n)

/-- The class of a line for eviction (R75): 5 for one that an instruction which waits to issue reaches, 6 for one that is not
evicted. DEDUCED: assumption 100. -/
def State.lineClass (s : State) (c : Nat) (l : RegLine) : Nat :=
  let t := s.team l.team
  let core := s.core c
  if s.pinned c l || l.among (s.serving c) then 6
  else if decide (t.onCore ≠ some c) || !t.isResident then 1
  else if core.passes.any (fun p => p.needs t l) then (if l.among (s.inUse c) then 5 else 4)
  else if t.sel.toList.any (fun p => p.needs t l) then 3
  else 2

/-- The lines of the register part (R82). -/
def Core.lineCount (k : Core) : Nat := 1024 * k.pbReg

/-- Has the register part of a core room for a line? -/
def Core.lineRoom (k : Core) : Bool := decide (k.lines.length < k.lineCount)

/-- Room made for a line (R75): the first in the order of classes, up to a last one, the least recently used of its class. -/
def State.evictFor (s : State) (c last : Nat) : State :=
  let core := s.core c
  if core.lineRoom then s else
  match minBy (s.lineClass c) core.lines with
  | none => s
  | some l =>
    if last < s.lineClass c l then s else
    let s := if l.dirty then s.writeLine l.team l.q l.n
      else if (s.team l.team).lineBad l.q l.n then s.writeLine l.team l.q l.n else s
    let selected := s.lineClass c l == 3
    s.updCore c (fun k => { k with
      lines := k.lines.filter (fun x => decide (x ≠ l))
      want := if selected then k.want.filter (fun w => w != (l.team, l.q, l.n)) else k.want })

/-- The first cycle in which a fixed-latency write that pins lines of a core completes (R74). -/
def State.pinEnd (s : State) (c : Nat) : Option Nat :=
  minBy id ((s.resident c).flatMap (fun k => ((s.team k).marks.map Mark.avail).filter (fun a => decide ((s.core c).cc < a))))

/-- Is every line of a core's register part pinned or in use (R74, R75)? -/
def State.linesTaken (s : State) (c : Nat) : Bool := !(s.core c).lineRoom && (s.core c).lines.all (fun l => decide (4 < s.lineClass c l))

/-- Can another pass issue while the pass of a team that the port serves waits for room (R34, R76)? -/
def Core.yields (k : Core) (team : Nat) : Bool :=
  (k.served.map Pass.team == some team) && k.passes.any (fun p => p.serves && !p.blocked && p.team != team)

/-- Room for a line that a team needs (R74 to R76). Where every line is pinned or in use, the core's other passes issue first, then
the first write completes, and then lines of instructions that wait to issue give way. DEDUCED: assumption 100. -/
def State.makeRoom (s : State) (c team : Nat) : State :=
  let s := s.evictFor c 4
  if (s.core c).lineRoom then s
  else if (s.core c).yields team then s.updPass c team (fun p => { p with blocked := true })
  else match s.pinEnd c with
    | some a => s.tickTo c a
    | none => s.evictFor c 5

/-- REGISTER_LINE_FETCH (R73 to R76, R84): the line arrives when there is room for it; one whose image bytes are poisoned arrives
with every word poisoned. -/
def execRegisterLineFetch (core team block slot : Nat) (s : State) : Host.Outcome State Fault Refusal :=
  let t := s.team team
  if t.onCore ≠ some core ∨ 65 < slot ∨ t.gangs * (t.w / 16) ≤ block ∨ (s.core core).hasLine team block slot = true then .next s
  else
    let s := s.makeRoom core team
    if (s.core core).lineRoom = false then .next s else
    let s := s.readHome (t.lineAddr block slot) 64
    let s := if s.mem.poisoned (t.lineAddr block slot) 64 then s.updTeam team (fun t => t.poisonLine block slot) else s
    .next (s.updCore core (fun k => { k with
      lines := k.lines ++ [{ team := team, q := block, n := slot, dirty := false }]
      want := k.want.filter (fun w => w != (team, block, slot)) }))

/-- The lines that an instruction reached become the most recently used, those it wrote dirty (R75). -/
def Core.touch (k : Core) (team : Nat) (ls : List (Nat × Nat × Bool)) : Core :=
  let hit := fun (l : RegLine) => l.team == team && ls.any (fun u => u.1 == l.q && u.2.1 == l.n)
  let wrote := fun (l : RegLine) => ls.any (fun u => u.1 == l.q && u.2.1 == l.n && u.2.2)
  { k with lines := k.lines.filter (fun l => !hit l)
      ++ (k.lines.filter hit).map (fun l => { l with dirty := l.dirty || wrote l }) }

/-! ### Successor evaluation (R30) -/

/-- Has every result of a pass been written (R30)? -/
def State.passDone (s : State) (c : Nat) (p : Pass) : Bool :=
  (s.team p.team).results.isEmpty && !(s.core c).atq.any (fun a => a.team == p.team)

/-- Can the successors of a pass be evaluated: its results are written and the lines it needs are present (R73)? -/
def State.passReady (s : State) (c : Nat) (p : Pass) : Bool :=
  s.passDone c p && ((s.core c).missing p.team (s.succLines p)).isNone

/-- SUCCESSOR_EVALUATION (R30, R282): the threads of the earliest ended pass that can be evaluated join their
successors. -/
def execSuccessorEvaluation (core : Nat) (s : State) : Host.Outcome State Fault Refusal :=
  match (s.core core).ended.find? (s.passReady core) with
  | none => .next s
  | some p =>
    let s := s.updCore core (fun k => { k.touch p.team (s.succLines p) with ended := k.ended.erase p })
    let s := (sortNat p.groups.flatten).foldl (fun s j =>
      if ((s.team p.team).thread j).loc = .pass then s.succeed p.team j p.hdr p.w0 p.w1 else s) s
    .next ((s.settleCore core).noteWaits core)

/-! ### Ageing (R37) -/

/-- An entry whose cycles without a pass are counted into its age (R37). DEDUCED: assumption 46. -/
def Entry.ripen (e : Entry) : Entry := { e with age := e.years, idle := e.idle % 256 }

/-- Does a team have a pass in progress (R34, R37)? DEDUCED: assumption 46. -/
def State.inProgress (s : State) (c k : Nat) : Bool := (s.core c).passes.any (fun p => p.team == k)

/-- The cycles of a core until an entry of a team has spent 256 without a pass (R37). -/
def State.ageLeft (s : State) (c k : Nat) : Option Nat :=
  minBy id (((s.entriesOf c k).filter (fun e => decide (e.age < 256))).map (fun e => 256 - e.idle))

/-- ENTRY_AGE_TICK (R37): an entry of the team has spent 256 cc without a pass of the team, and ages.
DEDUCED: assumption 46. -/
def execEntryAgeTick (core team : Nat) (s : State) : Host.Outcome State Fault Refusal :=
  match s.ageLeft core team with
  | none => .next s
  | some n =>
  if (s.team team).onCore ≠ some core ∨ (n ≠ 0 ∧ s.inProgress core team = true) then .next s else
  let s := s.tickTo core ((s.core core).cc + n)
  let up := fun (e : Entry) => if e.team == team then e.ripen else e
  .next ((s.updCore core (fun k => { k with table := k.table.map up })).updTeam team (fun t =>
    { t with spill := t.spill.map up }))

end Sys2Proof.Machine
end

