-- ==== Sys2Proof/Machine/AsyncMem.lean ====
section
/-! DEFINITION. The steps that the part takes of its own accord around a core: results and replies (R45, R384), stores,
atomics and updates at their homes (R186, R189, R249), page walks (R171), arrivals, signatures and armings (R292, R357,
R379), timeouts (R293, R294) and the stalemate watchdog (R295). -/

namespace Sys2Proof.Machine

/-! ### Results -/

/-- A result written (R45, R62): a reader then finds it, and no earlier write to its registers (R126). -/
def Team.applyResult (t : Team) (r : Result) : Team :=
  let t := r.vs.foldl (fun t v => t.setThread v.1 ((t.thread v.1).slotSet v.2.1 v.2.2)) t
  let t := r.ss.foldl (fun t v => t.sset v.1 v.2.1 v.2.2) t
  { t with fflags := t.fflags ||| r.flags, marks := t.marks.filter (fun m => !r.writes m) }

/-- Do two results write one register? Then the later waits for the earlier (R126). -/
def Result.clash (a b : Result) : Bool :=
  a.vs.any (fun v => b.vs.any (fun w => v.1 == w.1 && v.2.1 == w.2.1))
    || a.ss.any (fun v => b.ss.any (fun w => v.1 == w.1 && v.2.1 == w.2.1))

/-- The oldest result of a kind that no earlier one holds back, with its place. -/
def pickResult (load : Bool) : Nat → List Result → List Result → Option (Nat × Result)
  | _, _, [] => none
  | n, before, r :: rest =>
    if r.load == load && !before.any (fun b => b.clash r) then some (n, r)
    else pickResult load (n + 1) (before ++ [r]) rest

/-- The oldest result of a kind that can be written, written; the core's clock reaches the cycle before that from which its registers
are available (R126). -/
def State.writeResult (s : State) (k : Nat) (load : Bool) : State :=
  match pickResult load 0 [] (s.team k).results with
  | none => s
  | some (n, r) =>
    let s := match (s.team k).onCore with
      | some c => s.tickTo c ((s.team k).resultAt r - 1)
      | none => s
    s.updTeam k (fun t => { t with results := dropAt t.results n }.applyResult r)

/-- RESULT_WRITEBACK (R45, R62). DESIGN CHOICE: assumption 7. -/
def execResultWriteback (team : Nat) (s : State) : Host.Outcome State Fault Refusal := .next (s.writeResult team false)

/-- LOAD_REPLY (R45, R384): the replies of a group's load are written together. DESIGN CHOICE: assumption 7. -/
def execLoadReply (team : Nat) (s : State) : Host.Outcome State Fault Refusal := .next (s.writeResult team true)

/-! ### Homes -/

/-- STORE_PERFORMED_AT_HOME (R180, R186, R187). -/
def execStorePerformedAtHome (core idx : Nat) (s : State) : Host.Outcome State Fault Refusal :=
  .next (s.performStore core idx)

/-- ATOM_AT_HOME (R189, R354). -/
def execAtomAtHome (core idx : Nat) (s : State) : Host.Outcome State Fault Refusal := .next (s.performAtom core idx)

/-- NMRED_UPDATE_PERFORMED (R169, R249). -/
def execNmredUpdatePerformed (core idx : Nat) (s : State) : Host.Outcome State Fault Refusal := .next (s.performNm core idx)

/-- PAGE_WALK_COMPLETE (R171): a walk that succeeds fills the TLBs and sets the A and D bits. A walk that faults leaves its
fault to the access that asked for it (R173). -/
def execPageWalkComplete (core team : Nat) (va : DWord) (acc : Access) (s : State) : Host.Outcome State Fault Refusal :=
  .next (s.translate core (s.team team).space va acc).2

/-! ### Arrivals, signatures and armings -/

/-- BARRIER_ARRIVAL (R357): the oldest arrival on its way. -/
def execBarrierArrival (core : Nat) (s : State) : Host.Outcome State Fault Refusal := .next (s.performArrival core)

/-- KSIGN_SIGNATURE (R210, R379): the oldest signature on its way. -/
def execKsignSignature (core : Nat) (s : State) : Host.Outcome State Fault Refusal := .next (s.performSig core)

/-- MONITOR_ARMING (R292): the oldest arming on its way. -/
def execMonitorArming (core : Nat) (s : State) : Host.Outcome State Fault Refusal := .next (s.performArm core 0)

/-! ### Timeouts -/

/-- MWAIT_TIMEOUT for a held thread (R281, R293). -/
def State.mwaitTrap (s : State) (k tid : Nat) (timeout : Nat) : State :=
  let x := (s.team k).thread tid
  let va := match x.mon with
    | some m => m.va
    | none => 0
  let pc := x.heldAt
  (s.updThread k tid (fun x => { x with mon := none })).trapThread k tid
    { cause := causeMwaitTimeout, info0 := va, info1 := BitVec.ofNat 64 timeout, pc := pc }

/-- MWAIT_TIMEOUT (R293): the core's clock reaches the end of the timeout, and the thread disarms and traps. -/
def execMwaitTimeout (team tid : Nat) (s : State) : Host.Outcome State Fault Refusal :=
  let t := s.team team
  match t.state, (t.thread tid).loc with
  | .resident c _, .held (.monitor (some d) timeout) _ =>
    .next ((s.tickTo c (max d (s.core c).cc)).mwaitTrap team tid timeout)
  | _, _ => .next s

/-- MONITOR_TABLE_TIMEOUT (R294): the least remaining timeout of a team's record ends; the team becomes bindable, and the
timeouts of its held threads have run that long. DEDUCED: assumption 54. -/
def execMonitorTableTimeout (slice team : Nat) (s : State) : Host.Outcome State Fault Refusal :=
  let sl := s.slice slice
  match sl.monitors.find? (fun r => r.team == team) with
  | some { left := some n, .. } =>
    let s := s.setSlice slice { sl with monitors := sl.monitors.map (fun r => if r.team == team then { r with left := none } else r) }
    .next (s.updTeam team (fun t => { t with
      bindable := true
      threads := t.threads.mapVal (fun _ x => match x.loc with
        | .held (.monitor (some l) d) r => { x with loc := .held (.monitor (some (l - n)) d) r }
        | _ => x) }))
  | _ => .next s

/-! ### The watchdog -/

/-- What the kill record of a stalemate holds (R297): the thread's watched wait, and how many share it. -/
def State.stalemateInfo (s : State) (k tid : Nat) : KillInfo :=
  let t := s.team k
  let x := t.thread tid
  let real := (upto 0 t.t).filter (fun j => decide ((t.thread j).loc ≠ .exited))
  let here := fun (j : Nat) => match x.loc, (t.thread j).loc with
    | .held (.barrier b _ _) _, .held (.barrier b' _ _) _ => b == b'
    | .held (.gather _) _, .held (.gather _) _ => true
    | _, _ => false
  let obj := match x.loc with
    | .held (.barrier b _ _) _ => some b
    | _ => none
  { cause := causeStalemate, kind := 2, pc := x.heldAt,
    info0 := match obj with
      | some b => BitVec.ofNat 64 b
      | none => 0xFF
    info1 := t.btimeout.zeroExtend 64, tid := tid, held := (real.filter here).length,
    other := (real.filter (fun j => !here j)).length,
    barWord := match obj with
      | some b => (s.barrier k b).word
      | none => 0
    pend := match obj with
      | some b => (s.barrier k b).pend
      | none => 0 }

/-- STALEMATE_WATCHDOG (R295, R296): the core's clock reaches the cycle in which the first watch counter of the team reaches
BTIMEOUT, and the context is killed. DEDUCED: assumption 82. -/
def execStalemateWatchdog (team : Nat) (s : State) : Host.Outcome State Fault Refusal :=
  match (s.team team).state, minBy Prod.fst (s.watchLeft team) with
  | .resident c _, some (n, tid) =>
    let s := s.tickTo c ((s.core c).cc + n)
    .next (s.kill team (some (s.stalemateInfo team tid)))
  | _, _ => .next s

end Sys2Proof.Machine
end

