-- ==== Sys2Proof/Machine/Engine.lean ====
section
/-! DEFINITION. What the matrix engine, the copy engine and the digest path share: access to memory and tiles, descriptors
and their ordering byte (R195, R196), posting and its wait (R207, R233, R388), the completion word (R206, R226, R227), and
XSTAT (R460) with the eight posting functions (R205, R232, R369). -/

namespace Sys2Proof.Machine

/-! ### Accesses of an engine -/

/-- Why an engine's access does not complete: a translation fault (R173), or an error phase (R227). -/
inductive EStop where
  | fault (va : DWord) (acc : Access) (cause : Nat)
  | err (code : BitVec 8)
  deriving DecidableEq, Repr

/-- A virtual address that an engine of a die reaches for a team (R235): the canonical check, translation, the partition
and IO checks. -/
def State.engineAddr (s : State) (d k : Nat) (va : DWord) (acc : Access) : Except EStop Nat × State :=
  if !canonical va then (.error (.err errAccess), s) else
  match s.translateDie d (s.team k).space va acc with
  | (.ok pa _, s) => (.ok pa, s)
  | (.fault cause, s) => (.error (.fault va acc cause), s)
  | (.access, s) => (.error (.err errAccess), s)

/-- A 4-byte word of global memory read by an engine at its home. -/
def State.engineLoad (s : State) (d k : Nat) (va : DWord) : Except EStop Word × State :=
  match s.engineAddr d k va .read with
  | (.error e, s) => (.error e, s)
  | (.ok pa, s) =>
    if s.mem.poisoned pa 4 then (.error (.err errPoison), s)
    else (.ok (BitVec.ofNat 32 (s.mem.readNat pa 4)), s.readHome pa 4)

/-- A 4-byte word of global memory written by an engine, performed at its home, as one access (R238). -/
def State.engineStore (s : State) (d k : Nat) (va : DWord) (a : Word) : Except EStop State :=
  match s.engineAddr d k va .write with
  | (.error e, _) => .error e
  | (.ok pa, s) => .ok (s.storeHome pa (toBytes 4 a.toNat) (s.team k).vmid)

/-- A word of a team's tile read by an engine (R202): a poisoned scratchpad word ends the command in POISON. -/
def State.tileLoad (s : State) (d k hn i : Nat) : Except EStop Word × State :=
  match (s.team k).handle? hn with
  | none => (.error (.err errHandle), s)
  | some h =>
    match h.level with
    | .gwin => s.engineLoad d k (h.gwinAddr i)
    | _ => if h.bad.contains i then (.error (.err errPoison), s) else (.ok (Tab.get 0 h.data i), s)

/-- A word of a team's tile written by an engine. -/
def State.tileStore (s : State) (d k hn i : Nat) (a : Word) : Except EStop State :=
  match (s.team k).handle? hn with
  | none => .error (.err errHandle)
  | some h =>
    match h.level with
    | .gwin => s.engineStore d k (h.gwinAddr i) a
    | _ => .ok (s.setHandle k hn (h.put i a))

/-- n consecutive words of a tile, in word order (R219). -/
def State.tileWords (s : State) (d k hn : Nat) : Nat → Nat → Except EStop (List Word) × State
  | _, 0 => (.ok [], s)
  | i, n + 1 =>
    match s.tileLoad d k hn i with
    | (.error e, s) => (.error e, s)
    | (.ok a, s) =>
      match s.tileWords d k hn (i + 1) n with
      | (.error e, s) => (.error e, s)
      | (.ok r, s) => (.ok (a :: r), s)

/-- Is every one of n consecutive words of a tile within an engine's reach for a write: what the first stops on that is not (R173,
R235)? -/
def State.tileReach (s : State) (d k hn : Nat) : Nat → Nat → Option EStop × State
  | _, 0 => (none, s)
  | i, n + 1 =>
    match (s.team k).handle? hn with
    | none => (some (.err errHandle), s)
    | some h =>
      if h.level ≠ .gwin then (none, s) else
      match s.engineAddr d k (h.gwinAddr i) .write with
      | (.error e, s) => (some e, s)
      | (.ok _, s) => s.tileReach d k hn (i + 1) n

/-- Consecutive words of a tile written in order, until one stops: how many were written, and the stop. -/
def State.tilePut (s : State) (d k hn : Nat) : Nat → List Word → Option EStop × State
  | _, [] => (none, s)
  | i, a :: r =>
    match s.tileStore d k hn i a with
    | .error e => (some e, s)
    | .ok s => s.tilePut d k hn (i + 1) r

/-! ### Descriptors -/

/-- The ordering byte is valid (R195). -/
def ordOk (b : Nat) : Bool := decide (b < 32) && decide (b % 8 < 6)

def ordRel (b : Nat) : Bool := natBit b 4
def ordAcq (b : Nat) : Bool := natBit b 3

/-- Does the policy deny the ordering byte's scope (R195, R198)? -/
def State.ordDenied (s : State) (vmid b : Nat) : Bool :=
  match b % 8 with
  | 4 => s.scopeDenied vmid .tenant
  | 5 => s.scopeDenied vmid .system
  | _ => false

/-- All bytes of a field zero (R236). -/
def zeroAt (d : List Byte) (off n : Nat) : Bool := fieldAt d off n == 0

/-- The descriptor read as a load of the posting gang (R196): 64 bytes, ordered after the core's earlier accesses; for a request that
KSIGN posted from home, since what its signatures release happens before the read (R183, R465). -/
def State.readDescriptor (s : State) (c k : Nat) (a : DWord) (home : Bool) : Except EStop (List Byte) × State :=
  if !canonical a then (.error (.err errAccess), s) else
  match s.translate c (s.team k).space a .read with
  | (.fault cause, s) => (.error (.fault a .read cause), s)
  | (.access, s) => (.error (.err errAccess), s)
  | (.ok pa pbmt, s) =>
    let s := s.settleAtoms c pa 64
    let (v, s) := s.load c pa 64 (hintOf .normal (pbmt == 1)) home
    if v.bad.isEmpty then (.ok v.bytes, s) else (.error (.err errPoison), s)

/-- ACQ = 1 makes the posting a release at the descriptor's scope by each posting thread; GANG and TEAM act as CLUSTER
(R195, R196). -/
def State.postRelease (s : State) (c : Nat) (d : List Byte) : State :=
  if ordAcq (fieldAt d 1 1) then s.release c .cluster else s

/-! ### Tables and limits -/

/-- A team's accepted commands that have not completed (R233), those that have not re-entered their table among them. -/
def State.commandCount (s : State) (k : Nat) : Nat :=
  (s.team k).susp.length + (s.clusters.map (fun c => (c.2.matrix.table.filter (fun r => r.2.team == k)).length
    + (cmdsOf c.2.copy.table k).length)).foldl (· + ·) 0

/-- Is the function the matrix engine's (R205)? -/
def isMatrixFn (fn : Nat) : Bool := decide (0x10 ≤ fn) && decide (fn ≤ 0x13)

/-- The cluster's matrix engine, changed. -/
def State.updMatrix (s : State) (cl : Nat) (f : Matrix → Matrix) : State :=
  let c := s.cluster cl
  s.setCluster cl { c with matrix := f c.matrix }

/-- A request of the reservation table, written, and removed. -/
def State.setReq (s : State) (cl i : Nat) (r : MatReq) : State := s.updMatrix cl (fun m => { m with table := m.table.set i r })
def State.dropReq (s : State) (cl i : Nat) : State := s.updMatrix cl (fun m => { m with table := m.table.erase i })

/-- A command of the command table, written, and removed. -/
def State.setCmd (s : State) (cl i : Nat) (r : CopyCmd) : State :=
  let c := s.cluster cl
  s.setCluster cl { c with copy := { table := c.copy.table.set i r } }
def State.dropCmd (s : State) (cl i : Nat) : State :=
  let c := s.cluster cl
  s.setCluster cl { c with copy := { table := c.copy.table.erase i } }

/-- The next acceptance number of a team (R302). -/
def State.takeSeq (s : State) (k : Nat) : Nat × State :=
  let t := s.team k
  (t.seq, s.setTeam k { t with seq := t.seq + 1 })

/-- The barrier object of a completion word (R206). -/
def cwBarrier (cw : DWord) : Nat := (cw.extractLsb' 0 4).toNat

/-- A nonzero reserved bit of a completion word (R206). -/
def cwBad (cw : DWord) : Bool := cw.extractLsb' 6 58 != 0

/-- Bytes subtracted from an object's PEND, where the completion word asks for it (R206, R243); an object that is not open
discards the count (R206, R351). -/
def State.countBytes (s : State) (k : Nat) (cw : DWord) (n : Nat) : State :=
  if cw.getLsbD 5 then s.updBarrier k (cwBarrier cw) (fun b => b.addPend (-(BitVec.ofNat 64 n))) else s

/-- The arrival of a completion word (R206, R243). -/
def State.countArrival (s : State) (k : Nat) (cw : DWord) : State :=
  if cw.getLsbD 4 then s.updBarrier k (cwBarrier cw) Barrier.arrive else s

/-! ### Grants (R214) -/

/-- The choice of R214 among candidates: age and priority given. -/
def arbitrate {α : Type} (since prio : α → Nat) (old : α → Bool) (l : List α) : Option α :=
  match minBy since (l.filter old) with
  | some a => some a
  | none =>
    let top := l.foldl (fun p a => max p (prio a)) 0
    minBy since (l.filter (fun a => prio a == top))

/-- Has 4,096 cc passed since a cycle of the partition's clock (R8)? -/
def State.old (s : State) (since : Nat) : Bool := decide (since + 4096 ≤ s.ccNow)

/-- PRIO of a command's descriptor (R216, R234). -/
def descPrio (d : Option (List Byte)) : Nat := fieldAt (d.getD []) 2 1 % 4

/-! ### Posting -/

/-- A gang's post waits in its pass for acceptance (R207, R233). -/
def State.postWait (s : State) (x : Ctx) (fn : Nat) (re : Bool) (sd : Nat) (g : GangWait) : State :=
  s.updPass x.core x.team (fun p => { p with wait := match p.wait with
    | some (.post f r d gs since) => some (.post f r d (gs ++ [g]) since)
    | _ => some (.post fn re sd [g] x.cc) })

/-- An engine function (R205, R232, R369): each gang with an issued real thread posts; DGST only in a system team. -/
def postInstr (fn : Nat) (f : FX) : GInstr :=
  { srcs := [f.sa.toNat, f.sb.toNat], irrev := true, realOnly := true,
    dst := if f.re = 1 then some f.sd.toNat else none, lat := none,
    body := fun x g vs s =>
      let t := s.team x.team
      if fn == 0x30 && !t.sys then (.trap x.illegal, s) else
      (.done [], s.postWait x fn (f.re = 1) f.sd.toNat
        { gang := g, tids := x.ofGang t g, a := vs.headD 0, b := (vs.drop 1).headD 0 }) }

/-- CPY (R232). -/
def execCpy (f : FX) (s : State) : Host.Outcome State Fault Refusal := execGangs (postInstr 0x08 f) s
/-- CPYM (R232). -/
def execCpym (f : FX) (s : State) : Host.Outcome State Fault Refusal := execGangs (postInstr 0x09 f) s
/-- CPYZ (R232). -/
def execCpyz (f : FX) (s : State) : Host.Outcome State Fault Refusal := execGangs (postInstr 0x0A f) s
/-- MLDS (R205). -/
def execMlds (f : FX) (s : State) : Host.Outcome State Fault Refusal := execGangs (postInstr 0x10 f) s
/-- MSTRM (R205). -/
def execMstrm (f : FX) (s : State) : Host.Outcome State Fault Refusal := execGangs (postInstr 0x11 f) s
/-- MDRN (R205). -/
def execMdrn (f : FX) (s : State) : Host.Outcome State Fault Refusal := execGangs (postInstr 0x12 f) s
/-- MZACC (R205). -/
def execMzacc (f : FX) (s : State) : Host.Outcome State Fault Refusal := execGangs (postInstr 0x13 f) s
/-- DGST (R369). -/
def execDgst (f : FX) (s : State) : Host.Outcome State Fault Refusal := execGangs (postInstr 0x30 f) s

/-- The first gang of a pass's post has been dealt with: the next one begins to wait, or the pass goes on (R207). -/
def State.nextPost (s : State) (c k : Nat) : State :=
  let cc := (s.core c).cc
  s.updPass c k (fun p => { p with wait := match p.wait with
    | some (.post fn re sd (_ :: g :: gs) _) => some (.post fn re sd (g :: gs) cc)
    | _ => none })

/-- A gang's wait ends unaccepted (R207, R233): all ones in the reply, or ABORTED at the barrier object. -/
def State.postRefused (s : State) (k : Nat) (re : Bool) (sd : Nat) (g : GangWait) : State :=
  if re then s.reply k g.gang sd (BitVec.allOnes 64) else s.phaseError k (cwBarrier g.b) errAborted

/-- The posts that a core offers to an engine: the first gang of each of its passes, the earliest pass first. -/
def Core.posts (k : Core) (matrix : Bool) : List (Nat × Nat × Bool × Nat × GangWait) :=
  k.passes.filterMap (fun p => match p.wait with
    | some (.post fn re sd (g :: _) _) => if isMatrixFn fn == matrix then some (p.team, fn, re, sd, g) else none
    | _ => none)

/-- The cores of a cluster, in ascending order (R388). -/
def clusterCores (cl : Nat) : List Nat := upto (4 * cl) 4

/-- The first post of a cluster that its team's limit allows (R207, R233, R388): suspended commands of the team come before its
newer ones (R302). R388 orders the posts that reach the engine in one cc; among gangs of several cores that wait since other
cycles the spec gives no order, and the model's is the same, the lowest core. DESIGN CHOICE: assumption 103. -/
def State.clusterPost (s : State) (cl : Nat) (matrix : Bool) : Option (Nat × Nat × Nat × Bool × Nat × GangWait) :=
  ((clusterCores cl).flatMap (fun c => ((s.core c).posts matrix).map (fun p => (c, p)))).find?
    (fun p => decide (s.commandCount p.2.1 < 32) && (s.team p.2.1).susp.isEmpty)

/-- ENGINE_POST_TIMEOUT: the wait of the gang of the core that began to wait first has lasted 1,024 cc (R207, R233). -/
def execEnginePostTimeout (c : Nat) (s : State) : Host.Outcome State Fault Refusal :=
  match minBy (fun x : Nat × Bool × Nat × GangWait × Nat => x.2.2.2.2) ((s.core c).passes.filterMap (fun p => match p.wait with
    | some (.post _ re sd (g :: _) since) => some (p.team, re, sd, g, since)
    | _ => none)) with
  | none => .next s
  | some (k, re, sd, g, since) =>
    let s := s.tickTo c (max (s.core c).cc (since + 1024))
    .next ((s.postRefused k re sd g).nextPost c k)

/-- RGET_WAIT_TIMEOUT: the wait of the gang of the core that began to wait first at a ring has lasted 1,024 cc: it receives all
ones, and the next gang tries (R165). -/
def execRgetWaitTimeout (c : Nat) (s : State) : Host.Outcome State Fault Refusal :=
  match minBy (fun x : Nat × Nat × Bool × Nat × Nat × GangWait × List GangWait => x.1) ((s.core c).passes.filterMap (fun p =>
    match p.wait with
    | some (.rget cons h sb (g :: gs) since) => some (since, p.team, cons, h, sb, g, gs)
    | _ => none)) with
  | none => .next s
  | some (since, k, cons, h, sb, g, gs) =>
    let s := s.tickTo c (max (s.core c).cc (since + 1024))
    let s := s.reply k g.gang sb (BitVec.allOnes 64)
    let (left, s) := s.serveRget k h cons sb gs
    let cc := (s.core c).cc
    .next (s.updPass c k (fun p => { p with
      wait := if left.isEmpty then none else some (.rget cons h sb left cc) }))

/-- The RGETs of the machine that wait and can be served now (R165): a slot has changed state. -/
def State.serveRings (s : State) : State :=
  s.cores.foldl (fun s ck => ck.2.passes.foldl (fun s p => match p.wait with
    | some (.rget cons h sb gs since) =>
      let (left, s) := s.serveRget p.team h cons sb gs
      let cc := (s.core ck.1).cc
      s.updPass ck.1 p.team (fun p => { p with
        wait := if left.isEmpty then none
          else some (.rget cons h sb left (if left.length = gs.length then since else cc)) })
    | _ => s) s) s

/-! ### XSTAT (R460) -/

/-- Promotion entries of the tiles of a team. -/
def Matrix.promosOf (m : Matrix) (t : Team) : List Promo :=
  m.promo.filter (fun e => decide (some e.acc = t.accA) || decide (some e.acc = t.accB))

/-- The cycle of the partition's clock at which a phase of the activity ramp ends (R231): 128 cc at a quarter of the rate, and
128 at half of it. -/
def Matrix.rampEnd (m : Matrix) : Nat := m.rampAt + 128 * m.ramp

/-- Is the engine in its activity ramp at a cycle (R231)? -/
def Matrix.ramping (m : Matrix) (cc : Nat) : Bool := m.ramp != 0 && decide (cc < m.rampAt + 256)

/-- The status that a query code selects. -/
def State.status (s : State) (x : Ctx) (code : DWord) : DWord :=
  let t := s.team x.team
  let cl := s.cluster (coreCluster x.core)
  if code = 0 then
    BitVec.ofNat 64 ((16 - cl.matrix.table.length) * 2 ^ 16 + (32 - cl.copy.table.length) * 2 ^ 8
      + s.commandCount x.team)
  else if code = 1 then
    let pend := match cl.matrix.shadow with
      | some p => p.team == x.team && t.penW.any (fun w => w.seq == p.seq)
      | none => false
    let cur := match cl.matrix.active with
      | some p => p.team == x.team && some p.seq == t.curW.map Weights.seq
      | none => false
    let bit := fun (b : Bool) (n : Nat) => if b then 2 ^ n else 0
    let mask := (upto 0 8).foldl (fun a n => a + bit (t.accA == some n || t.accB == some n) n) 0
    BitVec.ofNat 64 ((cl.matrix.promosOf t).length * 2 ^ 16 + bit pend 10 + bit cur 9 + bit (cl.matrix.ramping s.ccNow) 8 + mask)
  else BitVec.allOnes 64

/-- XSTAT (R460): per gang with an issued real thread; irrevocable, its reply interlocked. -/
def xstatInstr (f : FXstat) : GInstr :=
  { srcs := [f.sa.toNat], irrev := true, realOnly := true, dst := some f.sd.toNat, lat := none,
    body := fun x _ vs s => (.done [(f.sd.toNat, s.status x (vs.headD 0))], s) }

/-- XSTAT. -/
def execXstat (f : FXstat) (s : State) : Host.Outcome State Fault Refusal := execGangs (xstatInstr f) s

end Sys2Proof.Machine
end

