-- ==== Sys2Proof/Machine/Copy.lean ====
section
/-! DEFINITION. The copy engine (R232 to R247) and the digest path (R369 to R373): acceptance and checks, channels, chunks,
rings, multicast, zeroing, counting, suspension and completion. -/

namespace Sys2Proof.Machine

/-! ### Operands (R235) -/

/-- A copy operand: its address, KIND, handle and whether it names a peer. -/
def srcOp (d : List Byte) : List Byte := (d.drop 0x10).take 16
def dstOp (d : List Byte) : List Byte := (d.drop 0x20).take 16
def opAddr (op : List Byte) : Nat := fieldAt op 0 8
def opKind (op : List Byte) : Nat := fieldAt op 8 1
def opHandle (op : List Byte) : Nat := fieldAt op 9 1 % 32
def copyLen (d : List Byte) : Nat := fieldAt d 8 8

/-- An operand's fields are well formed (R235, R236). -/
def opOk (op : List Byte) : Bool :=
  let peer := fieldAt op 0xA 1
  decide (opKind op < 3) && decide (fieldAt op 9 1 < 32) && peer / 4 % 32 == 0 && (decide (128 ≤ peer) || peer == 0)
    && fieldAt op 0xB 5 == 0 && (if opKind op == 2 then opAddr op == 0 else opAddr op % 4 == 0)

/-- The team and the tile that an operand names, when it is a tile (R235). -/
def State.opTile (s : State) (k : Nat) (op : List Byte) : Option (Nat × Handle) :=
  match s.operandTeam k op with
  | none => none
  | some j => ((s.team j).handle? (opHandle op)).map (fun h => (j, h))

/-- Bytes of a ring's slot (R239). -/
def Handle.slotBytes (h : Handle) : Nat := h.cols * h.esize

/-- A tile operand is there, of the level that its KIND asks for, and its range in the tile (R236). -/
def State.opTileOk (s : State) (k : Nat) (op : List Byte) (len : Nat) : Bool :=
  if opKind op == 0 then true else
  match s.opTile k op with
  | none => false
  | some (_, h) =>
    if opKind op == 1 then decide (h.level = .scr) && decide (opAddr op + len ≤ h.count * h.esize)
    else decide (h.level = .ring)

/-- A ring operand's LEN is a multiple of its slot (R239). -/
def State.opLenOk (s : State) (k : Nat) (op : List Byte) (len : Nat) : Bool :=
  if opKind op != 2 then true else
  match s.opTile k op with
  | none => true
  | some (_, h) => decide (h.level ≠ .ring) || len % h.slotBytes == 0

/-- The descriptor of a copy is well formed (R234, R236). The table of R236 names no phase for KIND 3 and for a LEN above 2^32:
the model's choice is that of a field outside its range, BAD_DESCRIPTOR. DESIGN CHOICE: assumption 89. -/
def copyDescOk (fn gridTeams : Nat) (d : List Byte) : Bool :=
  let u := fieldAt d
  let mask := u 0x30 8
  u 0 1 == fn && ordOk (u 1 1) && decide (u 2 1 < 4) && u 3 5 == 0 && copyLen d % 4 == 0 && decide (copyLen d ≤ 2 ^ 32)
    && opOk (srcOp d) && opOk (dstOp d) && u 0x3C 4 == 0
    && (if fn == 0x0A then (srcOp d).all (· == 0) else true)
    && (if fn == 0x09 then
          mask != 0 && opKind (dstOp d) == 1 && fieldAt (dstOp d) 0xA 1 == 0
            && (upto 0 64).all (fun i => !natBit mask i || decide (u 0x38 4 + i < gridTeams))
        else mask == 0 && u 0x38 4 == 0)

/-- The error phase that the checks of a copy yield (R236). Where several fail the spec does not say which counts: the model's
choice is the table's order, BAD_DESCRIPTOR, ACCESS, HANDLE. DESIGN CHOICE: assumption 89. -/
def State.copyCheck (s : State) (k fn : Nat) (d : List Byte) (cw : DWord) : Option (BitVec 8) :=
  let t := s.team k
  let len := copyLen d
  if !copyDescOk fn t.gridTeams.toNat d || cwBad cw || !s.opLenOk k (srcOp d) len
      || (fn != 0x09 && !s.opLenOk k (dstOp d) len) then some errBadDescriptor
  else if s.ordDenied t.vmid (fieldAt d 1 1) then some errAccess
  else if !s.opTileOk k (srcOp d) len || (fn != 0x09 && !s.opTileOk k (dstOp d) len) then some errHandle
  else none

/-- The error phase that the checks of a DGST yield (R370, R373). -/
def State.dgstCheck (s : State) (k : Nat) (d : List Byte) (cw : DWord) : Option (BitVec 8) :=
  let u := fieldAt d
  let len := u 8 8
  if !(u 0 1 == 0x30 && ordOk (u 1 1) && decide (u 2 1 < 4) && u 3 5 == 0 && decide (len ≤ 2 ^ 30) && len % 128 == 0
      && u 0x10 8 % 128 == 0 && u 0x18 8 % 64 == 0 && u 0x20 32 == 0) || cwBad cw then some errBadDescriptor
  else if s.ordDenied (s.team k).vmid (u 1 1) || decide (s.memEnd < u 0x10 8 + len) then some errAccess
  else none

/-! ### Errors and acceptance -/

/-- A command ends in an error phase (R227, R239, R245): its ring slots go on, its entry frees, and its object and, for a
CPYM, every receiver's enter the error phase. -/
def State.endCmd (s : State) (cl i : Nat) (r : CopyCmd) (code : BitVec 8) : State :=
  let s := (s.dropCmd cl i).endSlots r
  let n := cwBarrier r.cword
  let s := s.phaseError r.team n code
  if r.fn == 0x09 then (s.receivers r.team (r.desc.getD [])).foldl (fun s j => s.phaseError j n code) s else s

/-- The checks of a command whose descriptor is read (R236, R373). -/
def State.checkCmd (s : State) (cl i : Nat) (r : CopyCmd) : State :=
  let d := r.desc.getD []
  match (if r.fn == 0x30 then s.dgstCheck r.team d r.cword else s.copyCheck r.team r.fn d r.cword) with
  | some e => s.endCmd cl i r e
  | none => s.setCmd cl i r

/-- The descriptor of an accepted command read and checked, or the command suspended on it (R236, R246). -/
def State.readCmd (s : State) (c cl i : Nat) (r : CopyCmd) : State :=
  if r.addr.toNat % 64 != 0 then s.endCmd cl i r errBadDescriptor else
  match s.readDescriptor c r.team r.addr false with
  | (.ok d, s) => (s.postRelease c d).checkCmd cl i { r with desc := some d, state := .waiting, fault := none }
  | (.error (.err e), s) => s.endCmd cl i r e
  | (.error (.fault va acc cause), s) =>
    let t := s.team r.team
    let (f, s) := s.recordFault (sliceDie (clusterSlice cl)) t.space va (kindOf acc true) cause t.ctxid (.copy cl i)
    s.setCmd cl i { r with state := .suspended, fault := f.map (fun j => (sliceDie (clusterSlice cl), j)) }

/-- COPY_COMMAND_ACCEPT: a free entry is taken by the first copy or digest post of the cluster's cores (R233, R236). -/
def execCopyCommandAccept (cl : Nat) (s : State) : Host.Outcome State Fault Refusal :=
  let i := (s.cluster cl).copy.table.freeKey 0
  if 32 ≤ i then .next s else
  match s.clusterPost cl false with
  | none => .next s
  | some (c, k, fn, re, sd, g) =>
    let s := s.nextPost c k
    let s := if re then s.reply k g.gang sd (BitVec.ofNat 64 i) else s
    let (q, s) := s.takeSeq k
    .next (s.readCmd c cl i
      { team := k, fn := fn, addr := g.a, desc := none, cword := g.b, seq := q, since := s.ccNow, state := .waiting,
        off := 0, dropped := [], srcSlot := none, dstSlot := none, buf := [], fault := none, err := none })

/-! ### Channels (R214, R237, R239) -/

/-- Does a ring operand of a command need a slot now, and can it not have one (R239)? -/
def State.slotShort (s : State) (k : Nat) (op : List Byte) (cons : Bool) (held : Option Nat) : Bool :=
  if opKind op != 2 || held.isSome then false else
  match s.opTile k op with
  | none => false
  | some (_, h) => (h.take cons).isNone

/-- Where the chunk that a command is at begins and ends (R237), and up to where it has read it. -/
def CopyCmd.chunkAt (r : CopyCmd) : Nat := 512 * (r.off / 512)
def CopyCmd.chunkEnd (r : CopyCmd) : Nat := min (copyLen (r.desc.getD [])) (r.chunkAt + 512)
def CopyCmd.readTo (r : CopyCmd) : Nat := r.chunkAt + 4 * r.buf.length

/-- Does a command wait for a ring slot: of its source while its chunk is not read, of its destination after that? -/
def State.ringShort (s : State) (r : CopyCmd) : Bool :=
  let d := r.desc.getD []
  if r.fn == 0x30 || decide (copyLen d ≤ r.off) then false
  else if r.readTo < r.chunkEnd then s.slotShort r.team (srcOp d) true r.srcSlot
  else r.fn != 0x09 && s.slotShort r.team (dstOp d) false r.dstSlot

/-- Channels in use: running copies. A DGST keeps none (R372). -/
def CopyEngine.channels (e : CopyEngine) : Nat :=
  (e.table.filter (fun c => decide (c.2.state = .running) && c.2.fn != 0x30)).length

/-- The command that a free channel grants (R214, R237, R239). Of commands accepted in one cycle the spec orders only those of
one team: the model's choice among teams is the lower acceptance number. DESIGN CHOICE: assumption 88. -/
def State.channelGrant (s : State) (cl : Nat) : Option (Nat × CopyCmd) :=
  let e := (s.cluster cl).copy
  if 4 ≤ e.channels then none else
  arbitrate (fun c => 2 ^ 64 * c.2.since + c.2.seq) (fun c => descPrio c.2.desc) (fun c => s.old c.2.since)
    (e.table.filter (fun c => c.2.desc.isSome && (decide (c.2.state = .waiting)
      || (decide (c.2.state = .ring) && !s.ringShort c.2))))

/-- COPY_CHANNEL_GRANT: a free channel grants a command. -/
def execCopyChannelGrant (cl : Nat) (s : State) : Host.Outcome State Fault Refusal :=
  match s.channelGrant cl with
  | none => .next s
  | some (i, r) => .next (s.setCmd cl i { r with state := .running, fault := none })

/-! ### Moving bytes (R237 to R242) -/

/-- What moving a chunk yields: it is done, a slot is not there, or a stop. -/
inductive Moved where
  | done
  | wait
  | stop (e : EStop)
  deriving DecidableEq, Repr

/-- The first word of an operand's bytes from a copy offset: a global address, or a tile's word (R235, R239).
DEDUCED: assumption 32. -/
def opWord (op : List Byte) (h : Handle) (slot : Option Nat) (off : Nat) : Nat :=
  if opKind op == 2 then (slot.getD 0 * h.slotBytes + off % h.slotBytes) / 4 else (opAddr op + off) / 4

/-- A word of a team's tile as an engine reads it, none where it is poisoned (R163): that of a team off its core is in its tile
save area (R241). -/
def State.tileWord (s : State) (j n : Nat) (h : Handle) (i : Nat) : Option Word :=
  let pa := (s.team j).saveAddr n + 4 * i
  if (s.team j).state = .away then
    if s.mem.poisoned pa 4 then none else some (BitVec.ofNat 32 (s.mem.readNat pa 4))
  else if h.bad.contains i then none else some (Tab.get 0 h.data i)

/-- What the read of a word of a tile leaves: one in the save area is read from its home. -/
def State.tileRead (s : State) (j n i : Nat) : State :=
  if (s.team j).state = .away then s.readHome ((s.team j).saveAddr n + 4 * i) 4 else s

/-- A word of a team's tile written by an engine: that of a team off its core in its tile save area (R241). -/
def State.putTileWord (s : State) (j n : Nat) (h : Handle) (i : Nat) (a : Word) : State :=
  let s := s.setHandle j n (h.put i a)
  if (s.team j).state = .away then s.writeFor (s.team j).vmid ((s.team j).saveAddr n + 4 * i) (toBytes 4 a.toNat) else s

/-- n words of a source operand from a copy offset. -/
def State.readOp (s : State) (d k : Nat) (op : List Byte) (slot : Option Nat) : Nat → Nat → Except EStop (List Word) × State
  | _, 0 => (.ok [], s)
  | off, n + 1 =>
    let one : Except EStop Word × State :=
      if opKind op == 0 then s.engineLoad d k (BitVec.ofNat 64 (opAddr op + off)) else
      match s.opTile k op with
      | none => (.error (.err errHandle), s)
      | some (j, h) =>
        match s.tileWord j (opHandle op) h (opWord op h slot off) with
        | none => (.error (.err errPoison), s)
        | some a => (.ok a, s.tileRead j (opHandle op) (opWord op h slot off))
    match one with
    | (.error e, s) => (.error e, s)
    | (.ok a, s) =>
      match s.readOp d k op slot (off + 4) n with
      | (.error e, s) => (.error e, s)
      | (.ok r, s) => (.ok (a :: r), s)

/-- Words written to a destination operand from a copy offset, each as one access (R238). -/
def State.writeOp (s : State) (d k : Nat) (op : List Byte) (slot : Option Nat) : Nat → List Word → Option EStop × State
  | _, [] => (none, s)
  | off, a :: r =>
    let one : Except EStop State :=
      if opKind op == 0 then s.engineStore d k (BitVec.ofNat 64 (opAddr op + off)) a else
      match s.opTile k op with
      | none => .error (.err errHandle)
      | some (j, h) => .ok (s.putTileWord j (opHandle op) h (opWord op h slot off) a)
    match one with
    | .error e => (some e, s)
    | .ok s => s.writeOp d k op slot (off + 4) r

/-- The zero-map bits and zero-line flags that a CPYZ sets once its zeros reach a byte (R242): those of granules and lines
that its destination covers and whose last byte is among the n bytes from the address. -/
def State.zeroMarks (s : State) (d k : Nat) (base len a n : Nat) : State :=
  let ends := fun (sz : Nat) =>
    (upto (a / sz) ((a + n - 1) / sz + 1 - a / sz)).filter (fun g =>
      decide (base ≤ sz * g) && decide (sz * g + sz ≤ base + len) && decide (sz * g + sz ≤ a + n))
  let mark := fun (f : Memory → Nat → Memory) (sz : Nat) (s : State) (g : Nat) =>
    match s.engineAddr d k (BitVec.ofNat 64 (sz * g)) .write with
    | (.ok pa, s) => s.setMem (f s.mem pa)
    | (_, s) => s
  if n == 0 then s else
  let s := (ends 256).foldl (mark (fun m pa => m.zero pa 256) 256) s
  (ends 128).foldl (mark (fun m pa => m.flagLines pa 128) 128) s

/-- The receivers of a CPYM (R240): those that receive, and those, by TEAMID − TBASE, that receive nothing. -/
def State.multicast (s : State) (k : Nat) (d : List Byte) : List Nat × List Nat :=
  let op := dstOp d
  let len := copyLen d
  let fits := fun (j : Nat) => decide ((s.team j).state ≠ .retired) && (match (s.team j).handle? (opHandle op) with
    | none => false
    | some h => decide (h.level = .scr) && decide (opAddr op + len ≤ h.count * h.esize))
  let rs := (s.receivers k d).filter fits
  let ids := rs.map (fun j => (s.team j).teamId.toNat - fieldAt d 0x38 4)
  (rs, (upto 0 64).filter (fun i => natBit (fieldAt d 0x30 8) i && !ids.contains i))

/-- The receivers that a CPYM writes to: those that its first chunk did not drop. -/
def State.delivered (s : State) (r : CopyCmd) : List Nat :=
  let d := r.desc.getD []
  (s.receivers r.team d).filter (fun j => !r.dropped.contains ((s.team j).teamId.toNat - fieldAt d 0x38 4))

/-- Words delivered to one receiver of a CPYM (R240, R241); one whose tile has gone takes nothing. -/
def State.deliver (s : State) (op : List Byte) (off : Nat) (ws : List Word) (j : Nat) : State :=
  ws.zipIdx.foldl (fun s w => match (s.team j).handle? (opHandle op) with
    | none => s
    | some h => s.putTileWord j (opHandle op) h ((opAddr op + off) / 4 + w.2) w.1) s

/-- A slot taken for an operand that has none (R239). -/
def State.takeSlot (s : State) (k : Nat) (op : List Byte) (cons : Bool) (held : Option Nat) : Option (Option Nat × State) :=
  if opKind op != 2 then some (none, s) else
  match held, s.opTile k op with
  | some i, _ => some (some i, s)
  | none, none => some (none, s)
  | none, some (j, h) =>
    match h.take cons with
    | none => none
    | some (i, h) => some (some i, s.setHandle j (opHandle op) h)

/-- A slot given back when its last byte is moved (R239). -/
def State.giveSlot (s : State) (k : Nat) (op : List Byte) (cons : Bool) (held : Option Nat) (off : Nat) : Option Nat × State :=
  if opKind op != 2 then (none, s) else
  match held, s.opTile k op with
  | some i, some (_, h) =>
    if off % h.slotBytes == 0 then (none, s.operandSlot k op i (if cons then .free else .filled)) else (held, s)
  | _, _ => (held, s)

/-- The end of an operand's piece of a chunk that starts at an offset: the chunk's end, or a ring slot's (R239). -/
def State.pieceEnd (s : State) (r : CopyCmd) (op : List Byte) (at_ : Nat) : Nat :=
  if opKind op != 2 then r.chunkEnd else
  match s.opTile r.team op with
  | none => r.chunkEnd
  | some (_, h) => min r.chunkEnd ((at_ / h.slotBytes + 1) * h.slotBytes)

/-- Bytes counted into the poster's object, or into every receiver's (R243). With REL = 1 a CPYM's count is matched with every
receiver's BWAIT (R244): no line that the receivers' cores hold is older than its release. -/
def State.countCopy (s : State) (r : CopyCmd) (n : Nat) : State :=
  let rel := ordRel (fieldAt (r.desc.getD []) 1 1)
  if r.fn == 0x09 then
    (s.delivered r).foldl (fun s j => (if rel then s.acquire j .cluster else s).countBytes j r.cword n) s
  else s.countBytes r.team r.cword n

/-- A chunk read, at most n pieces of it: the slots it needs taken, and each given back when it is read (R237, R239).
DEDUCED: assumption 32. -/
def State.readChunk (s : State) (cl : Nat) (r : CopyCmd) : Nat → Moved × CopyCmd × State
  | 0 => (.done, r, s)
  | n + 1 =>
    let d := r.desc.getD []
    if r.chunkEnd ≤ r.readTo then (.done, r, s)
    else if r.fn == 0x0A then (.done, { r with buf := List.replicate ((r.chunkEnd - r.chunkAt) / 4) 0 }, s) else
    match s.takeSlot r.team (srcOp d) true r.srcSlot with
    | none => (.wait, r, s)
    | some (sl, s) =>
      let r := { r with srcSlot := sl }
      let stop := s.pieceEnd r (srcOp d) r.readTo
      match s.readOp (sliceDie (clusterSlice cl)) r.team (srcOp d) sl r.readTo ((stop - r.readTo) / 4) with
      | (.error e, s) => (.stop e, r, s)
      | (.ok ws, s) =>
        let (sl, s) := s.giveSlot r.team (srcOp d) true sl stop
        s.readChunk cl { r with buf := r.buf ++ ws, srcSlot := sl } n

/-- A chunk that has been read written, at most n pieces of it (R237 to R242). DEDUCED: assumption 32. -/
def State.writeChunk (s : State) (cl : Nat) (r : CopyCmd) : Nat → Moved × CopyCmd × State
  | 0 => (.done, r, s)
  | n + 1 =>
    let d := r.desc.getD []
    let die := sliceDie (clusterSlice cl)
    let k := r.team
    if r.readTo ≤ r.off then (.done, r, s)
    else if r.fn == 0x09 then
      let r := if r.off == 0 then { r with dropped := (s.multicast k d).2 } else r
      (.done, { r with off := r.readTo }, (s.delivered r).foldl (fun s j => s.deliver (dstOp d) r.off r.buf j) s)
    else
      match s.takeSlot k (dstOp d) false r.dstSlot with
      | none => (.wait, r, s)
      | some (dl, s) =>
        let r := { r with dstSlot := dl }
        let stop := s.pieceEnd r (dstOp d) r.off
        let ws := (r.buf.drop ((r.off - r.chunkAt) / 4)).take ((stop - r.off) / 4)
        match s.writeOp die k (dstOp d) dl r.off ws with
        | (some e, s) => (.stop e, r, s)
        | (none, s) =>
          let s := if r.fn == 0x0A && opKind (dstOp d) == 0 then
              s.zeroMarks die k (opAddr (dstOp d)) (copyLen d) (opAddr (dstOp d) + r.off) (stop - r.off)
            else s
          let (dl, s) := s.giveSlot k (dstOp d) false dl stop
          if stop == r.readTo then (.done, { r with off := stop, dstSlot := dl }, s)
          else s.writeChunk cl { r with off := stop, dstSlot := dl } n

/-- The next chunk of a command moved (R237 to R246): read whole, so that one with a poisoned word writes nothing (R245), then
written, and with REL = 0 counted (R243). A stop leaves what it has read only where it came from ring slots, which are
given back; otherwise it is read again (R246). DEDUCED: assumption 32. -/
def State.moveChunk (s : State) (cl : Nat) (r : CopyCmd) : Moved × CopyCmd × State :=
  let kept := fun (r : CopyCmd) => if opKind (srcOp (r.desc.getD [])) == 2 then r else { r with buf := [] }
  match s.readChunk cl r 129 with
  | (.stop e, r, s) => (.stop e, kept r, s)
  | (.wait, r, s) => (.wait, r, s)
  | (.done, r, s) =>
    match s.writeChunk cl r 129 with
    | (.stop e, r, s) => (.stop e, kept r, s)
    | (.wait, r, s) => (.wait, r, s)
    | (.done, r', s) =>
      let r' := { r' with buf := [] }
      (.done, r', if ordRel (fieldAt (r.desc.getD []) 1 1) then s else s.countCopy r' (r'.off - r.chunkAt))

/-- The next chunk of a running command moved as far as it goes; an error is kept for the command's end, a missing slot
gives up the channel, and a fault is answered. -/
def State.runChunk (s : State) (cl i : Nat) (r : CopyCmd) : Option (DWord × Access × Nat) × State :=
  if r.err.isSome || r.fn == 0x30 || decide (copyLen (r.desc.getD []) ≤ r.off) then (none, s) else
  match s.moveChunk cl r with
  | (.done, r, s) => (none, s.setCmd cl i r)
  | (.wait, r, s) => (none, s.setCmd cl i { r with state := .ring })
  | (.stop (.err c), r, s) => (none, s.setCmd cl i { r with err := some c })
  | (.stop (.fault va acc cause), r, s) => (some (va, acc, cause), s.setCmd cl i r)

/-- The running command of an entry. -/
def State.runningCmd (s : State) (cl i : Nat) : Option CopyCmd :=
  match (s.cluster cl).copy.table.find? i with
  | some r => if r.state = .running then some r else none
  | none => none

/-- COPY_CHUNK_WRITTEN: the next chunk of a running command is written, or stops at a slot, a fault or an error. -/
def execCopyChunkWritten (cl i : Nat) (s : State) : Host.Outcome State Fault Refusal :=
  match s.runningCmd cl i with
  | none => .next s
  | some r => .next (s.runChunk cl i r).2

/-- A command suspended by a fault (R246): it joins the fault's entry and frees its channel. -/
def State.suspendCmd (s : State) (cl i : Nat) (r : CopyCmd) (va : DWord) (acc : Access) (cause : Nat) : State :=
  let d := sliceDie (clusterSlice cl)
  let t := s.team r.team
  let (f, s) := s.recordFault d t.space va (kindOf acc true) cause t.ctxid (.copy cl i)
  s.setCmd cl i { r with state := .suspended, fault := f.map (fun j => (d, j)) }

/-- COPY_CHUNK_FAULT: the chunk that a running command stands at faults, and the command is suspended at its offset
(R246). -/
def execCopyChunkFault (cl i : Nat) (s : State) : Host.Outcome State Fault Refusal :=
  match s.runningCmd cl i with
  | none => .next s
  | some r =>
    match s.runChunk cl i r with
    | (none, s) => .next s
    | (some (va, acc, cause), s) =>
      match s.runningCmd cl i with
      | none => .next s
      | some r => .next (s.suspendCmd cl i r va acc cause)

/-- A copy that has written its last byte completes (R243, R244): with REL = 1 its bytes are counted now; then its arrival; a
CPYM with receivers that received nothing ends in HANDLE (R240). -/
def State.finishCopy (s : State) (cl i : Nat) (r : CopyCmd) : State :=
  let d := r.desc.getD []
  if !r.dropped.isEmpty then s.endCmd cl i r errHandle else
  let s := s.dropCmd cl i
  (if ordRel (fieldAt d 1 1) then s.countCopy r (copyLen d) else s).countArrival r.team r.cword

/-- COPY_COMMAND_COMPLETE: a running copy that has nothing left to write completes, or ends in its error phase. -/
def execCopyCommandComplete (cl i : Nat) (s : State) : Host.Outcome State Fault Refusal :=
  match s.runningCmd cl i with
  | none => .next s
  | some r =>
    if r.fn == 0x30 then .next s else
    match r.err with
    | some c => .next (s.endCmd cl i r c)
    | none => if copyLen (r.desc.getD []) ≤ r.off then .next (s.finishCopy cl i r) else .next s

/-! ### The digest path (R371 to R373) -/

/-- The clusters of a die (R14). -/
def dieClusters (d : Nat) : List Nat :=
  let x := 2 * (d % 2)
  let y := d / 2
  [4 * y + x, 4 * y + x + 1].flatMap (fun sl => upto (4 * sl) 4)

/-- The digest path's command ends in an error phase, and the path is free. -/
def State.pathEnd (s : State) (d cl i : Nat) (r : CopyCmd) (c : BitVec 8) : State :=
  (s.setDie d { s.die d with dgst := none }).endCmd cl i r c

/-- The digest path's command is suspended at offset 0, and the path is free (R373). -/
def State.pathSuspend (s : State) (d cl i : Nat) (r : CopyCmd) (va : DWord) (acc : Access) (cause : Nat) : State :=
  (s.setDie d { s.die d with dgst := none }).suspendCmd cl i r va acc cause

/-- DGST_PATH_GRANT: a free digest path takes one of its die's granted DGSTs (R214, R372), the oldest by acceptance as for a channel,
which probes its destination (R371). DESIGN CHOICE: assumption 88. -/
def execDgstPathGrant (d : Nat) (s : State) : Host.Outcome State Fault Refusal :=
  if (s.die d).dgst.isSome then .next s else
  let cands := (dieClusters d).flatMap (fun cl => ((s.cluster cl).copy.table.filter (fun c =>
    c.2.fn == 0x30 && decide (c.2.state = .running))).map (fun c => (cl, c.1, c.2)))
  match arbitrate (fun c => 2 ^ 64 * c.2.2.since + c.2.2.seq) (fun c => descPrio c.2.2.desc) (fun c => s.old c.2.2.since) cands with
  | none => .next s
  | some (cl, i, r) =>
    let s := s.setDie d { s.die d with dgst := some (cl, i) }
    match s.engineAddr d r.team (BitVec.ofNat 64 (fieldAt (r.desc.getD []) 0x18 8)) .write with
    | (.ok _, s) => .next s
    | (.error (.err c), s) => .next (s.pathEnd d cl i r c)
    | (.error (.fault va acc cause), s) => .next (s.pathSuspend d cl i r va acc cause)

/-- DGST_COMPLETE: the digest path's command digests its range and writes the digest as eight accesses, or ends in POISON, or
faults at the write (R371, R373). -/
def execDgstComplete (d : Nat) (s : State) : Host.Outcome State Fault Refusal :=
  match (s.die d).dgst with
  | none => .next s
  | some (cl, i) =>
    match s.runningCmd cl i with
    | none => .next (s.setDie d { s.die d with dgst := none })
    | some r =>
      let b := r.desc.getD []
      let len := fieldAt b 8 8
      let src := fieldAt b 0x10 8
      if s.mem.poisoned src len && len != 0 then .next (s.pathEnd d cl i r errPoison) else
      match s.engineAddr d r.team (BitVec.ofNat 64 (fieldAt b 0x18 8)) .write with
      | (.error (.err c), s) => .next (s.pathEnd d cl i r c)
      | (.error (.fault va acc cause), s) => .next (s.pathSuspend d cl i r va acc cause)
      | (.ok pa, s) =>
        let dig := sha512 (s.mem.read src len)
        let s := s.readHome src len
        let vmid := (s.team r.team).vmid
        let s := (upto 0 8).foldl (fun s j => s.storeHome (pa + 8 * j) ((dig.drop (8 * j)).take 8) vmid) s
        let s := (s.setDie d { s.die d with dgst := none }).dropCmd cl i
        .next ((s.countBytes r.team r.cword len).countArrival r.team r.cword)

end Sys2Proof.Machine
end

