-- ==== Sys2Proof/Machine/Image.lean ====
section
/-! DEFINITION. The context image (R63 to R71): its records, written when a team leaves its core and read back when an image
that system software may have changed is resumed. -/

namespace Sys2Proof.Machine

/-! ### Records -/

/-- IMGSTATE (R64): CLEAN, and ACCSAVED, which the spec names and does not define: the model sets it where the team has an
accumulator tile. DESIGN CHOICE: assumption 85. -/
def Team.imgState (t : Team) (clean : Bool) : List Byte :=
  toBytes 1 ((if clean then 1 else 0) + (if t.accA.isSome || t.accB.isSome then 2 else 0))

/-- The team header (R64). DEDUCED: assumption 30. DESIGN CHOICE: assumption 85. -/
def Team.headerBytes (t : Team) (clean : Bool) : List Byte :=
  let acc := fun (a : Option Nat) => match a with
    | some n => 0x80 + n
    | none => 0
  toBytes 8 t.ctxid.toNat ++ toBytes 4 t.teamId.toNat ++ toBytes 4 t.gridTeams.toNat ++ toBytes 4 t.leagueId.toNat
    ++ toBytes 1 t.leaguePos ++ toBytes 1 t.w ++ toBytes 2 t.t ++ toBytes 1 t.frm.toNat ++ toBytes 1 t.fflags.toNat
    ++ toBytes 1 (if t.waitCheck then 1 else 0) ++ toBytes 1 t.wbase ++ toBytes 1 t.wlen ++ toBytes 3 0
    ++ toBytes 8 t.trapVec.toNat ++ toBytes 4 t.btimeout.toNat ++ toBytes 4 0
    ++ (upto 1 7).flatMap (fun m => toBytes 2 (t.lmGet m).toNat) ++ toBytes 2 0
    ++ toBytes 1 (acc t.accA) ++ toBytes 1 (acc t.accB) ++ t.imgState clean

/-- What a team takes back from its header: the fields that its program can change, and those that its record fixes. -/
def Team.ofHeader (t : Team) (bs : List Byte) : Team :=
  { t with
    frm := BitVec.ofNat 2 (fieldAt bs 0x18 1), fflags := BitVec.ofNat 5 (fieldAt bs 0x19 1)
    waitCheck := natBit (fieldAt bs 0x1A 1) 0
    trapVec := BitVec.ofNat 64 (fieldAt bs 0x20 8), btimeout := BitVec.ofNat 32 (fieldAt bs 0x28 4) }

/-- A convergence register's record (R212). -/
def Conv.bytes (v : Conv) : List Byte :=
  toBytes 8 v.desc.toNat ++ toBytes 2 v.expect ++ toBytes 2 v.signed ++ toBytes 1 (v.state.toNat + (if v.err then 4 else 0))
    ++ toBytes 1 v.frmp.toNat ++ toBytes 1 v.errCode.toNat ++ toBytes 49 0
def Conv.ofRecord (bs : List Byte) : Conv :=
  { desc := BitVec.ofNat 64 (fieldAt bs 0 8), expect := fieldAt bs 8 2, signed := fieldAt bs 0xA 2,
    state := BitVec.ofNat 2 (fieldAt bs 0xC 1), err := natBit (fieldAt bs 0xC 1) 2, frmp := BitVec.ofNat 2 (fieldAt bs 0xD 1),
    errCode := BitVec.ofNat 8 (fieldAt bs 0xE 1) }

/-- A ring slot's state from its code (R164). -/
def slotOf : Nat → SlotState
  | 1 => .reserved
  | 2 => .filled
  | 3 => .taken
  | _ => .free

/-- A handle from its record, with the tile's contents; none where ALLOC is 0. -/
def Handle.ofRecord (bs : List Byte) (unit : Nat) (data : Tab Word) (bad : List Nat) : Option Handle :=
  let ctl := fieldAt bs 0xC 1
  if !natBit ctl 2 then none else
  let level : Level := if ctl % 4 == 2 then .gwin else if ctl % 4 == 1 then .ring else .scr
  some
    { level := level, rows := fieldAt bs 8 2, cols := fieldAt bs 0xA 2, wide := natBit ctl 3, base := BitVec.ofNat 64 (fieldAt bs 0 8),
      rstride := if level = .gwin then BitVec.ofNat 32 (fieldAt bs 0x10 4) else 0
      cstride := if level = .gwin then BitVec.ofNat 32 (fieldAt bs 0x14 4) else 0
      phead := fieldAt bs 0xD 1, chead := fieldAt bs 0xE 1,
      slots := if level = .ring then
          (upto 0 64).foldl (fun l i => Tab.put .free l i (slotOf (fieldAt bs 0x10 16 / 4 ^ i % 4))) [] else []
      unit := unit, data := data, bad := bad }

/-- A suspended command's record with the weights that records 0 and 1 hold (R302).
DEDUCED: assumption 30. DESIGN CHOICE: assumption 52. -/
def suspBytes (r : Option Susp) (w : Option Weights) : List Byte :=
  let cmd := match r with
    | some r => (r.desc.getD (toBytes 64 0)) ++ toBytes 8 r.cword.toNat ++ toBytes 8 r.offset ++ toBytes 4 r.seq ++ toBytes 4 r.age
        ++ toBytes 1 ((if r.matrix then 1 else 0) + 4 * r.state + 16 * r.frmp.toNat + (if r.coll.isSome then 64 else 0))
        ++ toBytes 7 0
    | none => toBytes 96 0
  let save := match w with
    | some w => w.bytes ++ [w.ord] ++ toBytes 1 1
    | none => toBytes 18 0
  cmd ++ save ++ toBytes 14 0

/-- A suspended command as its record says (R302), with what the record has no field for from the command of its number that
the team had; none where its STATE is 0. DEDUCED: assumption 30. DESIGN CHOICE: assumption 52. -/
def Susp.ofRecord (olds : List Susp) (bs : List Byte) : Option Susp :=
  let ctl := fieldAt bs 0x58 1
  let st := natBits ctl 2 2
  if st == 0 then none else
  let seq := fieldAt bs 0x50 4
  let old := olds.find? (fun r => r.seq == seq)
  let unread := match old with
    | some r => r.desc.isNone && (bs.take 64).all (· == 0)
    | none => false
  let same := match old with
    | some r => r.offset == fieldAt bs 0x48 8
    | none => false
  some
    { matrix := ctl % 4 == 1, fn := (old.map Susp.fn).getD (fieldAt bs 0 1), addr := (old.map Susp.addr).getD 0,
      pair := old.bind Susp.pair, swapped := (old.map Susp.swapped).getD false, desc := if unread then none else some (bs.take 64), cword := BitVec.ofNat 64 (fieldAt bs 0x40 8),
      offset := fieldAt bs 0x48 8, seq := seq, age := fieldAt bs 0x54 4, state := st, frmp := BitVec.ofNat 2 (natBits ctl 4 2),
      coll := if natBit ctl 6 then old.bind Susp.coll else none, flags := (old.map Susp.flags).getD 0,
      srcSlot := old.bind Susp.srcSlot, dstSlot := old.bind Susp.dstSlot, dropped := (old.map Susp.dropped).getD [],
      ahead := if same then (old.map Susp.ahead).getD 0 else 0, buf := if same then (old.map Susp.buf).getD [] else [] }

/-- The weights that a record holds (R302), with the number and the pairing of the MLDS that the team had there. -/
def Weights.ofRecord (old : Option Weights) (bs : List Byte) : Option Weights :=
  if natBit (fieldAt bs 0x71 1) 0 then
    some { seq := (old.map Weights.seq).getD 0, paired := (old.map Weights.paired).getD false, bytes := (bs.drop 0x60).take 16,
           ord := BitVec.ofNat 8 (fieldAt bs 0x70 1) }
  else none

/-- STATE of a thread record (R65, R66). A thread that a blocking instruction holds inside a user handler is written as held
(R365). DEDUCED: assumptions 50, 110. -/
def Thread.stateCode (x : Thread) : Nat :=
  let h := fun (n : Nat) => if x.handler then 4 else n
  match x.loc with
  | .vacant => 0
  | .waits _ => h 1
  | .pass => h 1
  | .held _ _ => 2
  | .parked => 3
  | .dormant => 5
  | .exited => 5

/-- A thread record (R65) with the thread's position as ADDR. -/
def Thread.recordBytes (x : Thread) (addr : DWord) (pawn : Bool) (age : Nat) : List Byte :=
  toBytes 8 addr.toNat ++ toBytes 8 (x.regionCnt.toNat * 2 ^ 32 + x.trapCause.toNat * 2 ^ 16 + (if pawn then 2 ^ 12 else 0)
      + x.stateCode * 2 ^ 9 + age)
    ++ toBytes 8 x.trapPc.toNat ++ toBytes 8 x.info0.toNat ++ toBytes 8 x.info1.toNat ++ toBytes 24 0

/-- A thread from its record: one whose STATE and ADDR are as they were written stays where it was, a held one in the
instruction that holds it; one that was moved meets the instruction at its address anew. DEDUCED: assumptions 48, 50. -/
def Thread.ofRecord (x : Thread) (addr : DWord) (bs : List Byte) : Thread :=
  let a := BitVec.ofNat 64 (fieldAt bs 0 8)
  let c := fieldAt bs 8 8
  let st := natBits c 9 3
  { x with
    loc := if st == x.stateCode && a == addr then x.loc
      else if st == 0 then .vacant
      else if st == 3 then .parked
      else if st == 5 then .exited
      else .waits a
    handler := if st == 4 then true else if st == 1 || st == 6 then false else x.handler
    regionCnt := BitVec.ofNat 32 (natBits c 32 32), trapCause := BitVec.ofNat 8 (natBits c 16 8)
    trapPc := BitVec.ofNat 64 (fieldAt bs 16 8), info0 := BitVec.ofNat 64 (fieldAt bs 24 8), info1 := BitVec.ofNat 64 (fieldAt bs 32 8) }

/-! ### Addresses -/

def Team.convAddr (t : Team) (n : Nat) : Nat := t.imgBase + 0x800 + 64 * n
def Team.suspAddr (t : Team) (i : Nat) : Nat := t.imgBase + 0x1000 + 128 * i
def Team.uniformAddr (t : Team) (g n : Nat) : Nat := t.imgBase + 0x8000 + 256 * g + 8 * n
def Team.threadAddr (t : Team) (tid : Nat) : Nat := t.imgBase + 0x10000 + 64 * tid
def Team.accAddr (t : Team) (place row col : Nat) : Nat := t.imgBase + 0xC0000 + 0x40000 * place + 4 * (512 * row + col)

/-! ### Writing -/

/-- A range written with its poisoned words marked. -/
def Memory.writeBad (m : Memory) (pa : Nat) (bs : List Byte) (bad : List Nat) : Memory :=
  bad.foldl (fun m w => m.mark (pa / 4 + w) true) (m.write pa bs)

/-- Words at 4-byte steps, zero where not listed, written over a zeroed range. -/
def Memory.writeWords (m : Memory) (pa n : Nat) (ws : Tab Word) (bad : List Nat) : Memory :=
  let m := ws.foldl (fun m w => if w.1 < n then m.write (pa + 4 * w.1) (toBytes 4 w.2.toNat) else m) (m.wipe pa (4 * n))
  bad.foldl (fun m w => m.mark (pa / 4 + w) true) m

/-- The words listed in a range of memory. -/
def Memory.readWords (m : Memory) (pa n : Nat) : Tab Word :=
  let hit := (m.cells.filter (fun c => decide (pa ≤ c.1) && decide (c.1 < pa + 4 * n))).map (fun c => (c.1 - pa) / 4)
  (dedupSorted hit).foldl (fun t w => Tab.put 0 t w (BitVec.ofNat 32 (m.readNat (pa + 4 * w) 4))) []

/-- The poisoned words of a range of memory. -/
def Memory.badWords (m : Memory) (pa n : Nat) : List Nat :=
  (m.badIn pa (4 * n)).map (fun w => w - pa / 4)

/-- The age of the entry in which a thread waits (R66). -/
def Team.ageOf (t : Team) (x : Thread) : Nat :=
  match x.loc with
  | .waits a => ((t.spill.find? (fun e => e.addr == a)).map Entry.years).getD 0
  | _ => 0

/-- ADDR of a thread record (R65): the thread's position (R41), 0 where it has none. -/
def State.addrOf (s : State) (k tid : Nat) : DWord := (s.position ((s.team k).lastCore.getD 0) k tid).getD 0

/-- Is a doubleword of the image, by its offset div 8, one of the per-team files: lane maps, barrier objects, convergence
registers, tile handles (R63, R64, R79)? -/
def fileWords : List Nat := [6, 7] ++ upto 128 64 ++ upto 256 256

/-- A word of the per-team files as it stands in the image (R64, R67, R159, R212). -/
def Team.fileWord (t : Team) (w : Nat) : List Byte :=
  if w < 8 then ((((upto 1 7).flatMap (fun m => toBytes 2 (t.lmGet m).toNat)) ++ toBytes 2 0).drop (8 * (w - 6))).take 8
  else if w < 256 then ((Tab.get Barrier.empty t.b ((w - 128) / 4)).bytes.drop (8 * (w % 4))).take 8
  else if w < 384 then ((Tab.get Conv.empty t.k ((w - 256) / 8)).bytes.drop (8 * (w % 8))).take 8
  else ((match t.h.find? ((w - 384) / 4) with
    | some h => h.bytes
    | none => toBytes 32 0).drop (8 * (w % 4))).take 8

/-- A record with the doubleword at a place replaced. -/
def withWord (bs : List Byte) (i : Nat) (v : List Byte) : List Byte := bs.take (8 * i) ++ v ++ bs.drop (8 * i + 8)

/-- A word of the per-team files replaced. -/
def Team.putFileWord (t : Team) (w : Nat) (v : List Byte) : Team :=
  if w < 8 then
    { t with lm := (upto 0 4).foldl (fun l j =>
        let m := 4 * (w - 6) + j + 1
        if m < 8 then Tab.set l m (BitVec.ofNat 16 (fieldAt v (2 * j) 2)) else l) t.lm }
  else if w < 256 then
    let n := (w - 128) / 4
    { t with b := Tab.set t.b n (Barrier.ofRecord (withWord (Tab.get Barrier.empty t.b n).bytes (w % 4) v)) }
  else if w < 384 then
    let n := (w - 256) / 8
    { t with k := Tab.set t.k n (Conv.ofRecord (withWord (Tab.get Conv.empty t.k n).bytes (w % 8) v)) }
  else
    let n := (w - 384) / 4
    match t.h.find? n with
    | none => t
    | some h =>
      match Handle.ofRecord (withWord h.bytes (w % 4) v) h.unit h.data h.bad with
      | some h => { t with h := t.h.set n h }
      | none => { t with h := t.h.erase n }

/-- A word of a team's per-team files lost to an uncorrectable error (R84): it is poisoned. R85's table, which decides what
consumes a poisoned word, names no word of these files, so that reading one raises nothing and gives a free value; writing
its record ends the poison. DESIGN CHOICE: assumption 101. -/
def State.spoilFile (s : State) (k w : Nat) : State :=
  let (n, s) := s.takeFresh
  let t := (s.team k).putFileWord w (toBytes 8 (Config.freeDWord n).toNat)
  s.setTeam k { t with fileBad := (w, t.fileWord w) :: t.fileBad.filter (fun f => f.1 != w) }

/-- The poisoned words of a team's files: those that have not been written since. -/
def Team.badFiles (t : Team) : List Nat := (t.fileBad.filter (fun f => t.fileWord f.1 == f.2)).map Prod.fst

/-- The per-team files, thread records, uniform registers, tiles and suspended commands written to the image and the save
area (R66, R69, R79, R158, R302). DEDUCED: assumption 30. -/
def State.writeFiles (s : State) (k : Nat) : State :=
  let t := s.team k
  let m := s.mem.write t.imgBase (t.headerBytes false)
  let m := (upto 0 16).foldl (fun m n =>
    if s.barrierOwner k n == k then m.write (t.barrierAddr n) (Tab.get Barrier.empty t.b n).bytes else m) m
  let m := (upto 0 16).foldl (fun m n => m.write (t.convAddr n) (Tab.get Conv.empty t.k n).bytes) m
  let m := (upto 0 32).foldl (fun m n => m.write (t.handleAddr n)
    (match t.h.find? n with
      | some h => h.bytes
      | none => toBytes 32 0)) m
  let m := (upto 0 32).foldl (fun m i => m.write (t.suspAddr i)
    (suspBytes t.susp[i]? (if i == 0 then t.curW else if i == 1 then t.penW.head? else none))) m
  let m := (upto 0 t.gangs).foldl (fun m g => (upto 0 32).foldl (fun m n =>
    m.writeBad (t.uniformAddr g n) (toBytes 8 (t.sget g n).toNat) (if t.spoison g n then [0, 1] else [])) m) m
  let m := t.threads.foldl (fun m x =>
    m.write (t.threadAddr x.1) (x.2.recordBytes (s.addrOf k x.1) (t.isPawn x.1) (t.ageOf x.2))) m
  let m := t.h.foldl (fun m h =>
    if h.2.units == 0 then m else m.writeWords (t.saveAddr h.1) (1024 * h.2.units) h.2.data h.2.bad) m
  let m := t.badFiles.foldl (fun m w => m.poison (t.imgBase + 8 * w) 8) m
  ((s.setMem m).markRange t.vmid t.imgBase (0x10000 + 64 * t.slotCount)).markRange t.vmid t.tsBase (4096 * t.tsUnits)

/-- The image driven clean (R69, R70): every dirty line of the team is written, its lines leave the pools, and CLEAN is set; the
files and tiles were written when the team left its core (R79, R158). DEDUCED: assumption 48. -/
def State.driveClean (s : State) (k : Nat) : State :=
  let s := s.cores.foldl (fun s c =>
    let mine := c.2.lines.filter (fun l => l.team == k)
    let s := mine.foldl (fun s l => if l.dirty || (s.team k).lineBad l.q l.n then s.writeLine k l.q l.n else s) s
    s.updCore c.1 (fun core => { core with lines := core.lines.filter (fun l => l.team != k) })) s
  let t := s.team k
  (s.writeFor t.vmid (t.imgBase + 0x42) (t.imgState true)).setTeam k { t with clean := true }

/-! ### Reading a clean image -/

/-- The threads that wait, as a spill list (R66). -/
def Team.rebuildSpill (t : Team) (k : Nat) (m : Memory) : List Entry :=
  t.threads.foldl (fun es x => match x.2.loc with
    | .waits a =>
      if es.any (fun e => e.addr == a) then es else
      let old := t.spill.find? (fun e => e.addr == a)
      es ++ [{ team := k, addr := a, mid := (old.map Entry.mid).getD true,
               encl := (old.map Entry.encl).getD none, idle := ((old.map Entry.idle).getD 0) % 256,
               age := natBits (m.readNat (t.threadAddr x.1 + 8) 8) 0 9, born := (old.map Entry.born).getD 0, ready := none }]
    | _ => es) []

/-- A thread's register words from its lines (R71, R84). -/
def Team.readRegs (t : Team) (m : Memory) (tid : Nat) (x : Thread) : Thread :=
  if x.loc = .vacant then x else
  let q := t.laneBlock tid
  let at_ := fun (n : Nat) => t.lineAddr q n + 4 * (t.laneOf tid % 16)
  (upto 0 66).foldl (fun x n =>
    let x := x.slotSet n (BitVec.ofNat 32 (m.readNat (at_ n) 4))
    if m.poisoned (t.lineAddr q n) 64 then { x with bad := setIns x.bad n } else x) x

/-- The s registers, the per-team files and the tiles of a team read back from its image and its save area, with their poison (R79,
R158). -/
def State.readFiles (s : State) (k : Nat) : State :=
  let t := s.team k
  let m := s.mem
  let t1 := { t with
    fileBad := []
    lm := (upto 1 7).foldl (fun l n => Tab.put 0 l n (BitVec.ofNat 16 (m.readNat (t.imgBase + 0x30 + 2 * (n - 1)) 2))) []
    b := (upto 0 16).foldl (fun l n => if s.barrierOwner k n == k then
        Tab.put Barrier.empty l n (Barrier.ofRecord (m.read (t.barrierAddr n) 32)) else l) []
    k := (upto 0 16).foldl (fun l n => Tab.put Conv.empty l n (Conv.ofRecord (m.read (t.convAddr n) 64))) []
    s := (upto 0 t.gangs).foldl (fun l g => (upto 1 31).foldl (fun l n =>
        Tab.put 0 l (32 * g + n) (BitVec.ofNat 64 (m.readNat (t.uniformAddr g n) 8))) l) []
    sbad := (upto 0 t.gangs).foldl (fun l g => (upto 1 31).foldl (fun l n =>
        if m.poisoned (t.uniformAddr g n) 8 then setIns l (32 * g + n) else l) l) []
    h := (upto 0 32).foldl (fun l n =>
        let old := t.h.find? n
        let u := (old.map Handle.units).getD 0
        match Handle.ofRecord (m.read (t.handleAddr n) 32) ((old.map Handle.unit).getD 0)
            (m.readWords (t.saveAddr n) (1024 * u)) (m.badWords (t.saveAddr n) (1024 * u)) with
        | some h => Tab.set l n h
        | none => l) [] }
  let s := ((s.readHome t.imgBase 0x1000).readHome (t.uniformAddr 0 0) (256 * t.gangs)).readHome t.tsBase (4096 * (t.h.map (fun h => h.2.units)).sum)
  (fileWords.filter (fun w => m.poisoned (t.imgBase + 8 * w) 8)).foldl (fun s w => s.spoilFile k w) (s.setTeam k t1)

/-- A team as its clean image says (R69): everything that the image holds. A dormant pawn whose record is unchanged stays
dormant. DEDUCED: assumptions 48, 50. -/
def State.readImage (s : State) (k : Nat) : State :=
  let t := s.team k
  let m := s.mem
  let t1 := t.ofHeader (m.read t.imgBase 0x43)
  let t1 := { t1 with
    threads := t.threads.mapVal (fun j (x : Thread) =>
      t.readRegs m j (x.ofRecord (s.addrOf k j) (m.read (t.threadAddr j) 40)))
    susp := (upto 0 32).filterMap (fun i => Susp.ofRecord t.susp (m.read (t.suspAddr i) 128))
    padBad := []
    curW := Weights.ofRecord t.curW (m.read (t.suspAddr 0) 128)
    penW := (Weights.ofRecord t.penW.head? (m.read (t.suspAddr 1) 128)).toList ++ t.penW.drop 1 }
  ((s.readHome (t.suspAddr 0) 0x1000).readHome (t.threadAddr 0) (64 * t.slotCount)).setTeam k { t1 with spill := t1.rebuildSpill k m }

/-- IMGSTATE.CLEAN cleared when the team becomes resident (R69). -/
def State.unclean (s : State) (k : Nat) : State :=
  let t := s.team k
  if t.clean then (s.writeFor t.vmid (t.imgBase + 0x42) (t.imgState false)).setTeam k { t with clean := false } else s

/-! ### The objects of a team that is gone (R58) -/

/-- Has a team retired, or been killed? -/
def Team.dead (t : Team) : Bool :=
  match t.state with
  | .retired | .killed _ _ => true
  | _ => false

/-- The team that holds the league-shared objects of a team, where it has retired or been killed and the league has left its
cores (R58). -/
def State.orphaned (s : State) (k : Nat) : Option Nat :=
  let o := s.barrierOwner k 12
  if decide (o ≠ k) && (s.team o).dead && (s.league k).all (fun j => (s.team j).dead || (s.team j).onCore.isNone) then some o
  else none

/-- The league-shared objects of such a team written to its image when the league has left (R58), with the arrivals that its core had
on their way. -/
def State.writeShared (s : State) (k : Nat) : State :=
  match s.orphaned k with
  | none => s
  | some o =>
    let s := match (s.team o).onCore with
      | some c => s.drainCore c
      | none => s
    let t := s.team o
    ((upto 12 4).foldl (fun s n => s.writeFor t.vmid (t.barrierAddr n) (Tab.get Barrier.empty t.b n).bytes) s).setTeam o
      { t with clean := true }

/-- They are read back when the league is next resident (R58). -/
def State.readShared (s : State) (k : Nat) : State :=
  match s.orphaned k with
  | none => s
  | some o =>
    let t := s.team o
    (s.readHome (t.barrierAddr 12) 128).setTeam o { t with
      clean := false
      b := (upto 12 4).foldl (fun l n => Tab.put Barrier.empty l n (Barrier.ofRecord (s.mem.read (t.barrierAddr n) 32))) t.b }

/-! ### The first image (R68) -/

/-- The image of a team that is bound for the first time: zero but for the header, the thread records and the s registers. -/
def State.firstImage (s : State) (k : Nat) : State :=
  let t := s.team k
  let m := (s.mem.zero t.imgBase 0x140000).write t.imgBase (t.headerBytes false)
  let m := t.threads.foldl (fun m x => m.write (t.threadAddr x.1) (x.2.recordBytes (s.addrOf k x.1) (t.isPawn x.1) 0)) m
  let m := t.s.foldl (fun m r => m.write (t.uniformAddr (r.1 / 32) (r.1 % 32)) (toBytes 8 r.2.toNat)) m
  (s.setMem m).markRange t.vmid t.imgBase 0x140000

end Sys2Proof.Machine
end

