-- ==== Sys2Proof/Machine/Matrix.lean ====
section
/-! DEFINITION. The matrix engine (R200 to R231): acceptance and its checks, the arbiter, the passes of MLDS, MSTRM, MDRN and
MZACC over planes and accumulator tiles, the promotion buffer, completion and error phases, suspension, and the activity
ramp. -/

namespace Sys2Proof.Machine

/-! ### Modes and slices (R201, R202) -/

/-- The fields of a FMT byte. -/
def fmtMode (b : Nat) : Nat := b % 4
def fmtSp (b : Nat) : Bool := natBit b 2
def fmtScl (b : Nat) : Bool := natBit b 3

/-- Words of a slice of weights, of metadata, of scales and of a stream row. -/
def qWeight (b : Nat) : Nat :=
  match fmtMode b with
  | 2 => 96
  | 3 => 128
  | _ => 64
def qMeta (b : Nat) : Nat := if fmtMode b == 2 then 30 else 16
def qScale (b : Nat) : Nat := (if fmtMode b == 2 then 3 else 2) * (if fmtSp b then 2 else 1)
def qStream (b : Nat) : Nat := qWeight b * (if fmtSp b then 2 else 1)

/-- Elements of a block of the stream, and blocks of a slice. -/
def blockLen (b : Nat) : Nat := if fmtMode b == 2 then 40 else 32
def blockCount (b : Nat) : Nat := (if fmtMode b == 2 then 12 else 8) * (if fmtSp b then 2 else 1)

/-- The elements of a word. -/
def modeElems (b : Nat) (w : Word) : List Nat :=
  match fmtMode b with
  | 0 => wordBytes w.toNat
  | 1 => Tap.t8.elems w.toNat
  | 2 => Tap.t6.elems w.toNat
  | _ => wordHalves w.toNat

/-- Block j of a stream row and of a plane column: the positions that meet a weight, and the weights (R202, R219). -/
def blockPair (b : Nat) (stream weights : List Nat) (md : List Word) (j : Nat) : List Nat × List Nat :=
  let l := blockLen b
  if !fmtSp b then ((stream.drop (l * j)).take l, (weights.drop (l * j)).take l)
  else
    let groups := upto (l / 4 * j) (l / 4)
    let nib := fun (g : Nat) => natBits ((md.getD (g / 8) 0).toNat) (4 * (g % 8)) 4
    (groups.flatMap (fun g => [stream.getD (4 * g + nib g % 4) 0, stream.getD (4 * g + nib g / 4) 0]),
     groups.flatMap (fun g => [weights.getD (2 * g) 0, weights.getD (2 * g + 1) 0]))

/-- Byte j of scale words; 0x78 without scales (R104, R219). -/
def scaleOf (scl : Bool) (ws : List Word) (j : Nat) : Nat :=
  if scl then natBits ((ws.getD (j / 4) 0).toNat) (8 * (j % 4)) 8 else sx8One

/-! ### Descriptors (R208, R216 to R221) -/

/-- A handle byte without its reserved bits. -/
def handleByte (v : Nat) : Bool := decide (v < 32)
/-- The carry-tile byte: bits 6:5 reserved. -/
def carryByte (v : Nat) : Bool := v / 32 % 4 == 0

/-- The FMT byte and its tiles are well formed: SCL only where the mode has scales (R217). -/
def fmtOk (b : Nat) : Bool := decide (b < 16) && !(fmtScl b && (fmtMode b == 0 || fmtMode b == 3))

/-- The accumulator tile that a request names, and its first row and number of rows. -/
def reqAcc (fn : Nat) (d : List Byte) : Option Nat :=
  match fn with
  | 0x11 => some (fieldAt d 0x15 1 % 8)
  | 0x12 => some (fieldAt d 0x13 1 % 8)
  | 0x13 => some (fieldAt d 0x10 1 % 8)
  | _ => none
def reqR0 (fn : Nat) (d : List Byte) : Nat :=
  match fn with
  | 0x11 => fieldAt d 0x16 1
  | 0x12 => fieldAt d 0x14 1
  | _ => fieldAt d 0x11 1
def reqRows (fn : Nat) (d : List Byte) : Nat :=
  match fn with
  | 0x11 => fieldAt d 0x18 2
  | 0x12 => fieldAt d 0x16 2
  | 0x13 => fieldAt d 0x12 2
  | _ => 1

/-- The descriptor is well formed for its function (R216 to R221). -/
def descOk (fn : Nat) (d : List Byte) : Bool :=
  let u := fieldAt d
  let b := u 0x10 1
  let head := ordOk (u 1 1) && decide (u 2 1 < 4) && u 3 5 == 0
  let rows := decide (reqR0 fn d < 128) && decide (1 ≤ reqRows fn d) && decide (reqR0 fn d + reqRows fn d ≤ 128)
  head && (match fn with
    | 0x10 => fmtOk b && handleByte (u 0x11 1) && handleByte (u 0x12 1) && handleByte (u 0x13 1)
        && (fmtSp b || u 0x12 1 == 0) && (fmtScl b || u 0x13 1 == 0)
        && decide (1 ≤ u 0x14 2) && decide (u 0x14 2 ≤ 512) && u 0x16 2 == 0 && u 0x20 32 == 0
    | 0x11 => fmtOk b && decide (u 0x11 1 < 4) && handleByte (u 0x12 1) && handleByte (u 0x13 1)
        && (fmtScl b || u 0x13 1 == 0) && carryByte (u 0x14 1) && decide (u 0x15 1 < 8) && rows
        && u 0x17 1 == 0 && u 0x1A 2 == 0 && u 0x24 28 == 0
        && (if fmtMode b == 0 then natBit (u 0x11 1) 1 || natBit (u 0x14 1) 7
            else !natBit (u 0x11 1) 1 && u 0x14 1 == 0)
    | 0x12 => decide (b < 32) && decide (b % 8 < 5) && !(b % 8 == 4 && !natBit b 3) && handleByte (u 0x11 1)
        && carryByte (u 0x12 1) && (natBit b 3 || u 0x12 1 == 0) && decide (u 0x13 1 < 8) && rows && u 0x15 1 == 0
        && decide (1 ≤ u 0x18 2) && decide (u 0x18 2 ≤ 512) && u 0x1A 2 == 0 && u 0x24 28 == 0
    | 0x13 => decide (b < 8) && rows && carryByte (u 0x14 1) && u 0x15 43 == 0
    | _ => false)

/-- An operand tile: allocated, SCR or GWIN, 4-byte elements, and n words from each of rows r0 to r0 + m − 1 at slice k in
range (R202, R208). -/
def Team.operandOk (t : Team) (hn r0 m slice q : Nat) : Bool :=
  match t.handle? hn with
  | none => false
  | some h => decide (h.level ≠ .ring) && !h.wide && decide ((r0 + m - 1) * h.cols + slice * q + q ≤ h.count)

/-- A carry tile (R218). -/
def Team.carryOk (t : Team) (cv : Nat) : Bool :=
  !natBit cv 7 || (match t.handle? (cv % 32) with
    | none => false
    | some h => decide (h.level = .scr) && !h.wide && decide (65536 ≤ h.count))

/-- Words of a destination row of MDRN (R220). -/
def drainWords (dfmt nc : Nat) : Nat :=
  match dfmt with
  | 1 => (nc + 1) / 2
  | 2 => (nc + 3) / 4
  | 3 => (nc + 4) / 5
  | _ => nc

/-- The tiles of a request are the team's and cover what it reads and writes (R203, R208). -/
def Team.tilesOk (t : Team) (fn : Nat) (d : List Byte) : Bool :=
  let u := fieldAt d
  let b := u 0x10 1
  let acc := match reqAcc fn d with
    | none => true
    | some a => decide (t.accA = some a) || decide (t.accB = some a)
  acc && (match fn with
    | 0x10 =>
      let rd := fun (hn q : Nat) => t.operandOk hn (u 0x18 4) (u 0x14 2) (u 0x1C 4) q
      rd (u 0x11 1) (qWeight b) && (!fmtSp b || rd (u 0x12 1) (qMeta b)) && (!fmtScl b || rd (u 0x13 1) (qScale b))
    | 0x11 =>
      let rd := fun (hn q : Nat) => t.operandOk hn (u 0x1C 4) (u 0x18 2) (u 0x20 4) q
      rd (u 0x12 1) (qStream b) && (!fmtScl b || rd (u 0x13 1) (qScale b)) && t.carryOk (u 0x14 1)
    | 0x12 => t.operandOk (u 0x11 1) (u 0x20 4) (u 0x16 2) 0 (drainWords (b % 8) (u 0x18 2)) && t.carryOk (u 0x12 1)
    | _ => t.carryOk (u 0x14 1))

/-- The error phase that the checks at acceptance yield (R208), the completion word's last (R387). The spec does not say which phase
counts where several checks fail: the model takes BAD_DESCRIPTOR, ACCESS and HANDLE in this order.
DESIGN CHOICE: assumption 89. -/
def State.matCheck (s : State) (k fn : Nat) (d : List Byte) (cw : DWord) : Option (BitVec 8) :=
  let t := s.team k
  if fieldAt d 0 1 != fn || !descOk fn d then some errBadDescriptor
  else if s.ordDenied t.vmid (fieldAt d 1 1) then some errAccess
  else if !t.tilesOk fn d then some errHandle
  else if cwBad cw then some errBadDescriptor
  else none

/-- The accumulator tiles of a team zeroed (R59). -/
def State.zeroAcc (s : State) (c : Nat) (t : Team) : State :=
  let mine := fun (a : Nat) => t.accA == some a || t.accB == some a
  s.updMatrix (coreCluster c) (fun m => { m with
    acc := m.acc.filter (fun w => !mine (w.1 / 65536)), accBad := m.accBad.filter (fun w => !mine (w / 65536))
    promo := m.promo.filter (fun e => !mine e.acc) })

/-! ### Errors and pairing (R215, R227, R228) -/

/-- The rows from the failing one of a request on are unspecified (R228), elements and carries alike: free values, until MZACC
clears them. cv is the request's carry-tile byte. DEDUCED: assumption 53. -/
def State.spoilRows (s : State) (cl k acc r0 n cv : Nat) : State :=
  let (f, s) := s.takeFresh
  let base := (acc * 128 + r0) * 512
  let mine := fun (e : Promo) => e.acc == acc && decide (r0 ≤ e.row) && decide (e.row < r0 + n)
  let s := s.updMatrix cl (fun m => { m with
    acc := (upto base (n * 512)).foldl (fun t i => Tab.put 0 t i (Config.freeWord (f * 0x100000 + i))) m.acc
    accBad := m.accBad.filter (fun i => !(decide (base ≤ i) && decide (i < base + n * 512)))
    promo := m.promo.map (fun e => if mine e then
      { e with carry := (Config.freeWord (f * 0x100000 + 0x80000 + (acc * 128 + e.row) * 512 + e.col)).extractLsb' 0 4 } else e) })
  if natBit cv 7 then
    match (s.team k).handle? (cv % 32) with
    | none => s
    | some h =>
      let (f, s) := s.takeFresh
      s.setHandle k (cv % 32) ((upto (r0 * 512) (n * 512)).foldl (fun h i =>
        h.put i (Config.freeWord (f * 0x100000 + i))) h)
  else s

/-- An error of a request posted by KSIGN that was found before its completion word was read is kept in the register
(R208). -/
def State.convError (s : State) (k n : Nat) (code : BitVec 8) : State :=
  s.setConv k n { (s.team k).conv n with err := true, errCode := code }

/-- The error phase of a request (R208, R227). -/
def State.reqError (s : State) (r : MatReq) (code : BitVec 8) : State :=
  match r.coll, r.desc with
  | some n, none => s.convError r.team n code
  | _, _ => s.phaseError r.team (cwBarrier r.cword) code

/-- A request ends in an error phase: it frees its entry; a MLDS takes its MSTRM with it, at once where that is in its table
or among its team's saved commands, or at its acceptance (R215, R227). -/
def State.endReq (s : State) (cl i : Nat) (r : MatReq) (code : BitVec 8) : State :=
  let s := (s.dropReq cl i).reqError r code
  if r.fn != 0x10 then s else
  match r.pair with
  | none => s.updMatrix cl (fun m => { m with failed := m.failed ++ [(r.team, r.seq)] })
  | some q =>
    match List.find? (fun (e : Nat × MatReq) => e.2.team == r.team && e.2.seq == q) (s.cluster cl).matrix.table with
    | some (j, e) => (s.dropReq cl j).reqError e errAborted
    | none =>
      match (s.team r.team).susp.find? (fun e => e.matrix && e.seq == q) with
      | some e => (s.updTeam r.team (fun t => { t with susp := t.susp.filter (fun x => !(x.matrix && x.seq == q)) })).phaseError
          r.team (cwBarrier e.cword) errAborted
      | none => s

/-- The team's first MLDS accepted before a number that no MSTRM is paired with (R215): by its acceptance number. -/
def State.unpaired (s : State) (cl k before : Nat) : Option Nat :=
  let m := (s.cluster cl).matrix
  let run := (m.table.filter (fun e => e.2.team == k && e.2.fn == 0x10 && e.2.pair.isNone)).map (fun e => e.2.seq)
  let pen := ((s.team k).penW.filter (fun w => !w.paired)).map Weights.seq
  let bad := (m.failed.filter (fun e => e.1 == k)).map Prod.snd
  minBy id ((run ++ pen ++ bad).filter (fun q => decide (q < before)))

/-- The MLDS with an acceptance number is paired with an MSTRM's. -/
def State.pairWith (s : State) (cl k seq mine : Nat) : State :=
  let s := s.updMatrix cl (fun m => { m with
    table := m.table.mapVal (fun _ r => if r.team == k && r.seq == seq then { r with pair := some mine } else r)
    failed := m.failed.filter (fun e => e != (k, seq)) })
  s.updTeam k (fun t => { t with penW := t.penW.map (fun w => if w.seq == seq then { w with paired := true } else w) })

/-- Is the request an MSTRM with SWAP = 1, as far as its descriptor is read, that has not swapped yet (R200, R215)?
DESIGN CHOICE: assumption 14. -/
def MatReq.swaps (r : MatReq) : Bool :=
  r.fn == 0x11 && r.desc.isSome && natBit (fieldAt (r.desc.getD []) 0x11 1) 0 && !r.swapped

/-- May the request turn out to be an MSTRM with SWAP = 1: is its descriptor still unread (R208)? -/
def MatReq.open (r : MatReq) : Bool := r.desc.isNone && (r.fn == 0x11 || r.coll.isSome)

/-- The first MSTRM with SWAP = 1 of a team that waits for its MLDS, unless an earlier request of the team may be one
(R215): its acceptance number, and its entry where it has not failed a check. -/
def State.pairTurn (s : State) (cl k : Nat) : Option (Nat × Option (Nat × MatReq)) :=
  let m := (s.cluster cl).matrix
  let mine := m.table.filter (fun e => e.2.team == k)
  let run := (mine.filter (fun e => e.2.swaps && e.2.pair.isNone)).map (fun e => (e.2.seq, some e))
  match minBy Prod.fst (run ++ (m.spent.filter (fun e => e.1 == k)).map (fun e => (e.2, none))) with
  | none => none
  | some x => if mine.any (fun y => y.2.open && decide (y.2.seq < x.1)) then none else some x

/-- The MSTRMs with SWAP = 1 of a team paired in their order of acceptance (R215), at most n of them: without an unpaired MLDS
accepted before it one ends in BAD_DESCRIPTOR, and with one that has ended in an error phase in ABORTED. One that failed a
check takes its MLDS too. -/
def State.settlePairs (s : State) (cl k : Nat) : Nat → State
  | 0 => s
  | n + 1 =>
    match s.pairTurn cl k with
    | none => s
    | some (seq, e) =>
      let dead := fun (q : Nat) => (s.cluster cl).matrix.failed.contains (k, q)
      let s := match s.unpaired cl k seq, e with
        | none, some (i, r) => s.endReq cl i r errBadDescriptor
        | none, none => s
        | some q, some (i, r) =>
          let s' := s.pairWith cl k q seq
          if dead q then s'.endReq cl i r errAborted else s'.setReq cl i { r with pair := some q }
        | some q, none => s.pairWith cl k q seq
      (s.updMatrix cl (fun m => { m with spent := m.spent.filter (fun x => x != (k, seq)) })).settlePairs cl k n

/-- A request that ends in an error phase, and the pairings that waited for its descriptor (R215). -/
def State.failReq (s : State) (cl i : Nat) (r : MatReq) (code : BitVec 8) : State :=
  (s.endReq cl i r code).settlePairs cl r.team 16

/-- The checks of an accepted request once its descriptor is read, and the pairings that it settles (R208, R215): an MSTRM with
SWAP = 1 that fails one has been accepted, and is paired all the same. -/
def State.checkReq (s : State) (cl i : Nat) (r : MatReq) : State :=
  match s.matCheck r.team r.fn (r.desc.getD []) r.cword with
  | some e =>
    let s := if r.swaps && fieldAt (r.desc.getD []) 0 1 == 0x11 then
        s.updMatrix cl (fun m => { m with spent := m.spent ++ [(r.team, r.seq)] }) else s
    s.failReq cl i r e
  | none => (s.setReq cl i r).settlePairs cl r.team 16

/-- A request with its descriptor: a KSIGN-posted one takes its function and completion word from it (R208, R210). -/
def MatReq.withDesc (r : MatReq) (d : List Byte) : MatReq :=
  if r.coll.isSome then { r with desc := some d, fn := fieldAt d 0 1, cword := BitVec.ofNat 64 (fieldAt d 8 8) }
  else { r with desc := some d }

/-- The fault of an engine's command or request recorded (R173). -/
def State.engineFault (s : State) (d k : Nat) (va : DWord) (acc : Access) (cause : Nat) (who : Waiter) :
    Option (Nat × Nat) × State :=
  let t := s.team k
  let (i, s) := s.recordFault d t.space va (kindOf acc true) cause t.ctxid who
  (i.map (fun i => (d, i)), s)

/-- The die of a cluster. -/
def clusterDie (cl : Nat) : Nat := sliceDie (clusterSlice cl)

/-- The descriptor of an accepted request read and checked, or the request suspended on it (R208). -/
def State.readReq (s : State) (c cl i : Nat) (r : MatReq) : State :=
  if r.addr.toNat % 64 != 0 then s.failReq cl i r errBadDescriptor else
  match s.readDescriptor c r.team r.addr r.coll.isSome with
  | (.ok d, s) => (s.postRelease c d).checkReq cl i { r.withDesc d with state := .waiting, fault := none }
  | (.error (.err e), s) => s.failReq cl i r e
  | (.error (.fault va acc cause), s) =>
    let (f, s) := s.engineFault (clusterDie cl) r.team va acc cause (.matrix cl i)
    s.setReq cl i { r with state := .suspended, fault := f }

/-- A request accepted into a free entry (R207, R208). -/
def State.acceptReq (s : State) (c cl k fn : Nat) (a cw : DWord) (frm : BitVec 2) (coll : Option Nat) (i : Nat) : State :=
  let (q, s) := s.takeSeq k
  s.readReq c cl i
    { team := k, fn := fn, addr := a, desc := none, cword := cw, frm := frm, coll := coll, seq := q, since := s.ccNow,
      state := .waiting, row := 0, pair := none, swapped := false, flags := 0, shadowWait := none, fault := none, err := none }

/-- The first register in POSTING that its team's limit allows (R210). -/
def State.postingTurn (s : State) (cl : Nat) : Option (Nat × Nat) :=
  (s.cluster cl).matrix.posting.find? (fun p =>
    ((s.team p.1).conv p.2).state == 2 && s.commandCount p.1 < 32 && (s.team p.1).susp.isEmpty)

/-- MATRIX_REQUEST_ACCEPT: a free entry is taken by the first register in POSTING, else by the first post of the cluster's
cores (R207, R210, R388). -/
def execMatrixRequestAccept (cl : Nat) (s : State) : Host.Outcome State Fault Refusal :=
  let m := (s.cluster cl).matrix
  let i := m.table.freeKey 0
  if 16 ≤ i then .next s else
  match s.postingTurn cl with
  | some (k, n) =>
    let v := (s.team k).conv n
    let s := s.updMatrix cl (fun m => { m with posting := m.posting.filter (fun p => p != (k, n)) })
    let s := s.setConv k n { v with state := 0 }
    .next (s.acceptReq (((s.team k).onCore).getD (4 * cl)) cl k 0 v.desc 0 v.frmp (some n) i)
  | none =>
    match s.clusterPost cl true with
    | none => .next s
    | some (c, k, fn, re, sd, g) =>
      let s := s.nextPost c k
      let s := if re then s.reply k g.gang sd (BitVec.ofNat 64 i) else s
      .next (s.acceptReq c cl k fn g.a g.b (s.team k).frm none i)

/-! ### The promotion buffer (R223 to R225) -/

/-- What INT8 work on an element changes: the engine's promotion buffer and the carry tile. -/
structure Promoter where
  promo : List Promo
  carry : Option Handle
  deriving DecidableEq, Repr

/-- Entries of a tile. -/
def Promoter.held (x : Promoter) (a : Nat) : Nat := (x.promo.filter (fun e => e.acc == a)).length

/-- May the tile take a new entry (R224)? -/
def Promoter.mayTake (x : Promoter) (a : Nat) : Bool :=
  decide (x.held a < 64) || decide (((upto 0 8).map (fun b => x.held b - 64)).foldl (· + ·) 0 < 512)

/-- Every entry of a tile folded into the carry tile and freed (R224); none where a word to be added to is poisoned. -/
def Promoter.spill (x : Promoter) (a : Nat) : Option Promoter :=
  match x.carry with
  | none => none
  | some h =>
    let mine := x.promo.filter (fun e => e.acc == a)
    if mine.any (fun e => h.bad.contains (e.row * 512 + e.col)) then none else
    some { promo := x.promo.filter (fun e => e.acc != a)
           carry := some (mine.foldl (fun h e =>
             let i := e.row * 512 + e.col
             h.put i (Tab.get 0 h.data i + e.carry.signExtend 32)) h) }

/-- An escape of an element (R223, R224); one that ends the pass leaves the entries that earlier ones took (R466). -/
def Promoter.escape (x : Promoter) (a row col : Nat) (up pm : Bool) : Except (BitVec 8 × Promoter) Promoter :=
  let by_ : BitVec 4 := if up then 1 else 15
  if x.promo.any (fun e => e.acc == a && e.row == row && e.col == col) then
    .ok { x with promo := x.promo.map (fun e =>
      if e.acc == a && e.row == row && e.col == col then { e with carry := e.carry + by_ } else e) }
  else
    let add := fun (x : Promoter) => { x with promo := x.promo ++ [{ acc := a, row := row, col := col, carry := by_ }] }
    if x.mayTake a then .ok (add x)
    else if pm then .error (errPromotionFull, x)
    else match x.spill a with
      | none => .error (errPoison, x)
      | some x => .ok (add x)

/-- The INT8 block sums of a pass added to an element (R204, R223): bits 31:28 stay. -/
def Promoter.int8 (x : Promoter) (a row col : Nat) (pm : Bool) : Word → List Int → Except (BitVec 8 × Promoter) (Word × Promoter)
  | e, [] => .ok (e, x)
  | e, y :: ys =>
    let v := (e.extractLsb' 0 28).toInt + y
    let put := fun (v : Int) => (e.extractLsb' 28 4 ++ BitVec.ofInt 28 v : Word)
    if 2 ^ 27 ≤ v then
      match x.escape a row col true pm with
      | .error c => .error c
      | .ok x => x.int8 a row col pm (put (v - 2 ^ 28)) ys
    else if v < -(2 ^ 27) then
      match x.escape a row col false pm with
      | .error c => .error c
      | .ok x => x.int8 a row col pm (put (v + 2 ^ 28)) ys
    else x.int8 a row col pm (put v) ys

/-! ### Planes (R200, R217) -/

/-- A plane column: its weight, metadata and scale words. -/
def State.loadCol (s : State) (d k : Nat) (w : List Byte) (n : Nat) : Except EStop PlaneCol × State :=
  let u := fieldAt w
  let b := u 0 1
  let get := fun (s : State) (on : Bool) (hn q : Nat) =>
    if !on then (Except.ok [], s) else
    match (s.team k).handle? hn with
    | none => (.error (.err errHandle), s)
    | some h => s.tileWords d k hn ((u 8 4 + n) * h.cols + u 0xC 4 * q) q
  match get s true (u 1 1) (qWeight b) with
  | (.error e, s) => (.error e, s)
  | (.ok ws, s) =>
    match get s (fmtSp b) (u 2 1) (qMeta b) with
    | (.error e, s) => (.error e, s)
    | (.ok ms, s) =>
      match get s (fmtScl b) (u 3 1) (qScale b) with
      | (.error e, s) => (.error e, s)
      | (.ok ss, s) => (.ok { w := ws, m := ms, s := ss }, s)

/-- The columns n to NC − 1 of a plane, c of them. -/
def State.loadCols (s : State) (d k : Nat) (w : List Byte) : Nat → Nat → Except EStop (List PlaneCol) × State
  | _, 0 => (.ok [], s)
  | n, c + 1 =>
    match s.loadCol d k w n with
    | (.error e, s) => (.error e, s)
    | (.ok p, s) =>
      match s.loadCols d k w (n + 1) c with
      | (.error e, s) => (.error e, s)
      | (.ok r, s) => (.ok (p :: r), s)

/-- A plane loaded from bytes 0x10–0x1F of an MLDS (R217). -/
def State.loadPlane (s : State) (d k seq : Nat) (w : List Byte) : Except EStop Plane × State :=
  match s.loadCols d k w 0 (fieldAt w 4 2) with
  | (.error e, s) => (.error e, s)
  | (.ok cols, s) => (.ok { team := k, fmt := BitVec.ofNat 8 (fieldAt w 0 1), cols := cols, seq := seq }, s)

/-- Bytes that an MLDS reads (R206). -/
def mldsBytes (d : List Byte) : Nat :=
  let b := fieldAt d 0x10 1
  4 * fieldAt d 0x14 2 * (qWeight b + (if fmtSp b then qMeta b else 0) + (if fmtScl b then qScale b else 0))

/-! ### One row -/

/-- What working on a row yields: a stop, or the exceptions it raised. -/
abbrev RowOut := Except EStop (BitVec 5) × State

/-- The index of an accumulator element (R203). -/
def accIndex (acc row col : Nat) : Nat := (acc * 128 + row) * 512 + col

/-- A floating element of a pass (R219): its blocks in ascending K. -/
def floatElem (b : Nat) (frm : BitVec 2) (stream : List Nat) (sA : List Word) (p : PlaneCol) (e : Word) : Word × BitVec 5 :=
  let ws := p.w.flatMap (modeElems b)
  let r := (upto 0 (blockCount b)).foldl (fun (r : Nat × BitVec 5) j =>
    let (a, w) := blockPair b stream ws p.m j
    let o := if fmtMode b == 3 then bf16Step frm r.1 a w
      else (if fmtMode b == 1 then Tap.t8 else Tap.t6).blockStep frm r.1 a w (scaleOf (fmtScl b) sA j)
        (scaleOf (fmtScl b) p.s j)
    (o.1, r.2 ||| o.2)) (e.toNat, 0)
  (BitVec.ofNat 32 r.1, r.2)

/-- The INT8 block sums of an element (R101, R219). -/
def int8Sums (b : Nat) (stream : List Nat) (p : PlaneCol) : List Int :=
  let ws := p.w.flatMap (modeElems b)
  (upto 0 (blockCount b)).map (fun j =>
    let (a, w) := blockPair b stream ws p.m j
    int8Sum a w)

/-- The elements of a row in INT8 mode, column by column (R219, R223). -/
def int8Row (b : Nat) (stream : List Nat) (acc row : Nat) (pm : Bool) (get : Nat → Word) :
    Promoter → Nat → List PlaneCol → Except (BitVec 8 × Promoter) (List Word × Promoter)
  | x, _, [] => .ok ([], x)
  | x, n, p :: r =>
    match x.int8 acc row n pm (get n) (int8Sums b stream p) with
    | .error c => .error c
    | .ok (e, x) =>
      match int8Row b stream acc row pm get x (n + 1) r with
      | .error c => .error c
      | .ok (es, x) => .ok (e :: es, x)

/-- The elements of a row, written; their poison is cleared. -/
def Matrix.putRow (m : Matrix) (acc row : Nat) (es : List Word) : Matrix :=
  { m with
    acc := (es.zipIdx).foldl (fun t e => Tab.put 0 t (accIndex acc row e.2) e.1) m.acc
    accBad := m.accBad.filter (fun i => !(decide (accIndex acc row 0 ≤ i) && decide (i < accIndex acc row es.length))) }

/-- Is one of the first n elements of a row poisoned (R203)? -/
def Matrix.rowBad (m : Matrix) (acc row n : Nat) : Bool :=
  m.accBad.any (fun i => decide (accIndex acc row 0 ≤ i) && decide (i < accIndex acc row n))

/-- A row of an MSTRM (R219). -/
def State.mstrmRow (s : State) (cl : Nat) (r : MatReq) (d : List Byte) (i : Nat) : RowOut :=
  let u := fieldAt d
  let b := u 0x10 1
  let acc := u 0x15 1 % 8
  let row := u 0x16 1 + i
  let die := clusterDie cl
  let get := fun (s : State) (on : Bool) (hn q : Nat) =>
    if !on then (Except.ok [], s) else
    match (s.team r.team).handle? hn with
    | none => (.error (.err errHandle), s)
    | some h => s.tileWords die r.team hn ((u 0x1C 4 + i) * h.cols + u 0x20 4 * q) q
  match get s true (u 0x12 1) (qStream b) with
  | (.error e, s) => (.error e, s)
  | (.ok xs, s) =>
    match get s (fmtScl b) (u 0x13 1) (qScale b) with
    | (.error e, s) => (.error e, s)
    | (.ok sA, s) =>
      let m := (s.cluster cl).matrix
      let cols := match m.active with
        | some p => p.cols
        | none => []
      if m.rowBad acc row cols.length then (.error (.err errPoison), s) else
      let stream := xs.flatMap (modeElems b)
      let old := fun (n : Nat) => Tab.get 0 m.acc (accIndex acc row n)
      if fmtMode b == 0 then
        let ch := u 0x14 1
        let carry := if natBit ch 7 then (s.team r.team).handle? (ch % 32) else none
        let keep := fun (s : State) (x : Promoter) =>
          let s := s.updMatrix cl (fun m => { m with promo := x.promo })
          match x.carry with
          | some h => s.setHandle r.team (ch % 32) h
          | none => s
        match int8Row b stream acc row (natBit (u 0x11 1) 1) old { promo := m.promo, carry := carry } 0 cols with
        | .error (c, x) => (.error (.err c), keep s x)
        | .ok (es, x) => (.ok 0, keep (s.updMatrix cl (fun m => m.putRow acc row es)) x)
      else
        let es := cols.zipIdx.map (fun p => floatElem b r.frm stream sA p.1 (old p.2))
        (.ok (es.foldl (fun f e => f ||| e.2) 0), s.updMatrix cl (fun m => m.putRow acc row (es.map Prod.fst)))

/-- The folded total of an element (R225). -/
def foldedTotal (e : Word) (carry : BitVec 4) (c : Word) : Word :=
  (e.extractLsb' 0 28).signExtend 32 + (((e.extractLsb' 28 4).zeroExtend 32 + carry.signExtend 32 + c) <<< 28)

/-- CARRY of an element's entry, or 0 without one. -/
def Matrix.carryOf (m : Matrix) (acc row col : Nat) : BitVec 4 :=
  match m.promo.find? (fun e => e.acc == acc && e.row == row && e.col == col) with
  | some e => e.carry
  | none => 0

/-- A drained value in a destination format (R220). -/
def drainElem (dfmt : Nat) (frm : BitVec 2) (src : Bool) (t mul : Word) : Nat × BitVec 5 :=
  if dfmt == 4 then (t.toNat, 0) else
  let x : FVal := if src then .fin (decide (t.toInt < 0)) t.toInt.natAbs 0 else fmt32.unpack t.toNat
  let y := fmt32.unpack mul.toNat
  let v : FVal × BitVec 5 := if anyNan [x, y] then (.nan false, nvOf [x, y]) else
    match mulV x y with
    | none => (.nan false, flagNV)
    | some v => (v, 0)
  let o := match dfmt with
    | 0 => fmt32.ofV frm v.1
    | 1 => fmtB16.ofV frm v.1
    | 2 => Tap.t8.ofV v.1
    | _ => Tap.t6.ofV v.1
  (o.1, o.2 ||| v.2)

/-- Elements packed into words, n words (R220): the last word's unused positions are zero. -/
def packWords (dfmt : Nat) : Nat → List Nat → List Word
  | 0, _ => []
  | n + 1, es =>
    match dfmt with
    | 1 => BitVec.ofNat 32 (es.headD 0 + 2 ^ 16 * (es.drop 1).headD 0) :: packWords dfmt n (es.drop 2)
    | 2 => BitVec.ofNat 32 (Tap.t8.pack (es.take 4)) :: packWords dfmt n (es.drop 4)
    | 3 => BitVec.ofNat 32 (Tap.t6.pack (es.take 5)) :: packWords dfmt n (es.drop 5)
    | _ => BitVec.ofNat 32 (es.headD 0) :: packWords dfmt n (es.drop 1)

/-- A row of an accumulator tile cleared (R221): its elements, its promotion entries and its carry-tile elements. -/
def State.clearRow (s : State) (cl k acc row cv : Nat) : State :=
  let s := s.updMatrix cl (fun m =>
    { m.putRow acc row (List.replicate 512 0) with promo := m.promo.filter (fun e => !(e.acc == acc && e.row == row)) })
  if natBit cv 7 then
    match (s.team k).handle? (cv % 32) with
    | none => s
    | some h => s.setHandle k (cv % 32) ((upto (row * 512) 512).foldl (fun h i => h.put i 0) h)
  else s

/-- Words of a failing destination row: each is old or new, by a free value (R228). DEDUCED: assumption 53. -/
def State.tileMaybe (s : State) (d k hn f : Nat) : Nat → List Word → State
  | _, [] => s
  | i, a :: r =>
    let s := if (Config.freeWord (f * 0x100000 + i)).getLsbD 0 then s else
      match s.tileStore d k hn i a with
      | .ok s => s
      | .error _ => s
    s.tileMaybe d k hn f (i + 1) r

/-- Elements of a destination format in a word (R220). -/
def perWord (dfmt : Nat) : Nat :=
  match dfmt with
  | 1 => 2
  | 2 => 4
  | 3 => 5
  | _ => 1

/-- The columns of a row that an MDRN reads that are poisoned: an accumulator element or its carry (R203, R220). -/
def State.drainBad (s : State) (cl : Nat) (r : MatReq) (d : List Byte) (i : Nat) : List Nat :=
  let u := fieldAt d
  let row := u 0x14 1 + i
  let cv := u 0x12 1
  let m := (s.cluster cl).matrix
  let carry := if natBit cv 7 then (s.team r.team).handle? (cv % 32) else none
  (upto 0 (u 0x18 2)).filter (fun n => m.accBad.contains (accIndex (u 0x13 1 % 8) row n) || (match carry with
    | some h => h.bad.contains (row * 512 + n)
    | none => false))

/-- The words of a destination row of an MDRN, and the exceptions of its elements (R220), as if none were poisoned. -/
def State.drainRow (s : State) (cl : Nat) (r : MatReq) (d : List Byte) (i : Nat) : List Word × BitVec 5 :=
  let u := fieldAt d
  let b := u 0x10 1
  let acc := u 0x13 1 % 8
  let row := u 0x14 1 + i
  let nc := u 0x18 2
  let cv := u 0x12 1
  let m := (s.cluster cl).matrix
  let src := natBit b 3
  let carry := if natBit cv 7 then (s.team r.team).handle? (cv % 32) else none
  let es := (upto 0 nc).map (fun n =>
    let e := Tab.get 0 m.acc (accIndex acc row n)
    let c := match carry with
      | some h => Tab.get 0 h.data (row * 512 + n)
      | none => 0
    drainElem (b % 8) r.frm src (if src then foldedTotal e (m.carryOf acc row n) c else e) (BitVec.ofNat 32 (u 0x1C 4)))
  (packWords (b % 8) (drainWords (b % 8) nc) (es.map Prod.fst), es.foldl (fun f e => f ||| e.2) 0)

/-- A row of an MDRN (R220); one that fails or faults has written nothing yet (R228, R229, `State.spoilReq`). DEDUCED: assumption 53. -/
def State.mdrnRow (s : State) (cl : Nat) (r : MatReq) (d : List Byte) (i : Nat) : RowOut :=
  let u := fieldAt d
  if !(s.drainBad cl r d i).isEmpty then (.error (.err errPoison), s) else
  match (s.team r.team).handle? (u 0x11 1) with
  | none => (.error (.err errHandle), s)
  | some h =>
    let (ws, flags) := s.drainRow cl r d i
    let first := (u 0x20 4 + i) * h.cols
    match s.tileReach (clusterDie cl) r.team (u 0x11 1) first ws.length with
    | (some e, s) => (.error e, s)
    | (none, s) =>
    match s.tilePut (clusterDie cl) r.team (u 0x11 1) first ws with
    | (some e, s) => (.error e, s)
    | (none, s) =>
      let s := if natBit (u 0x10 1) 4 then s.clearRow cl r.team (u 0x13 1 % 8) (u 0x14 1 + i) (u 0x12 1) else s
      (.ok flags, s)

/-- The carry-tile byte of a request (R218, R220, R221), 0 for one that names no accumulator tile. -/
def reqCarry (fn : Nat) (d : List Byte) : Nat :=
  match fn with
  | 0x11 => fieldAt d 0x14 1
  | 0x12 => fieldAt d 0x12 1
  | 0x13 => fieldAt d 0x14 1
  | _ => 0

/-- What a request leaves that ends in an error phase at its row after it was granted (R228); the new value of a destination word is
free that a poisoned element would give, or whose accumulator has left the cluster with its team. DEDUCED: assumption 53. -/
def State.spoilReq (s : State) (cl : Nat) (r : MatReq) : State :=
  let d := r.desc.getD []
  let here := ((s.team r.team).onCore.map coreCluster) == some cl
  let s := if r.fn != 0x12 then s else
    match (s.team r.team).handle? (fieldAt d 0x11 1) with
    | some h =>
      let (g, s) := s.takeFresh
      let (f, s) := s.takeFresh
      let per := perWord (fieldAt d 0x10 1 % 8)
      let bad := (s.drainBad cl r d r.row).map (fun n => n / per)
      let ws := (s.drainRow cl r d r.row).1.zipIdx.map (fun w => if !here || bad.contains w.2 then Config.freeWord (g * 0x100000 + w.2) else w.1)
      s.tileMaybe (clusterDie cl) r.team (fieldAt d 0x11 1) f ((fieldAt d 0x20 4 + r.row) * h.cols) ws
    | none => s
  match reqAcc r.fn d with
  | some a => if here then s.spoilRows cl r.team a (reqR0 r.fn d + r.row) (reqRows r.fn d - r.row) (reqCarry r.fn d) else s
  | none => s

/-- What the requests leave that a kill has ended within the step (R228, R296). DEDUCED: assumption 53. -/
def State.settleAborted (s : State) : State :=
  (s.clusters.keysOf (fun x => !x.matrix.aborted.isEmpty)).foldl (fun s cl =>
    let rs := (s.cluster cl).matrix.aborted
    rs.foldl (fun s r => s.spoilReq cl r) (s.updMatrix cl (fun m => { m with aborted := [] }))) s

/-! ### Running a granted request -/

/-- The weights of a team's MLDS in a plane? -/
def Plane.holds (p : Option Plane) (k : Nat) (w : Option Weights) : Bool :=
  match p, w with
  | some p, some w => p.team == k && p.seq == w.seq
  | _, _ => false

/-- The loaded weights that an MSTRM with SWAP = 1 is to swap in (R215). -/
def Team.pending (t : Team) (r : MatReq) : Option Weights := t.penW.find? (fun w => some w.seq == r.pair)

/-- The weights that an MSTRM needs brought into the active plane before it streams (R200, R215): a swap of the shadow
plane, a re-run of discarded or displaced weights, or none. The spec does not say with which weights an MSTRM that a fault
suspended after its swap goes on (R229): the model's choice is its team's current ones. DESIGN CHOICE: assumption 14. -/
def State.prepare (s : State) (cl : Nat) (r : MatReq) (d : List Byte) : Option EStop × State :=
  let fmt := BitVec.ofNat 8 (fieldAt d 0x10 1)
  let m := (s.cluster cl).matrix
  let t := s.team r.team
  let rerun := fun (s : State) (w : Weights) =>
    if BitVec.ofNat 8 (fieldAt w.bytes 0 1) ≠ fmt then (some (.err errBadDescriptor), s) else
    match s.loadPlane (clusterDie cl) r.team w.seq w.bytes with
    | (.error e, s) => (some e, s)
    | (.ok p, s) => (none, s.updMatrix cl (fun m => { m with active := some p, shadow := none }))
  if r.swaps then
    match t.pending r with
    | none => (some (EStop.err errBadDescriptor), s)
    | some w =>
      let (e, s) := if Plane.holds m.shadow r.team (some w) then
          (if (m.shadow.map Plane.fmt) ≠ some fmt then (some (.err errBadDescriptor), s)
           else (none, s.updMatrix cl (fun m => { m with active := m.shadow, shadow := none })))
        else rerun s w
      match e with
      | some e => (some e, s)
      | none => (none, s.updTeam r.team (fun t => { t with
          curW := some w, penW := t.penW.filter (fun x => x.seq != w.seq) }))
  else
    match t.curW with
    | none => (some (.err errBadDescriptor), s)
    | some w =>
      if BitVec.ofNat 8 (fieldAt w.bytes 0 1) ≠ fmt then (some (.err errBadDescriptor), s)
      else if Plane.holds m.active r.team (some w) then (none, s) else rerun s w

/-- The rows of a granted request from its row on, n of them (R219 to R221). -/
def State.runRows (s : State) (cl i : Nat) (r : MatReq) (d : List Byte) : Nat → Option EStop × MatReq × State
  | 0 => (none, r, s)
  | n + 1 =>
    let (o, s) := match r.fn with
      | 0x11 => s.mstrmRow cl r d r.row
      | 0x12 => s.mdrnRow cl r d r.row
      | _ => (.ok 0, s.clearRow cl r.team (fieldAt d 0x10 1 % 8) (fieldAt d 0x11 1 + r.row) (fieldAt d 0x14 1))
    match o with
    | .error e => (some e, r, s)
    | .ok f => s.runRows cl i { r with row := r.row + 1, flags := r.flags ||| f } d n

/-- A granted request worked on as far as it goes: to its end, to a fault, or to an error, which its entry then holds.
DESIGN CHOICE: assumption 31. -/
def State.runReq (s : State) (cl i : Nat) (r : MatReq) : Option (DWord × Access × Nat) × State :=
  if r.err.isSome then (none, s) else
  let d := r.desc.getD []
  let done := fun (e : Option EStop) (r : MatReq) (s : State) => match e with
    | none => (none, s.setReq cl i r)
    | some (.fault va acc cause) => (some (va, acc, cause), s.setReq cl i { r with begun := true })
    | some (.err c) => (none, (s.spoilReq cl r).setReq cl i { r with err := some c })
  if r.fn == 0x10 then
    if r.row == 1 then (none, s) else
    match s.loadPlane (clusterDie cl) r.team r.seq ((d.drop 0x10).take 16) with
    | (.error e, s) => done (some e) r s
    | (.ok p, s) => done none { r with row := 1 } (s.updMatrix cl (fun m => { m with shadow := some p }))
  else
    let (e, s) := if r.fn == 0x11 then s.prepare cl r d else (none, s)
    match e with
    | some e => done (some e) r s
    | none =>
      let r := { r with pair := none, swapped := r.swaps || r.swapped }
      let (e, r, s) := s.runRows cl i r d (reqRows r.fn d - r.row)
      done e r s

/-! ### The arbiter (R213 to R215) -/

/-- Can a request name an accumulator tile: the one its descriptor gives, and any while that is unread (R208)? -/
def MatReq.names (r : MatReq) (a : Nat) : Bool :=
  match r.desc with
  | some d => decide (reqAcc r.fn d = some a)
  | none => r.fn != 0x10

/-- Has an earlier request of the team on the same accumulator tile not completed (R104, R213)? -/
def Matrix.tileBusy (m : Matrix) (r : MatReq) : Bool :=
  match reqAcc r.fn (r.desc.getD []) with
  | none => false
  | some a => m.table.any (fun e => e.2.team == r.team && decide (e.2.seq < r.seq) && e.2.names a)

/-- Does the request need the shadow plane empty (R213, R215)? A re-run of weights that were discarded takes the place of a
later pending plane of its own team. DEDUCED: assumption 51. -/
def State.needsShadow (s : State) (cl : Nat) (r : MatReq) : Bool :=
  let m := (s.cluster cl).matrix
  let t := s.team r.team
  if r.fn == 0x10 then true
  else if r.fn == 0x11 then
    if r.swaps then !m.shadow.any (fun p => p.team == r.team)
    else t.curW.isSome && !Plane.holds m.active r.team t.curW
  else false

/-- A candidate in every respect but the shadow plane (R213): for an MSTRM with SWAP = 1, its MLDS has loaded its plane. -/
def State.ready (s : State) (cl : Nat) (r : MatReq) : Bool :=
  decide (r.state = .waiting) && r.desc.isSome && !(s.cluster cl).matrix.tileBusy r
    && (!r.swaps || ((s.team r.team).pending r).isSome)

/-- A candidate (R213). DEDUCED: assumption 51. -/
def State.candidate (s : State) (cl : Nat) (r : MatReq) : Bool :=
  s.ready cl r && (!s.needsShadow cl r || (s.cluster cl).matrix.shadow.isNone)

/-- The request that a slot grants (R214). Of requests accepted in one cycle the spec orders only those of one team, by
their acceptance: the model's choice among teams is the lower acceptance number. DESIGN CHOICE: assumption 88. -/
def State.grantOf (s : State) (cl : Nat) (load : Bool) : Option (Nat × MatReq) :=
  let m := (s.cluster cl).matrix
  if m.slotBusy load then none else
  arbitrate (fun e => 2 ^ 64 * e.2.since + e.2.seq) (fun e => descPrio e.2.desc) (fun e => s.old e.2.since)
    (m.table.filter (fun e => (e.2.fn == 0x10) == load && s.candidate cl e.2))

/-- Requests that wait for another team's pending plane note since when (R215). DEDUCED: assumption 51. -/
def State.stampShadow (s : State) (cl : Nat) : State :=
  let m := (s.cluster cl).matrix
  let other := fun (r : MatReq) => match m.shadow with
    | some p => p.team != r.team
    | none => false
  let now := s.ccNow
  let stamp : MatReq → MatReq := fun r =>
    if s.ready cl r && s.needsShadow cl r && other r then
      { r with shadowWait := some (r.shadowWait.getD now) }
    else { r with shadowWait := none }
  s.updMatrix cl (fun m => { m with table := m.table.mapVal (fun _ r => stamp r) })

/-- An engine that neither slot has used for more than 2 µs restarts its activity ramp (R231). -/
def State.restartRamp (s : State) (cl : Nat) : State :=
  let m := (s.cluster cl).matrix
  if m.slotBusy true || m.slotBusy false || decide (s.part.wall ≤ m.idleSince + 2000 * Config.unitsPerNs) then s
  else s.updMatrix cl (fun m => { m with ramp := 1, rampAt := s.ccNow })

/-- MATRIX_GRANT: a free slot is granted (R214), the load slot first, and the request runs.
DESIGN CHOICE: assumption 31. -/
def execMatrixGrant (cl : Nat) (s : State) : Host.Outcome State Fault Refusal :=
  let s := s.stampShadow cl
  let go := fun (e : Nat × MatReq) =>
    let r := { e.2 with state := .granted, fault := none }
    (((s.restartRamp cl).setReq cl e.1 r).runReq cl e.1 r).2
  match s.grantOf cl true with
  | some e => .next (go e)
  | none =>
    match s.grantOf cl false with
    | some e => .next (go e)
    | none => .next s

/-- SHADOW_PLANE_TIMEOUT: a request has waited 4,096 cc for another team's pending plane, which is discarded; that team's
pending MLDS is re-run before the MSTRM that swaps it (R215). -/
def execShadowPlaneTimeout (cl : Nat) (s : State) : Host.Outcome State Fault Refusal :=
  let s := s.stampShadow cl
  let m := (s.cluster cl).matrix
  match minBy id (m.table.filterMap (fun e => e.2.shadowWait)) with
  | none => .next s
  | some t0 =>
    let s := s.setPart { s.part with wall := max (s.wallOf (t0 + 4096)) s.part.wall }
    .next (s.updMatrix cl (fun m => { m with
      shadow := none, table := m.table.mapVal (fun _ (r : MatReq) => { r with shadowWait := none }) }))

/-! ### Completion and suspension (R226 to R229) -/

/-- A request that has done its work completes (R226): its bytes and its arrival are counted and its exceptions kept; an MLDS
leaves its weights pending. Its release is made before, for its writes are performed. -/
def State.finishReq (s : State) (cl i : Nat) (r : MatReq) : State :=
  let d := r.desc.getD []
  match r.err with
  | some c => (s.failReq cl i r c).markIdle cl
  | none =>
    let s := s.dropReq cl i
    let s := s.updTeam r.team (fun t => { t with
      fflags := t.fflags ||| r.flags
      penW := if r.fn == 0x10 then
          t.penW ++ [{ seq := r.seq, paired := r.pair.isSome, bytes := (d.drop 0x10).take 16,
                       ord := BitVec.ofNat 8 (fieldAt d 1 1) }]
        else t.penW })
    let n := match r.fn with
      | 0x10 => mldsBytes d
      | 0x11 => 4 * fieldAt d 0x18 2 * (qStream (fieldAt d 0x10 1) + (if fmtScl (fieldAt d 0x10 1) then qScale (fieldAt d 0x10 1) else 0))
      | 0x12 => 4 * fieldAt d 0x16 2 * drainWords (fieldAt d 0x10 1 % 8) (fieldAt d 0x18 2)
      | _ => 0
    ((s.countBytes r.team r.cword n).countArrival r.team r.cword).markIdle cl

/-- A granted request suspended by a fault at its row (R229). -/
def State.suspendReq (s : State) (cl i : Nat) (r : MatReq) (va : DWord) (acc : Access) (cause : Nat) : State :=
  let (f, s) := s.engineFault (clusterDie cl) r.team va acc cause (.matrix cl i)
  (s.setReq cl i { r with state := .suspended, fault := f }).markIdle cl

/-- The request of an entry, when it is granted. -/
def State.grantedReq (s : State) (cl i : Nat) : Option MatReq :=
  match (s.cluster cl).matrix.table.find? i with
  | some r => if r.state = .granted then some r else none
  | none => none

/-- MATRIX_REQUEST_COMPLETE: a granted request whose last row is done completes, or ends in its error phase (R226, R227); one
that stands at a fault does not. DESIGN CHOICE: assumption 31. -/
def execMatrixRequestComplete (cl i : Nat) (s : State) : Host.Outcome State Fault Refusal :=
  match s.grantedReq cl i with
  | none => .next s
  | some r =>
    match s.runReq cl i r with
    | (some _, s) => .next s
    | (none, s) =>
      match s.grantedReq cl i with
      | none => .next s
      | some r => .next (s.finishReq cl i r)

/-- MATRIX_OPERAND_FAULT: a granted request that stands at a fault is suspended at its row and frees its slot (R229). -/
def execMatrixOperandFault (cl i : Nat) (s : State) : Host.Outcome State Fault Refusal :=
  match s.grantedReq cl i with
  | none => .next s
  | some r =>
    match s.runReq cl i r with
    | (none, s) => .next s
    | (some (va, acc, cause), s) =>
      match s.grantedReq cl i with
      | none => .next s
      | some r => .next (s.suspendReq cl i r va acc cause)

/-- ENGINE_RAMP_TICK: a restarted engine goes on from a quarter of its rate to half of it, and from there to full rate, at the
end of 128 cc each (R231). -/
def execEngineRampTick (cl : Nat) (s : State) : Host.Outcome State Fault Refusal :=
  let m := (s.cluster cl).matrix
  if m.ramp == 0 then .next s else
  let s := s.setPart { s.part with wall := max (s.wallOf m.rampEnd) s.part.wall }
  .next (s.updMatrix cl (fun m => { m with ramp := if m.ramp == 1 then 2 else 0 }))

/-- The tiles of a team folded before they are saved (R225): each entry into its element's bits 31:28. -/
def Matrix.foldTeam (m : Matrix) (t : Team) : Matrix :=
  let mine := m.promosOf t
  { m with
    promo := m.promo.filter (fun e => !mine.contains e)
    acc := mine.foldl (fun a e =>
      let i := accIndex e.acc e.row e.col
      let v := Tab.get 0 a i
      Tab.put 0 a i ((v.extractLsb' 28 4 + e.carry) ++ v.extractLsb' 0 28 : Word)) m.acc }

end Sys2Proof.Machine
end

