-- ==== Sys2Proof/Machine/Leave.lean ====
section
/-! DEFINITION. Leaving a core and coming back (R33, R69, R70, R158, R225, R230, R247, R276, R288, R294, R301, R302, R412): what
pre-emption, benching, a hold and a freeze share, and how a later residency resumes. -/

namespace Sys2Proof.Machine

/-! ### Leaving: passes -/

/-- The waits of a team's passes end with the values of R165, R207 and R233. -/
def State.endWaits (s : State) (c k : Nat) : State :=
  ((s.core c).passes.filter (fun p => p.team == k)).foldl (fun s p =>
    let s := match p.wait with
      | some (.rget _ _ sb gs _) => gs.foldl (fun (s : State) (g : GangWait) => s.reply k g.gang sb (BitVec.allOnes 64)) s
      | some (.post _ re sd gs _) => gs.foldl (fun (s : State) (g : GangWait) => s.postRefused k re sd g) s
      | none => s
    s.updPass c k (fun p => { p with wait := none })) s

/-- Every result of a team written, in order (R301). -/
def State.writeResults (s : State) (k : Nat) : State :=
  s.updTeam k (fun t => { t.results.foldl Team.applyResult t with results := [] })

/-- The threads of a team's passes leave them (R301): to successor evaluation after the body's last instruction, else to the
next instruction with age 0; those that YIELD holds stay held (R66, R461). A selected pass gives its threads back to their
entry, and where that is gone to a new one, whose age the spec does not give: the model's is 0. DEDUCED: assumption 49. DESIGN
CHOICE: assumption 95. -/
def State.leavePasses (s : State) (c k : Nat) : State :=
  let core := s.core c
  let mine := (core.ended ++ core.passes).filter (fun p => p.team == k)
  let s := mine.foldl (fun s p => (sortNat p.groups.flatten).foldl (fun s j =>
    if ((s.team k).thread j).loc ≠ .pass then s
    else if !p.busy then s.succeed k j p.hdr p.w0 p.w1
    else s.join k j (p.hdr + BitVec.ofNat 64 (8 + p.off)) true (some (p.hdr, p.w0))) s) s
  let s := s.updCore c (fun core => { core with
    passes := core.passes.filter (fun p => p.team != k), ended := core.ended.filter (fun p => p.team != k) })
  match (s.team k).sel with
  | none => s
  | some p => (p.groups.flatten.foldl (fun s j => s.join k j p.addr p.mid) s).updTeam k (fun t => { t with sel := none })

/-- The block-table entries of a team written to its spill list (R33). -/
def State.tableToSpill (s : State) (c k : Nat) : State :=
  let core := s.core c
  let mine := core.table.filter (fun e => e.team == k)
  let s := (s.setCore c { core with
      table := core.table.filter (fun e => e.team != k), want := core.want.filter (fun w => w.1 != k) }).updTeam k (fun t =>
    { t with spill := mine ++ t.spill })
  s

/-! ### Leaving: monitors, queues and faults -/

/-- The monitors of a team that leaves (R294): those of threads not held in MWAIT are disarmed; a team with such threads that
leaves by pre-emption or benching takes a record of its slice's monitor table, and is bindable at once without one.
DEDUCED: assumption 54. -/
def State.leaveMonitors (s : State) (c k : Nat) (why : Leaving) : State :=
  let cc := (s.core c).cc
  let s := s.updCore c (fun core => { core with arms := core.arms.filter (fun a => a.team != k) })
  let s := s.updTeam k (fun t => { t with threads := t.threads.mapVal (fun _ (x : Thread) => match x.loc with
    | .held (.monitor (some d) n) r => { x with loc := .held (.monitor (some (d - cc)) n) r }
    | .held (.monitor none _) _ => x
    | _ => { x with mon := none }) })
  let held := (s.team k).threads.filterMap (fun x => match x.2.loc, x.2.mon with
    | .held (.monitor l _) _, some m => some (m.line, l)
    | _, _ => none)
  if held.isEmpty then s else
  let lines := dedupSorted (sortNat (held.map Prod.fst))
  let left := minBy id (held.filterMap Prod.snd)
  match s.sliceIndex (coreSlice c) with
  | none => s
  | some i =>
    let sl := s.slice i
    let moves := match why with
      | .preempt => false
      | .bench => false
      | _ => true
    if moves || decide (16 < lines.length) || decide (128 ≤ sl.monitors.length) then s.updTeam k (fun t => { t with bindable := true })
    else s.setSlice i { sl with monitors := sl.monitors ++ [{ team := k, lines := lines, left := left, since := s.ccNow }] }

/-- The queues' held pops of a team are abandoned, and remembered in the order in which they were held (R255, R412). -/
def State.dropPops (s : State) (k : Nat) : State :=
  let mine := s.slices.flatMap (fun x => x.2.queues.flatMap (fun q =>
    (q.2.pops.filter (fun h => h.team == k)).map (fun h => (64 * x.1 + q.1, h))))
  { s.updTeam k (fun t => { t with pops := mine }) with slices := s.slices.mapVal (fun _ (sl : Slice) => { sl with
      queues := sl.queues.mapVal (fun _ (q : Queue) => { q with pops := q.pops.filter (fun h => h.team != k) }) }) }

/-- Does a waiter belong to a team's threads, or to one of its commands? -/
def State.waiterOf (s : State) (k : Nat) (w : Waiter) : Bool :=
  match w with
  | .thread j _ => j == k
  | .matrix cl i => match (s.cluster cl).matrix.table.find? i with
    | some r => r.team == k
    | none => false
  | .copy cl i => match (s.cluster cl).copy.table.find? i with
    | some r => r.team == k
    | none => false
  | _ => false

/-- A team waits on no fault any more (R288, R302): its threads and commands meet their faults anew. -/
def State.dropWaiters (s : State) (k : Nat) : State :=
  { s with dies := s.dies.mapVal (fun _ (d : Die) => { d with
      noEntry := d.noEntry.filter (fun w => !s.waiterOf k w)
      faults := d.faults.mapVal (fun _ (e : FaultEntry) => { e with waiters := e.waiters.filter (fun w => !s.waiterOf k w) }) }) }

/-! ### Leaving: engines -/

/-- The cc since a cycle, saturating at 4,096 (R302). -/
def State.ageSince (s : State) (since : Nat) : Nat := min 4096 (s.ccNow - since)

/-- The granted requests of a team complete, or are suspended by a fault (R230). -/
def State.finishGranted (s : State) (cl k : Nat) : State :=
  ((s.cluster cl).matrix.table.filter (fun e => e.2.team == k && decide (e.2.state = .granted))).foldl (fun s e =>
    match s.grantedReq cl e.1 with
    | none => s
    | some r =>
      match s.runReq cl e.1 r with
      | (none, s) => match s.grantedReq cl e.1 with
        | none => s
        | some r => s.finishReq cl e.1 r
      | (some (va, acc, cause), s) => match s.grantedReq cl e.1 with
        | none => s
        | some r => s.suspendReq cl e.1 r va acc cause) s

/-- A request of the reservation table as a suspended command (R230, R302). DESIGN CHOICE: assumption 52. -/
def State.suspOfReq (s : State) (r : MatReq) : Susp :=
  { matrix := true, fn := r.fn, addr := r.addr, pair := r.pair, swapped := r.swapped, desc := r.desc, cword := r.cword,
    offset := r.row, seq := r.seq,
    age := s.ageSince r.since, state := if r.state = .suspended then 2 else 1, frmp := r.frm, coll := r.coll,
    flags := r.flags, srcSlot := none, dstSlot := none, dropped := [], ahead := 0, buf := [] }

/-- A command of the command table as a suspended command (R247, R302). DESIGN CHOICE: assumption 52. -/
def State.suspOfCmd (s : State) (r : CopyCmd) : Susp :=
  { matrix := false, fn := r.fn, addr := r.addr, pair := none, swapped := false, desc := r.desc, cword := r.cword,
    offset := r.chunkAt, seq := r.seq,
    age := s.ageSince r.since,
    state := if r.state = .suspended then 2 else if r.state = .running || r.off != 0 then 3 else 1,
    frmp := 0, coll := none, flags := 0, srcSlot := r.srcSlot, dstSlot := r.dstSlot, dropped := r.dropped,
    ahead := r.off - r.chunkAt, buf := r.buf }

/-- Suspended commands in order of acceptance. -/
def insertSusp (x : Susp) : List Susp → List Susp
  | [] => [x]
  | y :: r => if x.seq ≤ y.seq then x :: y :: r else y :: insertSusp x r

/-- The engine commands of a team, whose granted requests have completed, saved (R215, R230, R247): they become suspended
commands; the pending plane is discarded, the order of its posting registers is kept (R210), and the digest path is freed. -/
def State.leaveEngines (s : State) (c k : Nat) : State :=
  let cl := coreCluster c
  let x := s.cluster cl
  let mats := (x.matrix.table.filter (fun e => e.2.team == k)).map (fun e => s.suspOfReq e.2)
  let cps := (cmdsOf x.copy.table k).map (fun e => s.suspOfCmd e.2)
  let s := s.dropWaiters k
  let onPath := fun (d : Die) => match d.dgst with
    | some (q, i) => q == cl && (cmdsOf x.copy.table k).any (fun e => e.1 == i)
    | none => false
  let s := { s with dies := s.dies.mapVal (fun _ (d : Die) => if onPath d then { d with dgst := none } else d) }
  let s := s.setCluster cl { x with
    matrix := { x.matrix with
      table := x.matrix.table.filter (fun e => e.2.team != k)
      posting := x.matrix.posting.filter (fun p => p.1 != k)
      shadow := match x.matrix.shadow with
        | some p => if p.team == k then none else some p
        | none => none }
    copy := { table := x.copy.table.filter (fun e => e.2.team != k) } }
  s.updTeam k (fun t => { t with
    susp := (mats ++ cps).foldr insertSusp t.susp
    postOrder := (x.matrix.posting.filter (fun p => p.1 == k)).map Prod.snd })

/-- The accumulator tiles of a team, by their places in its image (R63). -/
def Team.accPlaces (t : Team) : List (Nat × Nat) :=
  (t.accA.toList.map (fun a => (0, a))) ++ (t.accB.toList.map (fun a => (1, a)))

/-- The accumulator tiles of a team folded, written to its image, and given up by the engine (R69, R225). -/
def State.saveAcc (s : State) (c k : Nat) : State :=
  let cl := coreCluster c
  let t := s.team k
  let m := ((s.cluster cl).matrix).foldTeam t
  let tile := fun (a : Nat) (i : Nat) => decide (65536 * a ≤ i) && decide (i < 65536 * (a + 1))
  let mem := t.accPlaces.foldl (fun mem p =>
    mem.writeWords (t.accAddr p.1 0 0) 65536 ((m.acc.filter (fun w => tile p.2 w.1)).map (fun w => (w.1 - 65536 * p.2, w.2)))
      ((m.accBad.filter (tile p.2)).map (fun w => w - 65536 * p.2))) s.mem
  let mine := fun (i : Nat) => t.accPlaces.any (fun p => tile p.2 i)
  let s := t.accPlaces.foldl (fun s p => s.markRange t.vmid (t.accAddr p.1 0 0) 0x40000) (s.setMem mem)
  s.updMatrix cl (fun _ => { m with
    acc := m.acc.filter (fun w => !mine w.1), accBad := m.accBad.filter (fun i => !mine i) })

/-- The accumulator tiles of a team read back from its image. -/
def State.loadAcc (s : State) (c k : Nat) : State :=
  let t := s.team k
  t.accPlaces.foldl (fun s p =>
    let ws := s.mem.readWords (t.accAddr p.1 0 0) 65536
    let bad := s.mem.badWords (t.accAddr p.1 0 0) 65536
    (s.readHome (t.accAddr p.1 0 0) 0x40000).updMatrix (coreCluster c) (fun m => { m with
      acc := ws.foldl (fun a w => Tab.put 0 a (65536 * p.2 + w.1) w.2) m.acc
      accBad := bad.foldl (fun b w => setIns b (65536 * p.2 + w)) m.accBad })) (s.zeroAcc c t)

/-! ### Leaving a core -/

/-- A slot of a core freed (R274, R279). -/
def State.freeSlot (s : State) (c sl : Nat) : State :=
  s.updCore c (fun k => { k with slots := k.slots.set sl { record := [], state := 0, refuse := 0, team := none } })

/-- What a team that leaves its core saves (R33, R79, R158, R230, R247, R294, R301, R302). It is bindable afterwards unless it was
benched, or is held or frozen. -/
def State.saveTeam (s : State) (c sl k : Nat) (why : Leaving) : State :=
    let s := ((s.tableToSpill c k).leaveMonitors c k why).dropPops k
    let s := (s.leaveEngines c k).saveAcc c k
    let s := s.updTeam k (fun t => { t.settleFlags ((s.core c).cc + 8) with
      state := .away, leaving := none, lastCore := some c, heldSince := some s.part.wall, marks := [], fpend := [],
      bindable := t.bindable || decide (why ≠ .bench), onHold := decide (why = .hold), vfrozen := decide (why = .freeze),
      waitSince := none, threads := t.threads.mapVal (fun _ x => { x with seen := 0, after := 0 }) })
    let s := ((s.writeFiles k).writeShared k).freeSlot c sl
    let s := s.refill c 256
    if why = .hold ∨ why = .freeze then s.driveClean k else s

/-- A team leaves its core (R301), when every access of its core that is on its way has been performed (R183) and its granted
matrix requests have completed (R230), unless one of these has killed it (R296). -/
def State.leaveTeam (s : State) (k : Nat) (why : Leaving) : State :=
  match (s.team k).state with
  | .resident c sl =>
    let s := (s.drainCore c).endWaits c k
    let s := ((s.finishGranted (coreCluster c) k).writeResults k).leavePasses c k
    if (s.team k).isResident then s.saveTeam c sl k why else s
  | _ => s

/-- The resident teams of a team's league (R278). -/
def State.leagueResident (s : State) (k : Nat) : List Nat := (s.league k).filter (fun j => (s.team j).isResident)

/-- Is a team between two instructions? -/
def State.betweenIssues (s : State) (k : Nat) : Bool :=
  match (s.team k).onCore with
  | none => true
  | some c => (s.core c).passes.all (fun p => p.team != k || p.k == 0)

/-- A league that has been asked to leave does so once the instruction that is issuing has issued to every group of each of
its teams, one that is being killed among them (R58, R296); waits that the instruction begins end at once (R301). -/
def State.leaveIfReady (s : State) (k : Nat) : State :=
  match (s.team k).leaving with
  | none => s
  | some why =>
    let ls := s.leagueResident k
    let s := ls.foldl (fun s j => match (s.team j).onCore with
      | some c => s.endWaits c j
      | none => s) s
    if (s.league k).all s.betweenIssues then ls.foldl (fun s j => s.leaveTeam j why) s else s

/-- SLOTCTL's STATE of a resident team's slot (R273): 3 while the team is leaving, 2 otherwise. -/
def State.markSlot (s : State) (k : Nat) : State :=
  match (s.team k).state with
  | .resident c sl => s.updCore c (fun core => { core with
      slots := core.slots.mapVal (fun i (y : Slot) =>
        if i == sl then { y with state := if (s.team k).leaving.isSome then 3 else 2 } else y) })
  | _ => s

/-- A league asked to leave its cores (R273, R301): no new pass starts for it, and its waits end at once. -/
def State.askLeave (s : State) (k : Nat) (why : Leaving) : State :=
  let ls := s.leagueResident k
  let s := ls.foldl (fun s j => (s.updTeam j (fun t => { t with leaving := some why })).markSlot j) s
  s.leaveIfReady k

/-! ### Coming back -/

/-- The tiles of a team placed afresh (R158). The spec does not say what happens to one for which the scratchpad has no free
run long enough: the model places it behind the scratchpad, with its contents. DESIGN CHOICE: assumption 86. -/
def State.placeTiles (s : State) (c k : Nat) : State :=
  let core := s.core c
  (s.team k).h.foldl (fun s h =>
    if h.2.units == 0 then s else
    let others := (s.unitsUsed c)
    match freeRun others h.2.units core.scrUnits (core.scrUnits + 1) 0 with
    | some u => s.updTeam k (fun t => { t with h := t.h.set h.1 { h.2 with unit := u } })
    | none => s) (s.updTeam k (fun t => { t with h := t.h.mapVal (fun _ (h : Handle) => { h with unit := core.scrUnits }) }))

/-- A suspended matrix request takes an entry again (R230, R302). DESIGN CHOICE: assumption 52. -/
def State.reenterReq (s : State) (c cl i k : Nat) (r : Susp) : State :=
  let q := r.request k (s.ccNow - r.age)
  match r.desc with
  | some _ => (s.setReq cl i q).settlePairs cl k 16
  | none => s.readReq c cl i q

/-- A suspended copy or digest command takes an entry again (R247, R302). DESIGN CHOICE: assumption 52. -/
def State.reenterCmd (s : State) (c cl i k : Nat) (r : Susp) : State :=
  let q : CopyCmd :=
    { team := k, fn := r.fn, addr := r.addr, desc := r.desc, cword := r.cword, seq := r.seq,
      since := s.ccNow - r.age, state := .waiting, off := r.offset + r.ahead, dropped := r.dropped,
      srcSlot := r.srcSlot, dstSlot := r.dstSlot, buf := r.buf, fault := none, err := none }
  match r.desc with
  | some _ => s.setCmd cl i q
  | none => s.readCmd c cl i q

/-- The suspended commands of a resident team re-enter their tables in order of acceptance, as entries are free (R302). -/
def State.reenter (s : State) (c k : Nat) : List Susp → State
  | [] => s
  | r :: rest =>
    let cl := coreCluster c
    let i := if r.matrix then (s.cluster cl).matrix.table.freeKey 0 else (s.cluster cl).copy.table.freeKey 0
    if (if r.matrix then 16 else 32) ≤ i then s else
    let s := if r.matrix then s.reenterReq c cl i k r else s.reenterCmd c cl i k r
    (s.updTeam k (fun t => { t with susp := t.susp.filter (fun x => decide (x.seq ≠ r.seq)) })).reenter c k rest

/-- What an engine holds of a team's failed requests goes with the team to the engine of its new cluster (R215). -/
def State.moveFailed (s : State) (c k : Nat) : State :=
  let failed := s.clusters.flatMap (fun x => x.2.matrix.failed.filter (fun e => e.1 == k))
  let spent := s.clusters.flatMap (fun x => x.2.matrix.spent.filter (fun e => e.1 == k))
  let s := { s with clusters := s.clusters.mapVal (fun _ (x : Cluster) => { x with matrix := { x.matrix with
    failed := x.matrix.failed.filter (fun e => e.1 != k), spent := x.matrix.spent.filter (fun e => e.1 != k) } }) }
  s.updMatrix (coreCluster c) (fun m => { m with failed := m.failed ++ failed, spent := m.spent ++ spent })

/-- The requests of a team that its convergence registers have posted are offered again, in the order in which they reached
POSTING (R210, R378). The record of R212 holds no order: registers that system software has put into POSTING in a clean
image follow in ascending number. DESIGN CHOICE: assumption 87. -/
def State.repost (s : State) (c k : Nat) : State :=
  let now := ((s.team k).k.filter (fun v => v.2.state == 2)).map Prod.fst
  let old := (s.team k).postOrder.filter now.contains
  let ns := old ++ now.filter (fun n => !old.contains n)
  (s.updTeam k (fun t => { t with postOrder := [] })).updMatrix (coreCluster c) (fun m => { m with
    posting := m.posting ++ ns.map (fun n => (k, n)) })

/-- The held threads of a team that is resident again (R277, R288, R293, R294, R299, R364, R412).
DEDUCED: assumption 54. -/
def State.recheckThread (s : State) (k tid : Nat) : State :=
  let x := (s.team k).thread tid
  match x.loc with
  | .held (.barrier b _ sc) r =>
    let o := s.barrier k b
    let refuse := fun (cause : BitVec 8) (info0 info1 : DWord) =>
      if (s.team k).isPawn tid then s.resume k tid
      else s.trapThread k tid { cause := cause, info0 := info0, info1 := info1, pc := x.heldAt }
    if o.state = 0 then refuse causeIllegalOp ((r.word.zeroExtend 64)) 0
    else if o.state = 2 then refuse causeEngineError (BitVec.ofNat 64 (o.err.toNat + 2 ^ 8 * b)) o.pend
    else if o.atBoundary then (s.acquire k sc).resume k tid
    else s.updThread k tid (fun x => { x with loc := .held (.barrier b o.phase sc) r })
  | .held (.monitor (some 0) n) _ => s.mwaitTrap k tid n
  | .held (.monitor _ _) _ =>
    let sc := match x.mon with
      | some m => m.sc
      | none => .team
    ((s.updThread k tid (fun x => { x with mon := none })).acquire k sc).resume k tid
  | .held (.finished reply v _) _ =>
    let s := match reply with
      | some sd => s.updTeam k (fun t => t.sset (t.gangOf tid) sd v)
      | none => s
    (s.acquire k .partition).resume k tid
  | .held .yielded _ => s.resume k tid
  | .parked => s.join k tid x.trapPc true
  | _ => s

/-- Is a thread held in a pop of a queue? -/
def Thread.inPop (x : Thread) (n : Nat) : Bool :=
  match x.loc with
  | .held (.pop q _ _ _) _ => q == n
  | _ => false

/-- The pops in which a team's threads were held, performed afresh (R255, R257, R412), in the order in which they were held: the
queue is checked again, and the destination probed. -/
def State.repop (s : State) (c k : Nat) : State :=
  let pops := (s.team k).pops
  pops.foldl (fun s (n, h) =>
    let t := s.team k
    let tids := h.tids.filter (fun j => (t.thread j).inPop n)
    let pawns := tids.filter t.isPawn
    let sel : DWord := BitVec.ofNat 64 (n + 2 ^ 16 * h.count)
    let stop := fun (s : State) (o : LaneOut) => (s.stopHeld c k tids o).resumeAll k pawns
    if tids.isEmpty then s else
    match s.queueRefuse sel t.asid t.vmid true with
    | some r => stop s (.trap { cause := causeAccess, info0 := BitVec.ofNat 64 (r + 2 ^ 16 * n), info1 := sel, pc := 0 })
    | none =>
      match s.probeWrite c k 0 h.dst h.count with
      | (.error o, s) => stop s o
      | (.ok _, s) =>
        let q := s.queue n
        s.setQueue n { q with pops := q.pops ++ [{ h with tids := tids }] }) (s.updTeam k (fun t => { t with pops := [] }))

/-- A team whose state is in its image becomes resident in a slot of a core (R70, R79, R158, R274, R302). The spec gives no
condition on the core's tile-table entries: a team that returns with its handles may take the core above 128 of them.
DEDUCED: assumptions 12, 48. DESIGN CHOICE: assumption 86. -/
def State.resumeTeam (s : State) (k c sl : Nat) : State :=
  let s := if (s.team k).lastCore = some c then s else if (s.team k).clean then s else s.driveClean k
  let s := (((if (s.team k).clean then s.readImage k else s).readFiles k).unclean k).readShared k
  let s := s.updTeam k (fun t => { t with
    state := .resident c sl, lastCore := some c, bindable := false, onHold := false, vfrozen := false, leaving := none,
    heldSince := none, bound := s.nextBind })
  let s := { s with nextBind := s.nextBind + 1 }
  let s := { s with slices := s.slices.mapVal (fun _ (x : Slice) => { x with monitors := x.monitors.filter (fun r => r.team != k) }) }
  let s := (s.loadAcc c k).placeTiles c k
  let s := ((s.moveFailed c k).reenter c k (s.team k).susp).repost c k
  let s := ((upto 0 (s.team k).slotCount).foldl (fun s j => s.recheckThread k j) s).repop c k
  let s := (s.slices.flatMap (fun x => x.2.queues.map (fun q => 64 * x.1 + q.1))).foldl (fun s n => s.settleQueue n) s
  let seq := (s.core c).seq
  let s := s.updTeam k (fun t => { t with spill := t.spill.map (fun e => { e with born := seq, ready := none }) })
  (s.updCore c (fun core => { core with seq := seq + 1 })).refill c 256

/-! ### Pre-emption and benching -/

/-- PREEMPT (R278, R301): the team's league leaves its cores, and stays bindable. DEDUCED: assumption 74. -/
def execPreempt (team : Nat) (s : State) : Host.Outcome State Fault Refusal := .next (s.askLeave team .preempt)

/-- A thread that has not exited and is held as R51 lists. -/
def Thread.idle (x : Thread) : Bool :=
  match x.loc with
  | .held .yielded _ => false
  | .held _ _ => true
  | .vacant | .exited | .dormant => true
  | _ => false

/-- Every thread of a team that has not exited is held (R51). -/
def Team.idle (t : Team) : Bool :=
  t.threads.all (fun x => x.2.idle) && t.threads.any (fun x => match x.2.loc with
    | .held _ _ => true
    | _ => false)

/-- The wall time since which each resident team of a core is held throughout (R51). -/
def State.noteHeld (s : State) (c : Nat) : State :=
  let now := s.part.wall
  (s.resident c).foldl (fun s k => s.updTeam k (fun t =>
    { t with heldSince := if t.idle then some (t.heldSince.getD now) else none })) s

/-- BENCH (R51, R271, R276): a league of a co-dependent launch that has been held for longer than the threshold leaves its
cores. DEDUCED: assumption 74. -/
def execBench (team : Nat) (s : State) : Host.Outcome State Fault Refusal :=
  let ls := s.leagueResident team
  if ls.isEmpty || !ls.all (fun j => (s.team j).idle && (s.team j).codep) then .next s else
  let till := ls.foldl (fun m j => max m ((s.team j).heldSince.getD s.part.wall)) 0 + 1000 * s.part.benchUs * Config.unitsPerNs + 1
  let s := s.setPart { s.part with wall := max s.part.wall till }
  .next (s.askLeave team .bench)

end Sys2Proof.Machine
end

