-- ==== Sys2Proof/Machine/Bind.lean ====
section
/-! DEFINITION. From launch to retirement (R258 to R279): the checks of a launch's fields, the heap, placement, bind records and
their presentation, spawns from bound queues, dependence counters and the retirement of teams. -/

namespace Sys2Proof.Machine

/-! ### Launch fields (R259, R260) -/

/-- a[n] of a launch. -/
def argAt (a : List DWord) (n : Nat) : DWord := a.getD n 0

def geomSys (g : DWord) : Bool := g.getLsbD 56
def geomNacc (g : DWord) : Nat := (g.extractLsb' 54 2).toNat
def geomFrm (g : DWord) : BitVec 2 := g.extractLsb' 52 2
def geomWchk (g : DWord) : Bool := g.getLsbD 51
def geomCodep (g : DWord) : Bool := g.getLsbD 50
def geomPrio (g : DWord) : Nat := (g.extractLsb' 47 3).toNat
def geomLeague (g : DWord) : Nat := (g.extractLsb' 45 2).toNat + 1
def geomGw (g : DWord) : Nat := (g.extractLsb' 43 2).toNat
def geomT (g : DWord) : Nat := (g.extractLsb' 32 11).toNat + 1
def geomTeams (g : DWord) : Nat := (g.extractLsb' 0 32).toNat
def poolTsUnits (p : DWord) : Nat := (p.extractLsb' 32 16).toNat
def poolScr (p : DWord) : Nat := (p.extractLsb' 19 5).toNat
def poolReg (p : DWord) : Nat := (p.extractLsb' 14 5).toNat
def poolWlen (p : DWord) : Nat := (p.extractLsb' 7 7).toNat
def poolWbase (p : DWord) : Nat := (p.extractLsb' 0 6).toNat

/-- The pool request: PBREG, PBSCR and PBL1 (R260). -/
def poolRequest (p : DWord) : Nat × Nat × Nat :=
  if poolReg p == 0 then (4, 28, 32) else (poolReg p, poolReg p + poolScr p, 32)

/-- R83. -/
def boundsOk (b : Nat × Nat × Nat) : Bool :=
  decide (1 ≤ b.1) && decide (b.1 ≤ b.2.1) && decide (b.2.1 - b.1 ≤ 28) && decide (b.2.1 + 1 ≤ b.2.2) && decide (b.2.2 ≤ 32)

/-- R260. -/
def poolOk (p : DWord) : Bool :=
  boundsOk (poolRequest p) && !(poolReg p == 0 && poolScr p != 0)
    && decide (poolTsUnits p ≤ 16 * ((poolRequest p).2.1 - (poolRequest p).1)) && decide (poolTsUnits p ≤ 448)

/-- The reserved fields of GEOM and POOL are zero (R259). -/
def launchReservedOk (a : List DWord) : Bool :=
  (argAt a 3).extractLsb' 57 7 == 0 && (argAt a 5).extractLsb' 48 16 == 0 && (argAt a 5).extractLsb' 24 8 == 0
    && !(argAt a 5).getLsbD 6

/-- The check of R261 that yields −1. -/
def launchFieldsOk (a : List DWord) : Bool :=
  let g := argAt a 3
  launchReservedOk a && geomGw g != 3 && geomNacc g != 3 && geomTeams g != 0 && geomTeams g % geomLeague g == 0
    && decide (poolWbase (argAt a 5) + poolWlen (argAt a 5) ≤ 64) && poolOk (argAt a 5)

/-- The check of R261 that yields −2. -/
def launchAddrsOk (a : List DWord) : Bool :=
  (argAt a 0).toNat % 4 == 0 && (argAt a 2).toNat % 8 == 0 && (argAt a 6).toNat % 8 == 0

/-- Bytes of memory that each team of a launch takes: its context image, and its tile save area (R261). -/
def imageBytes : Nat := 0x140000
def launchMemory (a : List DWord) : Nat := geomTeams (argAt a 3) * (imageBytes + 4096 * poolTsUnits (argAt a 5))

/-! ### The heap (R263) -/

/-- An address rounded up to a multiple. -/
def alignUp (x n : Nat) : Nat := (x + n - 1) / n * n

/-- The lowest place in the heap for n bytes at an alignment. -/
def Part.heapPlace (p : Part) (n align : Nat) : Option Nat :=
  let cands := (p.heapBase :: p.heapUsed.map (fun r => r.1 + r.2)).map (fun x => alignUp x align)
  minBy id (cands.filter (fun c => decide (p.heapBase ≤ c) && decide (c + n ≤ p.heapBase + p.heapSize)
    && p.heapUsed.all (fun r => decide (c + n ≤ r.1) || decide (r.1 + r.2 ≤ c))))

/-- n bytes of the heap taken; nothing is taken for n = 0. DEDUCED: assumption 75. -/
def State.heapTake (s : State) (n align : Nat) : Option (Nat × State) :=
  if n == 0 then some (0, s) else
  match s.part.heapPlace n align with
  | none => none
  | some c => some (c, s.setPart { s.part with heapUsed := (c, n) :: s.part.heapUsed })

/-- The range at an address returned to the heap. -/
def State.heapReturn (s : State) (base : Nat) : State :=
  s.setPart { s.part with heapUsed := s.part.heapUsed.filter (fun r => r.1 != base) }

/-! ### The launch table (R262) -/

def State.launch? (s : State) (i l : Nat) : Option Launch := (s.slice i).launches.find? l
def State.setLaunch (s : State) (i l : Nat) (x : Launch) : State :=
  let sl := s.slice i
  s.setSlice i { sl with launches := sl.launches.set l x }

/-- An entry freed: its co-dependent reservation is returned (R262, R263). -/
def State.freeLaunch (s : State) (i l : Nat) : State :=
  match s.launch? i l with
  | none => s
  | some x =>
    let s := match x.reserved with
      | some r => s.heapReturn r.1
      | none => s
    let sl := s.slice i
    s.setSlice i { sl with launches := sl.launches.erase l }

/-- What a launch takes when its checks are passed: −5 without a free entry, −4 without a reservation, else the entry's
index (R261). A reservation is one contiguous range of the heap (R263): one that would fit only in pieces fails.
The entry is the lowest free one. DESIGN CHOICE: assumptions 109, 118. -/
def State.enterLaunch (s : State) (i : Nat) (a : List DWord) (sp : Space) (qspawn : Option (Nat × List DWord))
    (qbad : List Nat := []) :
    Except Int (Nat × State) :=
  let sl := s.slice i
  let l := sl.launches.freeKey 0
  if 64 ≤ l then .error (-5) else
  let got : Option (Option (Nat × Nat) × State) :=
    if geomCodep (argAt a 3) then
      (s.heapTake (launchMemory a) 0x10000).map (fun r => (some (r.1, launchMemory a), r.2))
    else some (none, s)
  match got with
  | none => .error (-4)
  | some (res, s) =>
    let x : Launch :=
      { a := a, asid := sp.asid, vmid := sp.vmid, satp := sp.satp, hgatp := sp.hgatp, hartSlice := i,
        depMet := argAt a 6 == 0, bound := 0, retired := 0, withdrawn := [], reserved := res, seq := s.nextSeq, qspawn := qspawn, qbad := qbad }
    .ok (l, { s.setLaunch i l x with nextSeq := s.nextSeq + 1 })

/-- The address space of a launch. -/
def Launch.space (x : Launch) : Space := { asid := x.asid, vmid := x.vmid, satp := x.satp, hgatp := x.hgatp }

/-- The kind and values of a launch that the records need. -/
def Launch.geom (x : Launch) : DWord := argAt x.a 3
def Launch.pool (x : Launch) : DWord := argAt x.a 5

/-! ### Dependence counters (R268) -/

/-- The die that holds a slice of the partition. -/
def State.dieOf (s : State) (i : Nat) : Nat := sliceDie (s.slice i).number

/-- An abandoned launch (R268): it has bound nothing. DEDUCED: assumption 57. -/
def State.abandon (s : State) (i l : Nat) : State :=
  match s.launch? i l with
  | none => s
  | some x =>
    let s := match x.qspawn with
      | some (q, _) => s.setQueue q { s.queue q with spawn := none }
      | none => s
    (s.freeLaunch i l).raise (.launchError i l)

/-- Does a launch's dependence read wait on a fault? -/
def State.dependWaits (s : State) (i l : Nat) : Bool :=
  s.dies.any (fun d => d.2.noEntry.contains (.depend i l) || d.2.faults.any (fun f => f.2.waiters.contains (.depend i l)))

/-- The dispatch core reads a launch's dependence counter (R268). A die that refuses the packet (R331) ends the read as ACCESS does.
DEDUCED: assumption 58. DESIGN CHOICE: assumption 111. -/
def State.pollDepend (s : State) (i l : Nat) : State :=
  match s.launch? i l with
  | none => s
  | some x =>
    if x.depMet then s else
    let va := argAt x.a 6
    if !canonical va then s.abandon i l else
    match s.translateDie (s.dieOf i) x.space va .read with
    | (.access, s) => s.abandon i l
    | (.fault cause, s) => (s.recordFault (s.dieOf i) x.space va (kindOf .read true) cause 0 (.depend i l)).2
    | (.ok pa _, s) =>
      match s.refusedAt (s.dieOf i) (s.homeDie pa) with
      | some x => (s.linkRefused x (s.dieOf i)).abandon i l
      | none =>
      if s.mem.poisoned pa 8 then s.abandon i l
      else if (argAt x.a 7).toNat ≤ s.mem.readNat pa 8 then (s.readHome pa 8).setLaunch i l { x with depMet := true }
      else s.readHome pa 8

/-- DEPENDENCE_POLL (R268). DEDUCED: assumption 81. -/
def execDependencePoll (slice launch : Nat) (s : State) : Host.Outcome State Fault Refusal :=
  if s.dependWaits slice launch then .next s else .next (s.pollDepend slice launch)

/-! ### Placement (R166, R270) -/

/-- What a team needs of its core and its cluster: thread slots, boundaries, tile save units, and the accumulator tiles that it
holds for life, or how many it is to be given. -/
structure Need where
  pos : Nat
  slots : Nat
  bounds : Nat × Nat × Nat
  units : Nat
  accs : List Nat
  newAccs : Nat
  deriving DecidableEq, Repr

/-- The accumulator tiles of a cluster that teams hold (R225, R270). -/
def State.accHeld (s : State) (cl : Nat) : List Nat :=
  (clusterCores cl).flatMap (fun c => (s.teamsOn c).flatMap (fun k =>
    (s.team k).accA.toList ++ (s.team k).accB.toList))

/-- The boundaries of a core. -/
def Core.bounds (k : Core) : Nat × Nat × Nat := (k.pbReg, k.pbScr, k.pbL1)

/-- Thread slots, and tile save units, that the teams of a core take. -/
def State.slotsHeld (s : State) (c : Nat) : Nat := ((s.teamsOn c).map (fun k => (s.team k).slotCount)).foldl (· + ·) 0
def State.unitsHeld (s : State) (c : Nat) : Nat := ((s.teamsOn c).map (fun k => (s.team k).tsUnits)).foldl (· + ·) 0

/-- Can the core take the team (R270)? -/
def State.coreTakes (s : State) (c : Nat) (n : Need) : Bool :=
  let free := s.teamsOn c
  decide (free.length < Config.teamSlots) && decide (s.slotsHeld c + n.slots ≤ Config.threadSlots)
    && (free.isEmpty || (s.core c).bounds == n.bounds)
    && decide (s.unitsHeld c + n.units ≤ 16 * (n.bounds.2.1 - n.bounds.1))

/-- Can the cluster take the league (R270)? -/
def State.clusterTakes (s : State) (cl : Nat) (ns : List Need) : Bool :=
  let held := s.accHeld cl
  (s.cluster cl).started && (s.sliceIndex (clusterSlice cl)).isSome
    && ns.all (fun n => s.coreTakes (4 * cl + n.pos) n && n.accs.all (fun a => !held.contains a))
    && decide (held.length + (ns.map Need.newAccs).foldl (· + ·) 0 ≤ 8)

/-! ### Leagues to bind (R269, R277) -/

/-- A league that could be bound: one of teams off their cores, or the launch's next new one. -/
inductive LeagueRef where
  | away (members : List Nat)
  | fresh (index : Nat)
  deriving DecidableEq, Repr

/-- Does a team off its core need a core again? One whose threads have all exited needs none without commands. -/
def Team.needsCore (t : Team) : Bool :=
  decide (t.state = .away) && (t.susp != [] || t.threads.any (fun x => match x.2.loc with
    | .exited | .vacant => false
    | _ => true))

/-- The slots whose record is presented or has been refused, and that a condition on their launch picks. -/
def State.waitingRecords (s : State) (f : Option Launch → Bool) : List (Nat × Nat × List Byte) :=
  s.cores.flatMap (fun c => (c.2.slots.filter (fun x =>
    (x.2.state == 1 || x.2.state == 4)
      && f (s.launch? (fieldAt x.2.record 0x1C 2 / 64) (fieldAt x.2.record 0x1C 2 % 64)))).map (fun x => (c.1, x.1, x.2.record)))

/-- Does a slot hold a record of a context that is not bound yet? -/
def State.recorded (s : State) (ctxid : DWord) : Bool :=
  (s.waitingRecords (fun _ => true)).any (fun e => fieldAt e.2.2 0 8 == ctxid.toNat)

/-- The teams of a launch that are off their cores and wait for a record, in ascending TEAMID within each league. -/
def State.awayOf (s : State) (x : Launch) : List Nat :=
  (s.teams.filter (fun t => t.2.grid == x.seq && t.2.needsCore && !s.recorded t.2.ctxid)).map Prod.fst

/-- No league of a virtual function is bound while it is being frozen, or is frozen, but for the one that its guest is
switching to (R329). -/
def State.freezing (s : State) (vmid : Nat) : Bool :=
  match vdevOf vmid with
  | some v => (s.vdev v).freeze && !(s.vdev v).outgoing
  | none => false

/-- The new leagues of a launch that may be bound: those whose records were withdrawn, and the next one. -/
def Launch.fresh (x : Launch) : List Nat :=
  x.withdrawn ++ (if x.bound * geomLeague x.geom < geomTeams x.geom then [x.bound] else [])

/-- The launch after a new league of it has been bound. -/
def Launch.take (x : Launch) (q : Nat) : Launch :=
  if x.withdrawn.contains q then { x with withdrawn := x.withdrawn.filter (· != q) } else { x with bound := x.bound + 1 }

/-- The leagues of a launch to bind, ascending by TEAMID: those off their cores of which a team is bindable and none is held,
and the new ones. -/
def State.leaguesOf (s : State) (x : Launch) : List (Nat × LeagueRef) :=
  if s.freezing x.vmid then [] else
  let away := s.awayOf x
  let ids := dedupSorted (sortNat (away.map (fun k => (s.team k).leagueId.toNat) ++ x.fresh))
  ids.filterMap (fun n =>
    if x.fresh.contains n then some (n, LeagueRef.fresh n) else
    let ms := away.filter (fun k => (s.team k).leagueId.toNat == n)
    if ms.any (fun k => (s.team k).bindable) && ms.all (fun k => !(s.team k).onHold && !(s.team k).vfrozen) then
      some (n, LeagueRef.away ms) else none)

/-- What the teams of a league need (R270). -/
def State.needs (s : State) (x : Launch) : LeagueRef → List Need
  | .away ms => ms.map (fun k =>
    let t := s.team k
    { pos := if 2 ≤ t.leagueSize then t.leaguePos else 0, slots := t.slotCount, bounds := poolRequest x.pool, units := t.tsUnits,
      accs := t.accA.toList ++ t.accB.toList, newAccs := 0 })
  | .fresh _ => (upto 0 (geomLeague x.geom)).map (fun p =>
    { pos := p, slots := 4 * ((geomT x.geom + 3) / 4), bounds := poolRequest x.pool, units := poolTsUnits x.pool, accs := [],
      newAccs := geomNacc x.geom })

/-- The cores on which a placement puts a league in a cluster: the core at its position in a league of two or more, any core
otherwise (R166). -/
def State.shifts (x : Launch) : List Nat := if geomLeague x.geom == 1 then upto 0 4 else [0]

/-- The lowest core offset at which a cluster takes a league (R270). DESIGN CHOICE: assumption 120. -/
def State.placeIn (s : State) (x : Launch) (lg : LeagueRef) (cl : Nat) : Option Nat :=
  (State.shifts x).find? (fun d => s.clusterTakes cl ((s.needs x lg).map (fun n => { n with pos := n.pos + d })))

/-- The memory of a league's teams, image and save area each, where it is to be taken (R263): of a reservation the images first, in the
order of the teams, then the save areas. DEDUCED: assumption 75. DESIGN CHOICE: assumption 121. -/
def State.leagueMemory (s : State) (x : Launch) (lg : LeagueRef) : Option (List (Nat × Nat) × State) :=
  match lg with
  | .away ms => some (ms.map (fun k => ((s.team k).imgBase, (s.team k).tsBase)), s)
  | .fresh n =>
    let L := geomLeague x.geom
    let u := poolTsUnits x.pool
    match x.reserved with
    | some r =>
      some ((upto (n * L) L).map (fun t => (r.1 + imageBytes * t, r.1 + imageBytes * geomTeams x.geom + 4096 * u * t)), s)
    | none =>
      (upto 0 L).foldl (fun (acc : Option (List (Nat × Nat) × State)) _ => match acc with
        | none => none
        | some (l, s) => match s.heapTake imageBytes 0x10000 with
          | none => none
          | some (img, s) => match s.heapTake (4096 * u) 4096 with
            | none => none
            | some (ts, s) => some (l ++ [(img, ts)], s)) (some ([], s))

/-- The clusters of the partition, but for disabled ones (R346). -/
def State.clusterNums (s : State) : List Nat :=
  (s.desc.slmap.flatMap (fun x => upto (4 * x) 4)).filter (fun c => (s.clusters.find? c).isSome)

/-- The first league of a launch that can be bound somewhere (R269). -/
def State.nextLeague (s : State) (x : Launch) : Option LeagueRef :=
  if !x.depMet then none else
  ((s.leaguesOf x).find? (fun e => (s.leagueMemory x e.2).isSome
    && s.clusterNums.any (fun cl => (s.placeIn x e.2 cl).isSome))).map Prod.snd

/-- The launch of a slice whose league is bound next (R269): the highest PRIO, then the one accepted first.
DEDUCED: assumption 56. -/
def State.nextLaunch (s : State) (i : Nat) : Option (Nat × Launch × LeagueRef) :=
  let cands := (s.slice i).launches.filterMap (fun e => (s.nextLeague e.2).map (fun lg => (e.1, e.2, lg)))
  minBy (fun e => (7 - geomPrio e.2.1.geom) * 2 ^ 64 + e.2.1.seq) cands

/-! ### Bind records (R273) -/

/-- The ACCA or ACCB byte of a tile. -/
def accByte (a : Option Nat) : Nat :=
  match a with
  | some n => 0x80 + n
  | none => 0

/-- A bind record. -/
def bindRecord (ctxid : DWord) (img ts units flags prio launch : Nat) (init entry : List Byte) : List Byte :=
  toBytes 8 ctxid.toNat ++ toBytes 8 img ++ toBytes 8 ts ++ toBytes 2 units ++ toBytes 1 flags ++ toBytes 1 prio
    ++ toBytes 2 launch ++ toBytes 2 0 ++ init ++ entry ++ toBytes 32 0

/-- The INIT field of a first bind. -/
def bindInit (x : Launch) (teamId leagueId pos : Nat) (accA accB : Option Nat) : List Byte :=
  toBytes 8 (argAt x.a 0).toNat ++ toBytes 8 (argAt x.a 1).toNat ++ toBytes 8 (argAt x.a 2).toNat ++ toBytes 8 x.geom.toNat
    ++ toBytes 8 (argAt x.a 4).toNat ++ toBytes 8 x.pool.toNat ++ toBytes 4 teamId ++ toBytes 4 leagueId ++ toBytes 1 pos
    ++ toBytes 1 (accByte accA) ++ toBytes 1 (accByte accB) ++ toBytes 5 0

/-- The FLAGS byte of a launch's record. -/
def bindFlags (x : Launch) (first : Bool) : Nat :=
  (if first then 1 else 0) + (if geomSys x.geom then 2 else 0) + (if geomCodep x.geom then 4 else 0)
    + (if x.qspawn.isSome && first then 8 else 0)

/-- New boundaries of an empty core take effect (R83): its dirty register lines are written back, and the register part and
the L1 become empty. -/
def State.setBounds (s : State) (c : Nat) (b : Nat × Nat × Nat) : State :=
  if (s.core c).bounds == b then s else
  let s := (s.core c).lines.foldl (fun (s : State) (l : RegLine) =>
    if l.dirty || (s.team l.team).lineBad l.q l.n then s.writeLine l.team l.q l.n else s) s
  s.updCore c (fun k => { k with pbReg := b.1, pbScr := b.2.1, pbL1 := b.2.2, lines := [], l1 := [] })

/-- A record presented in a core's first slot that holds no team. -/
def State.present (s : State) (c : Nat) (record : List Byte) : State :=
  s.updCore c (fun k =>
    let sl := ((upto 0 8).find? (fun i => match k.slots.find? i with
      | none => true
      | some x => x.state == 0)).getD 0
    { k with slots := k.slots.set sl { record := record, state := 1, refuse := 0, team := none } })

/-- The new tile numbers of a league's teams: the lowest free ones of the cluster, in order (R270). DESIGN CHOICE: assumption 119. -/
def State.newAccs (s : State) (cl : Nat) : List Nat := (upto 0 8).filter (fun a => !(s.accHeld cl).contains a)

/-- A league bound in a cluster: its memory is taken and its records are presented (R269, R273).
DESIGN CHOICE: assumption 20. -/
def State.bindLeague (s : State) (i l cl : Nat) (x : Launch) (lg : LeagueRef) : State :=
  match s.placeIn x lg cl, s.leagueMemory x lg with
  | some shift, some (mems, s) =>
    let free := s.newAccs cl
    let ns := s.needs x lg
    let s := match lg with
      | .fresh q => s.setLaunch i l (x.take q)
      | .away _ => s
    let lw := l + 64 * i
    (ns.zip mems).zipIdx.foldl (fun s e =>
      let ((n, img, ts), j) := e
      let c := 4 * cl + n.pos + shift
      let s := if (s.teamsOn c).isEmpty then s.setBounds c n.bounds else s
      match lg with
      | .fresh q =>
        let na := geomNacc x.geom
        let accA := if 1 ≤ na then free[na * j]? else none
        let accB := if 2 ≤ na then free[na * j + 1]? else none
        let entry := match x.qspawn with
          | some (_, ws) => ws.flatMap (fun w => toBytes 8 w.toNat)
          | none => toBytes 64 0
        let s := s.present c (bindRecord (BitVec.ofNat 64 s.nextCtx) img ts (poolTsUnits x.pool) (bindFlags x true)
          (geomPrio x.geom) lw (bindInit x (q * geomLeague x.geom + j) q j accA accB) entry)
        { s with nextCtx := s.nextCtx + 1 }
      | .away ms =>
        let t := s.team (ms.getD j 0)
        s.present c (bindRecord t.ctxid img ts t.tsUnits (bindFlags x false) (geomPrio x.geom) lw (toBytes 64 0) (toBytes 64 0))) s
  | _, _ => s

/-- Refused records of a slice's launch on the cores of a cluster. -/
def State.refusedSlots (s : State) (i l cl : Nat) : List (Nat × Nat × Slot) :=
  (clusterCores cl).flatMap (fun c => ((s.core c).slots.filter (fun x =>
    x.2.state == 4 && fieldAt x.2.record 0x1C 2 == l + 64 * i)).map (fun x => (c, x.1, x.2)))

/-- Does a slot of the cluster hold a record that is being presented? The dispatch core presents one league at a time to a
cluster: while it does, a league whose place is there waits. DEDUCED: assumption 55. -/
def State.presenting (s : State) (cl : Nat) : Bool :=
  (clusterCores cl).any (fun c => (s.core c).slots.any (fun x => x.2.state == 1))

/-- The freeze of the launch's virtual function is complete, so that no record of it becomes resident (R329). -/
def State.launchFrozen (s : State) (i l : Nat) : Bool :=
  match s.launch? i l with
  | some x => match vdevOf x.vmid with
    | some v => (s.vdev v).freeze && (s.vdev v).result != 2
    | none => false
  | none => false

/-- DISPATCH_BIND (R269, R270): a refused record of the launch is presented again; else the launch, when it is the next of its
slice and can be placed in the cluster, has its next league bound there. DEDUCED: assumptions 55, 56, 81. -/
def execDispatchBind (slice launch cluster : Nat) (s : State) : Host.Outcome State Fault Refusal :=
  if s.halted || !s.clusterNums.contains cluster || s.presenting cluster || s.launchFrozen slice launch then .next s else
  match s.refusedSlots slice launch cluster with
  | r :: rs => .next ((r :: rs).foldl (fun s e => s.updCore e.1 (fun k =>
      { k with slots := k.slots.set e.2.1 { e.2.2 with state := 1, refuse := 0 } })) s)
  | [] =>
    match s.nextLaunch slice with
    | some (l, x, lg) => if l = launch then .next (s.bindLeague slice launch cluster x lg) else .next s
    | none => .next s

/-- CODEP_REBIND_TICK (R277): the team of a co-dependent launch that has been benched longest becomes bindable with its league,
which is bound in the cluster where it can be. DEDUCED: assumption 81. -/
def execCodepRebindTick (slice launch cluster : Nat) (s : State) : Host.Outcome State Fault Refusal :=
  match s.launch? slice launch with
  | none => .next s
  | some x =>
    if !geomCodep x.geom || s.halted || s.presenting cluster then .next s else
    let away := (s.awayOf x).filter (fun k => !(s.team k).onHold && !(s.team k).vfrozen)
    match minBy (fun k => (s.team k).heldSince.getD 0) away with
    | none => .next s
    | some k =>
      let ms := away.filter (fun j => (s.team j).leagueId == (s.team k).leagueId)
      let s := ms.foldl (fun s j => s.updTeam j (fun t => { t with bindable := true })) s
      match s.nextLaunch slice with
      | some (l, x', .away ms') =>
        if l = launch ∧ ms' = ms then .next (s.bindLeague slice launch cluster x' (.away ms)) else .next s
      | _ => .next s

/-! ### Presenting a record (R274) -/

/-- The fields of a record that must be zero are (R273), and GANGW is one of R24's. -/
def recordOk (r : List Byte) : Bool :=
  let flags := fieldAt r 0x1A 1
  let i := (r.drop 0x20).take 64
  decide (flags < 16) && decide (fieldAt r 0x1B 1 < 8) && decide (fieldAt r 0x1C 2 < 1024) && fieldAt r 0x1E 2 == 0
    && fieldAt r 0xA0 32 == 0 && (natBit flags 3 || fieldAt r 0x60 64 == 0)
    && (if natBit flags 0 then
          launchReservedOk [0, 0, 0, BitVec.ofNat 64 (fieldAt i 0x18 8), 0, BitVec.ofNat 64 (fieldAt i 0x28 8)]
            && geomGw (BitVec.ofNat 64 (fieldAt i 0x18 8)) != 3 && decide (fieldAt i 0x38 1 < 4) && fieldAt i 0x3B 5 == 0
            && [0x39, 0x3A].all (fun o => fieldAt i o 1 == 0 || (decide (128 ≤ fieldAt i o 1) && decide (fieldAt i o 1 < 136)))
        else fieldAt i 0 64 == 0)

/-- The ACCA or ACCB byte of a record. -/
def accOf (b : Nat) : Option Nat := if natBit b 7 then some (b % 8) else none

/-- A team as a first bind record makes it (R53, R60, R274): every thread slot waits at KADDR. -/
def teamOfRecord (r : List Byte) (x : Launch) (c sl : Nat) : Team :=
  let i := (r.drop 0x20).take 64
  let g := BitVec.ofNat 64 (fieldAt i 0x18 8)
  let p := BitVec.ofNat 64 (fieldAt i 0x28 8)
  let w := 16 * 2 ^ geomGw g
  let t := geomT g
  let ka := BitVec.ofNat 64 (fieldAt i 0 8)
  let gangs := (t + w - 1) / w
  let args : List (Nat × DWord) :=
    if natBit (fieldAt r 0x1A 1) 3 then
      (upto 0 8).map (fun n => (n + 1, BitVec.ofNat 64 (fieldAt r (0x60 + 8 * n) 8)))
    else [(1, BitVec.ofNat 64 (fieldAt i 8 8)), (2, BitVec.ofNat 64 (fieldAt i 0x10 8))]
  { Team.empty with
    state := .resident c sl, ctxid := BitVec.ofNat 64 (fieldAt r 0 8), slice := fieldAt r 0x1C 2 / 64,
    launch := fieldAt r 0x1C 2 % 64, grid := x.seq, prio := fieldAt r 0x1B 1, sys := natBit (fieldAt r 0x1A 1) 1,
    codep := natBit (fieldAt r 0x1A 1) 2, qspawn := natBit (fieldAt r 0x1A 1) 3, asid := x.asid, vmid := x.vmid,
    satp := x.satp, hgatp := x.hgatp, imgBase := fieldAt r 8 8, tsBase := fieldAt r 0x10 8, tsUnits := fieldAt r 0x18 2,
    kaddr := ka, cctr := BitVec.ofNat 64 (fieldAt i 0x10 8), teamId := BitVec.ofNat 32 (fieldAt i 0x30 4),
    leagueId := BitVec.ofNat 32 (fieldAt i 0x34 4), leaguePos := fieldAt i 0x38 1, leagueSize := geomLeague g,
    gridTeams := BitVec.ofNat 32 (geomTeams g), w := w, t := t, frm := geomFrm g,
    trapVec := BitVec.ofNat 64 (fieldAt i 0x20 8), waitCheck := geomWchk g, wbase := poolWbase p, wlen := poolWlen p,
    accA := accOf (fieldAt i 0x39 1), accB := accOf (fieldAt i 0x3A 1),
    s := (upto 0 gangs).foldl (fun l q => args.foldl (fun l a => Tab.put 0 l (32 * q + a.1) a.2) l) []
    sbad := (upto 0 gangs).flatMap (fun q => x.qbad.map (fun n => 32 * q + n))
    threads := (upto 0 (4 * ((t + 3) / 4))).map (fun j => (j, { Thread.empty with loc := .waits ka }))
    lastCore := some c }

/-- What of a record a core refuses (R274), 0 for nothing. -/
def State.refusal (s : State) (c : Nat) (r : List Byte) (t : Team) : Nat :=
  let empty := (s.teamsOn c).isEmpty
  let first := natBit (fieldAt r 0x1A 1) 0
  let req := poolRequest (BitVec.ofNat 64 (fieldAt r 0x48 8))
  let b := if first then req else (s.core c).bounds
  let img := fieldAt r 8 8
  let ts := fieldAt r 0x10 8
  let u := fieldAt r 0x18 2
  if !recordOk r then 1
  else if !boundsOk b || (!empty && decide (b ≠ (s.core c).bounds)) then 2
  else if decide (Config.teamSlots ≤ (s.teamsOn c).length) || decide (Config.threadSlots < s.slotsHeld c + t.slotCount) then 3
  else if (t.accA.toList ++ t.accB.toList).any (fun a => (s.accHeld (coreCluster c)).contains a)
      || decide (16 * (b.2.1 - b.1) < s.unitsHeld c + u) then 4
  else if img % 0x10000 != 0 || ts % 4096 != 0 || decide (s.memEnd < img + imageBytes) || decide (s.memEnd < ts + 4096 * u) then 5
  else 0

/-- The promotion entries of a team's accumulator tiles freed, with nothing folded and nothing written (R467). -/
def State.dropPromo (s : State) (c : Nat) (t : Team) : State :=
  s.updMatrix (coreCluster c) (fun m =>
    { m with promo := m.promo.filter (fun e => !(t.accA == some e.acc || t.accB == some e.acc)) })

/-- A slot's STATE and REFUSE set. -/
def State.setSlot (s : State) (c sl : Nat) (f : Slot → Slot) : State :=
  s.updCore c (fun k => match k.slots.find? sl with
    | some x => { k with slots := k.slots.set sl (f x) }
    | none => k)

/-- A team starts on a core (R58, R59, R66, R68, R274). DEDUCED: assumption 12. DESIGN CHOICE: assumption 116. -/
def State.startTeam (s : State) (c sl : Nat) (r : List Byte) (x : Launch) : State :=
  let t := teamOfRecord r x c sl
  let k := s.teams.freeKey 0
  let s := s.setBounds c (poolRequest (BitVec.ofNat 64 (fieldAt r 0x48 8)))
  let s := ((s.setTeam k { t with bound := s.nextBind }).zeroAcc c t).firstImage k
  let s := { s with nextBind := s.nextBind + 1 }
  let core := s.core c
  let e : Entry := { team := k, addr := t.kaddr, mid := false, encl := none, age := 0, idle := 0, born := core.seq, ready := none }
  let s := if core.table.length < Config.blockEntries then
      s.setCore c { core with table := core.table ++ [e], seq := core.seq + 1 }
    else (s.setCore c { core with seq := core.seq + 1 }).updTeam k (fun t => { t with spill := [e] })
  let s := s.setSlot c sl (fun y => { y with state := 2, team := some k })
  match x.qspawn with
  | none => s
  | some (q, _) =>
    let s := match s.takeEntry q with
      | some (_, s) => s
      | none => s
    (s.setQueue q { s.queue q with spawn := none }).settleQueue q

/-- A core's L1 emptied as a team comes to run on it: every event of the team follows what its host published before the
XLSPAWN, what its launch waited for, and what it did itself on another core (R180, R183, R268). DEDUCED: assumption 12. -/
def State.emptyL1 (s : State) (c : Nat) : State := s.updCore c (fun k => { k with l1 := [] })

/-- The team off its core whose context a record names. -/
def State.teamOf (s : State) (r : List Byte) : Option (Nat × Team) :=
  List.find? (fun (t : Nat × Team) => t.2.ctxid.toNat == fieldAt r 0 8 && decide (t.2.state = .away)) s.teams

/-- A context of a virtual function has been bound: its guest's switch has committed (R329). -/
def State.commit (s : State) (vmid : Nat) : State :=
  match vdevOf vmid with
  | some v => if (s.vdev v).outgoing then s.setVdev v { s.vdev v with outgoing := false } else s
  | none => s

/-- A presented record checked: the REFUSE code, or the state in which its team has started or resumed (R274). A record of a
context that does not exist is refused as one that breaks R273. DEDUCED: assumption 61. -/
def State.accept (s : State) (core slot : Nat) (r : List Byte) : Except Nat State :=
  let lw := fieldAt r 0x1C 2
  if natBit (fieldAt r 0x1A 1) 0 then
    match s.launch? (lw / 64) (lw % 64) with
    | none => .error 1
    | some x =>
      let n := s.refusal core r (teamOfRecord r x core slot)
      if n ≠ 0 then .error n else .ok (((s.emptyL1 core).startTeam core slot r x).commit x.vmid)
  else
    match s.teamOf r with
    | none => .error 1
    | some (k, t) =>
      let n := s.refusal core r t
      if n ≠ 0 then .error n
      else .ok ((((s.emptyL1 core).setSlot core slot (fun y => { y with state := 2, team := some k })).resumeTeam k core slot).commit
        t.vmid)

/-- The LEAGUEID of a record: of its INIT, or of the context that it resumes (R273). -/
def State.recordLeague (s : State) (r : List Byte) : Option Nat :=
  if natBit (fieldAt r 0x1A 1) 0 then some (fieldAt r 0x54 4) else (s.teamOf r).map (fun t => t.2.leagueId.toNat)

/-- The other records of a record's league that are presented in the cluster (R270). -/
def State.mates (s : State) (core slot : Nat) (r : List Byte) : List (Nat × Nat × List Byte) :=
  (clusterCores (coreCluster core)).flatMap (fun c => ((s.core c).slots.filter (fun y =>
    y.2.state == 1 && (c != core || y.1 != slot) && fieldAt y.2.record 0x1C 2 == fieldAt r 0x1C 2
      && (s.recordLeague r).isSome && s.recordLeague y.2.record == s.recordLeague r)).map (fun y => (c, y.1, y.2.record)))

/-- Records of one league accepted, all or none: one that is refused leaves the others presented (R270, R274). -/
def State.acceptAll (s0 : State) : State → List (Nat × Nat × List Byte) → State
  | s, [] => s
  | s, e :: es =>
    match s.accept e.1 e.2.1 e.2.2 with
    | .error n => s0.setSlot e.1 e.2.1 (fun y => { y with state := 4, refuse := n })
    | .ok s => s0.acceptAll s es

/-- Is the record of a team that DREQ HOLD or VFREEZE keeps off its cores (R311, R329)? -/
def State.recordHeld (s : State) (r : List Byte) : Bool :=
  if natBit (fieldAt r 0x1A 1) 0 then s.launchFrozen (fieldAt r 0x1C 2 / 64) (fieldAt r 0x1C 2 % 64) else
  match s.teamOf r with
  | some (_, t) => t.onHold || t.vfrozen
  | none => false

/-- SLOTCTL_PRESENT (R270, R274): the cores check the presented records of a league, and refuse one, or start or resume the
league's teams together. Nothing is bound in a partition that is frozen or held (R315, R339), nor a league that is held
off its cores (R311). DEDUCED: assumption 61. -/
def execSlotctlPresent (core slot : Nat) (s : State) : Host.Outcome State Fault Refusal :=
  match (s.core core).slots.find? slot with
  | none => .next s
  | some y =>
    let es := (core, slot, y.record) :: s.mates core slot y.record
    if y.state ≠ 1 ∨ s.halted = true ∨ es.any (fun e => s.recordHeld e.2.2) = true then .next s
    else .next (s.acceptAll s es)

/-! ### Spawns from bound queues (R256, R274) -/

/-- A queue that the part disables (R251): as many on-chip entries as the ring has room for go to it, the youngest first.
DEDUCED: assumption 57. -/
def State.disableByPart (s : State) (n : Nat) : Nat → State
  | 0 => s.setQueue n { s.queue n with ctl := (s.queue n).ctl &&& ~~~(1#64) }
  | k + 1 =>
    let q := s.queue n
    match q.chip.getLast? with
    | none => s.disableByPart n k
    | some e =>
      if 2 ^ q.log2n ≤ q.inRing then s.disableByPart n k else
      let h := (q.head + 2 ^ 32 - 1) % 2 ^ 32
      let s := s.putEntry (q.slotAt h) e q.vmid
      (s.setQueue n { q with chip := q.chip.dropLast, head := h, inRing := q.inRing + 1 }).disableByPart n k

/-- The entry that a queue would yield next: its bytes, and its poisoned 4-byte words (R252). -/
def State.oldestEntry (s : State) (n : Nat) : List Byte × List Nat :=
  let q := s.queue n
  match q.chip with
  | e :: _ => e
  | [] =>
    let a := q.slotAt q.head
    (s.mem.read a 64, (s.mem.badIn a 64).map (fun w => w - a / 4))

/-- The words of that entry. -/
def State.oldestWords (s : State) (n : Nat) : List DWord :=
  (upto 0 8).map (fun j => BitVec.ofNat 64 (fieldAt (s.oldestEntry n).1 (8 * j) 8))

/-- The s registers that its poisoned words are delivered in (R252, R274). -/
def State.oldestBad (s : State) (n : Nat) : List Nat :=
  (upto 0 8).filterMap (fun j =>
    if (s.oldestEntry n).2.any (fun w => w / 2 == j) then some (j + 1) else none)

/-- The checks of a spawn record (R261, R274). -/
def spawnOk (a : List DWord) : Bool :=
  launchFieldsOk a && launchAddrsOk a && geomTeams (argAt a 3) == 1 && geomLeague (argAt a 3) == 1 && !geomSys (argAt a 3)

/-- QUEUE_SPAWN (R256, R274): the oldest entry of a bound queue takes a launch-table entry; a full table or heap leaves it
waiting, and a record that fails its checks disables the queue. A queue of the physical function, VMID 0, has no second
stage. DEDUCED: assumption 57. -/
def execQueueSpawn (qnum : Nat) (s : State) : Host.Outcome State Fault Refusal :=
  let q := s.queue qnum
  if s.halted || !q.en || !q.bound || q.spawn.isSome || q.count == 0 || !decide (qnum < 64 * s.nsl) then .next s else
  let at_ := q.bind.toNat
  let inMem := decide (at_ + 64 ≤ s.memEnd)
  let s := if inMem then s.readHome at_ 64 else s
  let a := (upto 0 8).map (fun j => BitVec.ofNat 64 (s.mem.readNat (at_ + 8 * j) 8))
  if !spawnOk a || !inMem || s.mem.poisoned at_ 64 then
    .next ((s.disableByPart qnum q.chip.length).raise (.queue qnum))
  else
    let sp : Space := { asid := q.asid, vmid := q.vmid, satp := q.satp, hgatp := if q.vmid == 0 then 0 else q.hgatp }
    match s.enterLaunch (qnum / 64) a sp (some (qnum, s.oldestWords qnum)) (s.oldestBad qnum) with
    | .error _ => .next s
    | .ok (l, s) => .next (s.setQueue qnum { s.queue qnum with spawn := some l })

/-! ### Retirement (R49, R58, R279) -/

/-- Does a team's completion addition wait on a fault? -/
def State.additionWaits (s : State) (k : Nat) : Bool :=
  s.dies.any (fun d => d.2.noEntry.contains (.addition k) || d.2.faults.any (fun f => f.2.waiters.contains (.addition k)))

/-- R49: every thread has exited, and every command has ended. -/
def State.finished (s : State) (k : Nat) : Bool :=
  let t := s.team k
  decide (t.state ≠ .retired) && t.threads.all (fun x => decide (x.2.loc = .exited) || decide (x.2.loc = .vacant))
    && s.commandCount k == 0 && t.k.all (fun v => decide (v.2.state ≠ 2))
    && (match t.onCore with
      | some c => (s.passesOf c k).all (fun p => p.groups.flatten.isEmpty)
      | none => true)

/-- The completion addition (R266): done, dropped with the launch-error interrupt, or waiting on a fault. As an acquire-release ATOM at
PARTITION of the team's core it follows what the core has issued, and drops its L1 (R187, R189).
DEDUCED: assumptions 15, 59. -/
def State.addCompletion (s : State) (k : Nat) : Bool × State :=
  let t := s.team k
  let d := match t.onCore with
    | some c => coreDie c
    | none => (t.lastCore.map coreDie).getD 0
  let s := match t.onCore with
    | some c => s.release c .partition
    | none => s
  let drop := fun (s : State) => (true, s.raise (.launchError t.slice t.launch))
  if !canonical t.cctr then drop s else
  match s.translateDie d t.space t.cctr .atom with
  | (.access, s) => drop s
  | (.fault cause, s) => (false, (s.recordFault d t.space t.cctr 8 cause t.ctxid (.addition k)).2)
  | (.ok pa _, s) =>
    if s.mem.poisoned pa 8 then drop s
    else
      let s := s.storeHome pa (toBytes 8 (s.mem.readNat pa 8 + 1)) t.vmid
      (true, match t.onCore with
        | some c => s.updCore c (fun k => { k with l1 := [] })
        | none => s)

/-- A team's place given up: handles, entries, accumulator tiles, register lines and slot (R279, R467). -/
def State.freeTeam (s : State) (k : Nat) : State :=
  let t := s.team k
  let s := match t.state with
    | .resident c sl | .killed c sl =>
      (s.dropPromo c t).updCore c (fun core => { core with
        passes := core.passes.filter (fun p => p.team != k), ended := core.ended.filter (fun p => p.team != k),
        table := core.table.filter (fun e => e.team != k), want := core.want.filter (fun w => w.1 != k), arms := core.arms.filter (fun a => a.team != k),
        slots := core.slots.set sl { record := [], state := 0, refuse := 0, team := none } })
    | _ => s
  let other := fun (p : Option Plane) => match p with
    | some q => if q.team == k then none else some q
    | none => none
  let s := { (s.dropWaiters k) with
    cores := s.cores.mapVal (fun _ (c : Core) => { c with lines := c.lines.filter (fun l => l.team != k) })
    slices := s.slices.mapVal (fun _ (x : Slice) => { x with monitors := x.monitors.filter (fun r => r.team != k) })
    clusters := s.clusters.mapVal (fun _ (x : Cluster) => { x with matrix := { x.matrix with
      active := other x.matrix.active, shadow := other x.matrix.shadow
      failed := x.matrix.failed.filter (fun e => e.1 != k), spent := x.matrix.spent.filter (fun e => e.1 != k), posting := x.matrix.posting.filter (fun e => e.1 != k) } }) }
  let s := { s with dies := s.dies.mapVal (fun _ (d : Die) => { d with callWait := d.callWait.filter (fun e => e.1 != k) }) }
  s.updTeam k (fun t => { t with
    state := .retired, h := [], spill := [], sel := none, results := [], marks := [], susp := [], call := none, bindable := false,
    leaving := none })

/-- The memory of a retired team returned (R58, R279): its save area at once; its image unless the league's objects are in
it, and that one with the league's last team. -/
def State.returnMemory (s : State) (k : Nat) : State :=
  let t := s.team k
  let last := (s.league k).all (fun j => decide ((s.team j).state = .retired))
  let keep := fun (t : Team) => decide (2 ≤ t.leagueSize) && t.leaguePos == 0
  let s := if t.codep then s else
    let s := if t.tsUnits == 0 then s else s.heapReturn t.tsBase
    let s := if keep t && !last then s else s.heapReturn t.imgBase
    if last then ((s.league k).filter (fun j => j != k && keep (s.team j))).foldl (fun s j => s.heapReturn (s.team j).imgBase) s
    else s
  if last then { s with teams := s.teams.filter (fun e => !(e.2.grid == t.grid && e.2.leagueId == t.leagueId)) } else s

/-- A launch counts a retired team, and its entry frees with the last one (R262). -/
def State.countRetired (s : State) (i l grid : Nat) : State :=
  match s.launch? i l with
  | none => s
  | some x =>
    if x.seq ≠ grid then s
    else if x.retired + 1 = geomTeams x.geom then s.freeLaunch i l
    else s.setLaunch i l { x with retired := x.retired + 1 }

/-- The steps of a retirement after its completion addition (R279). -/
def State.retire (s : State) (k : Nat) : State :=
  let t := s.team k
  let s := ((s.freeTeam k).returnMemory k).countRetired t.slice t.launch t.grid
  match t.onCore with
  | some c => s.refill c Config.blockEntries
  | none => s

/-- What a retirement frees before its completion addition: the team's tiles and entries, when every access of its core that is
on its way has been performed (R49, R183, R279); its peers find it absent from then on (R463). -/
def State.freeFirst (s : State) (k : Nat) : State :=
  match (s.team k).onCore with
  | some c =>
    let s := (s.drainCore c).updCore c (fun core => { core with table := core.table.filter (fun e => e.team != k) })
    (s.updTeam k (fun t => { t with h := [], spill := [], retiring := true })).refill c Config.blockEntries
  | none => s.updTeam k (fun t => { t with h := [], spill := [], retiring := true })

/-- The retirement of a team that has finished, or what of it is left (R279). -/
def State.tryRetire (s : State) (k : Nat) : State :=
  if !s.finished k then s else
  match (s.freeFirst k).addCompletion k with
  | (true, s) => s.retire k
  | (false, s) => s

/-- TEAM_RETIREMENT (R49, R279). DEDUCED: assumption 81. -/
def execTeamRetirement (team : Nat) (s : State) : Host.Outcome State Fault Refusal :=
  if s.additionWaits team then .next s else .next (s.tryRetire team)

end Sys2Proof.Machine
end

