-- ==== Sys2Proof/Machine/Calls.lean ====
section
/-! DEFINITION. System calls (R298 to R300) and the resolution of faults (R175, R246, R266, R268, R288). -/

namespace Sys2Proof.Machine

/-! ### Calls -/

/-- A call record but for CALL (R299). -/
def Team.callRecord (t : Team) (sup sa : Nat) : List Byte :=
  let x := t.thread sup
  toBytes 8 t.ctxid.toNat ++ toBytes 8 (t.sget (t.gangOf sup) sa).toNat
    ++ (upto 0 6).flatMap (fun n => toBytes 4 (x.vget n).toNat) ++ toBytes 4 t.teamId.toNat ++ toBytes 2 t.asid ++ toBytes 2 t.vmid
    ++ toBytes 2 0 ++ toBytes 2 sup ++ toBytes 12 0

/-- A call takes an entry of its die's table and its record goes to the service queue (R299). -/
def State.takeCall (s : State) (d k : Nat) (rec_ : List Byte) : State :=
  let die := s.die d
  let i := die.calls.freeKey 0
  let (r, m, irq) := die.sq.push s.mem (rec_.take 0x30 ++ toBytes 1 i ++ rec_.drop 0x31)
  let s := (s.setMem m).setDie d { die with calls := die.calls.set i { team := k }, sq := r }
  (s.updTeam k (fun t => { t with call := some (d, some i) })).raiseIf irq (.service d)

/-- SYSCALL_GATHER_COMPLETE (R298, R299): the release, the supplier's arguments, and the call; a poisoned argument word traps
RF_UE in the supplier, which leaves the gather. -/
def execSyscallGatherComplete (team : Nat) (s : State) : Host.Outcome State Fault Refusal :=
  match (s.team team).state with
  | .resident c _ =>
    let t := s.team team
    if !t.gatherComplete then .next s else
    match t.gathered.find? (fun j => !t.isPawn j) with
    | none => .next s
    | some sup =>
      let s := s.release c .partition
      let t := s.team team
      let x := t.thread sup
      let sa := match x.loc with
        | .held (.gather n) _ => n
        | _ => 0
      let bad := match (upto 0 6).find? x.bad.contains with
        | some n => some n
        | none => if t.spoison (t.gangOf sup) sa then some 127 else none
      match bad with
      | some n =>
        .next (s.trapThread team sup
          { cause := causeRfUe, info0 := BitVec.ofNat 64 (n + 2 ^ 16 * sup), info1 := 0, pc := x.heldAt })
      | none =>
        let d := coreDie c
        let rec_ := t.callRecord sup sa
        let s := t.gathered.foldl (fun s j => s.updThread team j (fun y => match y.loc with
          | .held (.gather n) r => { y with loc := .held (.call n) r, watch := 0 }
          | _ => y)) s
        if (s.die d).calls.length < 256 then .next (s.takeCall d team rec_)
        else .next ((s.updTeam team (fun t => { t with call := some (d, none) })).setDie d
          { s.die d with callWait := (s.die d).callWait ++ [(team, rec_)] })
  | _ => .next s

/-- v0 of a thread written from outside its core's instructions (R299): its register line becomes dirty where a pool holds
it, and its word is written to the image where none does. -/
def State.writeV0 (s : State) (k j : Nat) (v : Word) : State :=
  let s := s.updThread k j (fun x => x.vset 0 v)
  let t := s.team k
  let q := t.laneBlock j
  if s.cores.any (fun c => c.2.hasLine k q 0) then
    { s with cores := s.cores.mapVal (fun _ (c : Core) => { c with
        lines := c.lines.map (fun l => if l.team == k && l.q == q && l.n == 0 then { l with dirty := true } else l) }) }
  else s.writeFor t.vmid (t.lineAddr q 0 + 4 * (t.laneOf j % 16)) (toBytes 4 v.toNat)

/-- The result of a call for the threads of its team (R299): v0, the acquire, and their release together; a team off its core
becomes bindable. -/
def State.callResult (s : State) (k : Nat) (v : Word) : State :=
  let tids := ((s.team k).threads.filter (fun x => match x.2.loc with
    | .held (.call _) _ => true
    | _ => false)).map Prod.fst
  let s := s.updTeam k (fun t => { t with call := none })
  let s := tids.foldl (fun s j => s.writeV0 k j v) s
  if (s.team k).isResident then tids.foldl (fun s j => s.resume k j) (s.acquire k .partition)
  else
    let s := tids.foldl (fun s j => s.updThread k j (fun x => match x.loc with
      | .held _ r => { x with loc := .held (.finished none 0 true) r }
      | _ => x)) s
    s.updTeam k (fun t => { t with bindable := true })

/-- SCDONE (R299): a call completes with its result, its entry frees, and the call that waited longest takes one; a free index
is ignored. -/
def execScdone (die : Nat) (value : DWord) (s : State) : Host.Outcome State Fault Refusal :=
  let i := (value.extractLsb' 0 8).toNat
  let d := s.die die
  match d.calls.find? i with
  | none => .next s
  | some c =>
    let s := s.setDie die { d with calls := d.calls.erase i }
    let s := if (s.team c.team).call = some (die, some i) then s.callResult c.team (hi32 value) else s
    match (s.die die).callWait with
    | [] => .next s
    | (k, rec_) :: rest => .next ((s.setDie die { s.die die with callWait := rest }).takeCall die k rec_)

/-! ### Faults resolved -/

/-- A suspended command or request is presented again: its descriptor is read if it has none (R208, R229, R246). -/
def State.replayMatrix (s : State) (cl i : Nat) : State :=
  match (s.cluster cl).matrix.table.find? i with
  | some r =>
    if r.state ≠ .suspended then s else
    let r := { r with state := .waiting, fault := none }
    match r.desc with
    | some _ => s.setReq cl i r
    | none => s.readReq (((s.team r.team).onCore).getD (4 * cl)) cl i r
  | none => s

/-- The same for a copy or a digest (R246, R373). -/
def State.replayCopy (s : State) (cl i : Nat) : State :=
  match (s.cluster cl).copy.table.find? i with
  | some r =>
    if r.state ≠ .suspended then s else
    let r := { r with state := .waiting, fault := none }
    match r.desc with
    | some _ => s.setCmd cl i r
    | none => s.readCmd (((s.team r.team).onCore).getD (4 * cl)) cl i r
  | none => s

/-- A waiter is returned as by RETRY (R175, R266, R268, R288). -/
def State.retryWaiter (s : State) (w : Waiter) : State :=
  match w with
  | .thread k j =>
    let x := (s.team k).thread j
    if x.loc = .parked then s.join k j x.trapPc true else s
  | .matrix cl i => s.replayMatrix cl i
  | .copy cl i => s.replayCopy cl i
  | .addition k => s.tryRetire k
  | .depend i l => s.pollDepend i l

/-- A waiter whose fault is delivered (R175, R266, R268, R288). -/
def State.deliverWaiter (s : State) (w : Waiter) : State :=
  match w with
  | .thread k j =>
    let x := (s.team k).thread j
    if x.loc ≠ .parked then s
    else if (s.team k).isPawn j then s.dormant k j
    else s.trapThread k j { cause := causePageFault, info0 := x.info0, info1 := x.info1, pc := x.trapPc }
  | .matrix cl i => match (s.cluster cl).matrix.table.find? i with
    | some r =>
      if r.state ≠ .suspended then s
      else (if r.desc.isSome then s.spoilReq cl r else s).failReq cl i r errTranslation
    | none => s
  | .copy cl i => match (s.cluster cl).copy.table.find? i with
    | some r => if r.state = .suspended then s.endCmd cl i r errTranslation else s
    | none => s
  | .addition k => (s.raise (.launchError (s.team k).slice (s.team k).launch)).retire k
  | .depend i l => s.abandon i l

/-- The parties that found no free entry are presented again, of every die (R173). DEDUCED: assumption 60. -/
def State.representAll (s : State) : State :=
  let ws := s.dies.flatMap (fun d => d.2.noEntry)
  ws.foldl State.retryWaiter { s with dies := s.dies.mapVal (fun _ (d : Die) => { d with noEntry := [] }) }

/-- An entry of a fault table freed, and its waiters dealt with (R175). -/
def State.resolveFault (s : State) (d i : Nat) (f : State → Waiter → State) : State :=
  match (s.die d).faults.find? i with
  | none => s
  | some e => (e.waiters.foldl f (s.setDie d { s.die d with faults := (s.die d).faults.erase i })).representAll

/-- FQDONE with RETRY (R175). -/
def execFqdoneRetry (die index : Nat) (s : State) : Host.Outcome State Fault Refusal :=
  .next (s.resolveFault die index State.retryWaiter)

/-- FQDONE with DELIVER (R175). -/
def execFqdoneDeliver (die index : Nat) (s : State) : Host.Outcome State Fault Refusal :=
  .next (s.resolveFault die index State.deliverWaiter)

end Sys2Proof.Machine
end

