-- ==== Sys2Proof/Machine/Control.lean ====
section
/-! DEFINITION. The partition control space and what its registers do (R250, R251, R306 to R312, R325 to R329, R344): rings, queues,
the heap, dispatch requests, Castle's requests, VDEV freezes, TLB invalidations, heartbeats and the clock. -/

namespace Sys2Proof.Machine

/-! ### Rings (R308) -/

def State.ring (s : State) : RingId → Ring
  | .kill => s.part.kl
  | .error => s.part.eq
  | .fault d => (s.die d).fq
  | .service d => (s.die d).sq
  | .plog d => (s.die d).pl

def State.setRing (s : State) (r : RingId) (x : Ring) : State :=
  match r with
  | .kill => s.setPart { s.part with kl := x }
  | .error => s.setPart { s.part with eq := x }
  | .fault d => s.setDie d { s.die d with fq := x }
  | .service d => s.setDie d { s.die d with sq := x }
  | .plog d => s.setDie d { s.die d with pl := x }

/-- The interrupt of a ring whose CTL.IE asks for one. -/
def ringIrq : RingId → Option Irq
  | .error => some .error
  | .fault d => some (.fault d)
  | .service d => some (.service d)
  | _ => none

/-- A ring with its pending records that fit, written (R174), and their interrupt. -/
def State.putRing (s : State) (r : RingId) (x : Ring) : State :=
  let (x, m, irq) := x.drain s.mem x.pending
  let s := (s.setMem m).setRing r x
  match ringIrq r with
  | some i => s.raiseIf irq i
  | none => s

/-- Does the partition hold the ring: is it the partition's own, or of a die with one of its slices (R306)? -/
def State.hasRing (s : State) (r : RingId) : Bool :=
  match r with
  | .kill | .error => true
  | .fault d | .service d | .plog d => s.desc.slmap.any (fun x => sliceDie x == d)

/-- RING_BASE_WRITE (R308): bits 63:6; ignored while the ring is not empty. DEDUCED: assumption 71. -/
def execRingBaseWrite (r : RingId) (value : DWord) (s : State) : Host.Outcome State Fault Refusal :=
  let x := s.ring r
  if x.head ≠ x.tail ∨ s.hasRing r = false then .next s
  else .next (s.setRing r { x with base := value &&& ~~~(0x3F#64) })

/-- RING_CTL_WRITE (R308): LOG2N and IE; ignored while the ring is not empty, and for a LOG2N outside 2–20. -/
def execRingCtlWrite (r : RingId) (value : DWord) (s : State) : Host.Outcome State Fault Refusal :=
  let x := s.ring r
  let n := (value.extractLsb' 0 5).toNat
  if x.head ≠ x.tail ∨ n < 2 ∨ 20 < n ∨ s.hasRing r = false then .next s
  else .next (s.putRing r { x with log2n := n, ie := value.getLsbD 7 })

/-- RING_HEAD_WRITE (R308): bits 31:0; freed slots take pending records. -/
def execRingHeadWrite (r : RingId) (value : DWord) (s : State) : Host.Outcome State Fault Refusal :=
  if s.hasRing r then .next (s.putRing r { s.ring r with head := lo32 value }) else .next s

/-! ### Queues (R250, R251) -/

/-- The bits of QCTL that are not reserved. -/
def qctlMask : DWord := 0xFFFFFFFF3FF00007#64

/-- SHARE summed over the enabled queues of a unit but one (R251). -/
def State.shareOf (s : State) (n : Nat) : Nat :=
  ((s.slice (n / 64)).queues.map (fun q => if q.1 == n % 64 || !q.2.en then 0 else q.2.share)).foldl (· + ·) 0

/-- May a queue be enabled with the value of QCTL (R250)? -/
def Queue.mayEnable (q : Queue) (v : Queue) : Bool :=
  decide (2 ≤ q.log2n) && decide (q.log2n ≤ 26)
    && (!v.bound || (satpMode q.satp != 0 && (q.satp.extractLsb' 44 16).toNat == v.asid
      && (v.vmid == 0 || (satpMode q.hgatp != 0 && (q.hgatp.extractLsb' 44 14).toNat == v.vmid))))

/-- A queue disabled by system software (R251): its on-chip entries go ahead of the ring's, if the ring has room for all of
them. -/
def State.disableQueue (s : State) (n : Nat) : State :=
  let q := s.queue n
  if !q.en || decide (2 ^ q.log2n < q.inRing + q.chip.length) then s else s.disableByPart n q.chip.length

/-- QCTL_WRITE (R250, R251). -/
def execQctlWrite (qnum : Nat) (value : DWord) (s : State) : Host.Outcome State Fault Refusal :=
  let q := s.queue qnum
  let v := { q with ctl := value &&& qctlMask }
  if 64 * s.nsl ≤ qnum ∨ v.share < 4 ∨ 512 < v.share then .next s
  else if v.en then
    if !q.mayEnable v || decide (512 < s.shareOf qnum + v.share) then .next s
    else .next (((s.setQueue qnum v).refillChip qnum 512).settleQueue qnum)
  else if q.en then
    let s' := s.disableQueue qnum
    if (s'.queue qnum).en then .next s else .next (s'.setQueue qnum { s'.queue qnum with ctl := v.ctl })
  else .next (s.setQueue qnum v)

/-- QUEUE_DISABLE (R251): EN is cleared, and the rest of QCTL stays. -/
def execQueueDisable (qnum : Nat) (s : State) : Host.Outcome State Fault Refusal := .next (s.disableQueue qnum)

/-- A queue whose ring's size or indices were written holds in its ring the entries between QHEAD and QTAIL, at most its size.
DEDUCED: assumption 69. -/
def Queue.counted (q : Queue) : Queue := { q with inRing := min (2 ^ q.log2n) ((q.tail + 2 ^ 32 - q.head) % 2 ^ 32) }

/-- Another register of a queue written (R250): ignored while the queue is enabled. DESIGN CHOICE: assumption 117. -/
def State.writeQueueReg (s : State) (n off : Nat) (v : DWord) : State :=
  let q := s.queue n
  if q.en then s else
  match off with
  | 0x08 =>
    let l := (v.extractLsb' 0 5).toNat
    if l < 2 ∨ 26 < l then s else s.setQueue n (Queue.counted { q with ring := v &&& ~~~(0xE0#64) })
  | 0x10 => s.setQueue n (Queue.counted { q with head := (lo32 v).toNat })
  | 0x18 => s.setQueue n (Queue.counted { q with tail := (lo32 v).toNat })
  | 0x28 => s.setQueue n { q with bind := v &&& ~~~(0x3F#64) }
  | 0x30 => s.setQueue n { q with satp := v }
  | 0x38 => s.setQueue n { q with hgatp := v }
  | _ => s

/-! ### The heap and the counters (R307, R309) -/

/-- HEAP_WRITE (R263, R307). A value that is no multiple of 64 KiB is ignored. DEDUCED: assumption 62. -/
def execHeapWrite (size : Bool) (value : DWord) (s : State) : Host.Outcome State Fault Refusal :=
  let p := s.part
  let p' := if size then { p with heapSize := value.toNat } else { p with heapBase := value.toNat }
  let idle := s.slices.all (fun x => x.2.launches.isEmpty) && s.teams.all (fun t => decide (t.2.state = .retired))
  if (p.heapSize ≠ 0 ∧ idle = false) ∨ value.toNat % 0x10000 ≠ 0 ∨ s.memEnd < p'.heapBase + p'.heapSize then .next s
  else .next (s.setPart p')

/-- CECOUNT_CLEAR (R309). -/
def execCecountClear (slice unit : Nat) (s : State) : Host.Outcome State Fault Refusal :=
  let x := s.slice slice
  .next (s.setSlice slice { x with ceCount := Tab.set x.ceCount unit 0 })

/-! ### Leaving on request (R311, R329) -/

/-- The context with a CTXID that has not retired. -/
def State.findCtx (s : State) (ctxid : DWord) : Option Nat :=
  (List.find? (fun (t : Nat × Team) => t.2.ctxid == ctxid && decide (t.2.state ≠ .retired)) s.teams).map Prod.fst

/-- Has a team of a list a call outstanding (R299)? -/
def State.anyCall (s : State) (ks : List Nat) : Bool := ks.any (fun k => (s.team k).call.isSome)

/-- The teams of a league that live. -/
def State.liveLeague (s : State) (k : Nat) : List Nat :=
  (s.league k).filter (fun j => decide ((s.team j).state = .away) || (s.team j).isResident)

/-- The teams of a list are off their cores: their images are driven clean (R69, R311, R329). -/
def State.park (s : State) (ks : List Nat) (f : Team → Team) : State :=
  ks.foldl (fun s k => (if (s.team k).clean then s else s.driveClean k).updTeam k f) s

/-- A HOLD moved on (R311): it waits for outstanding calls and for the league to leave; DRESP's STATUS is 1 until it is
done. -/
def State.tryHold (s : State) (k : Nat) : State :=
  let ks := s.liveLeague k
  if s.anyCall ks then s.setPart { s.part with dresp := 1 } else
  let s := if ks.any (fun j => (s.team j).isResident && (s.team j).leaving.isNone) then s.askLeave k .hold else s
  if ks.any (fun j => (s.team j).isResident) then s.setPart { s.part with dresp := 1 }
  else (s.park ks (fun t => { t with onHold := true })).setPart { s.part with dresp := 0 }

/-- DREQ, as written, on the context that DARG names; a write while STATUS is 1 is ignored (R311).
DEDUCED: assumption 68. -/
def State.dreqOn (s : State) (op : Nat) (f : State → Nat → State) : State :=
  if s.part.dresp = 1 then s else
  let s := s.setPart { s.part with dreq := BitVec.ofNat 64 op, dreqCtx := s.part.darg }
  match s.findCtx s.part.darg with
  | none => s.setPart { s.part with dresp := 2 }
  | some k => f s k

/-- The guest of a VDEV asks for a context to leave its core: it is switching contexts (R329). DEDUCED: assumption 92. -/
def State.switchFrom (s : State) (k : Nat) : State :=
  match vdevOf (s.team k).vmid with
  | some v => if (s.leagueResident k).isEmpty then s else s.setVdev v { s.vdev v with outgoing := true }
  | none => s

/-- DREQ_PREEMPT (R278, R311). -/
def execDreqPreempt (s : State) : Host.Outcome State Fault Refusal :=
  .next (s.dreqOn 1 (fun s k =>
    let s := (s.switchFrom k).askLeave k .preempt
    s.setPart { s.part with dresp := if (s.leagueResident k).isEmpty then 0 else 1 }))

/-- The kill record of a request (R297), whose PC, INFO0, INFO1 and TID the spec does not give: 0. DESIGN CHOICE: assumption 108. -/
def requestKill : KillInfo :=
  { cause := 0, kind := 3, pc := 0, info0 := 0, info1 := 0, tid := 0, held := 0, other := 0, barWord := 0, pend := 0 }

/-- DREQ_KILL (R296, R311). -/
def execDreqKill (s : State) : Host.Outcome State Fault Refusal :=
  .next (s.dreqOn 2 (fun s k =>
    let s := s.kill k (some requestKill)
    s.setPart { s.part with dresp := 0 }))

/-- DREQ_HOLD (R311): refused for a context already held. -/
def execDreqHold (s : State) : Host.Outcome State Fault Refusal :=
  .next (s.dreqOn 3 (fun s k => if (s.team k).onHold then s.setPart { s.part with dresp := 3 } else s.tryHold k))

/-- DREQ_RELEASE (R311): refused for a context not held. -/
def execDreqRelease (s : State) : Host.Outcome State Fault Refusal :=
  .next (s.dreqOn 4 (fun s k =>
    if !(s.team k).onHold then s.setPart { s.part with dresp := 3 } else
    let s := (s.liveLeague k).foldl (fun s j => s.updTeam j (fun t => { t with onHold := false, bindable := true })) s
    s.setPart { s.part with dresp := 0 }))

/-- A pending request moved on: a PREEMPT is done when its league has left (R311). DEDUCED: assumption 68. -/
def State.moveDreq (s : State) : State :=
  if s.part.dresp ≠ 1 then s else
  match s.findCtx s.part.dreqCtx with
  | none => s.setPart { s.part with dresp := 0 }
  | some k =>
    if s.part.dreq = 3 then s.tryHold k
    else if (s.leagueResident k).isEmpty then s.setPart { s.part with dresp := 0 } else s

/-! ### VFREEZE (R329) -/

/-- The teams of a virtual function that live. -/
def State.vdevTeams (s : State) (v : Nat) : List Nat :=
  (s.teams.filter (fun t => t.2.vmid == v + 1 && (decide (t.2.state = .away) || t.2.isResident))).map Prod.fst

/-- The records of a virtual function that wait to be accepted: its guest is switching contexts (R329). -/
def State.switching (s : State) (v : Nat) : List (Nat × Nat × List Byte) := s.waitingRecords (fun l => l.any (fun x => x.vmid == v + 1))

/-- The queues of a virtual function, disabled by the part (R251, R328). DEDUCED: assumption 92. -/
def State.disableQueues (s : State) (v : Nat) : State :=
  (s.slices.flatMap (fun x => (x.2.queues.filter (fun q => q.2.vmid == v + 1 && q.2.en)).map (fun q => 64 * x.1 + q.1))).foldl
    (fun s n => s.disableByPart n (s.queue n).chip.length) s

/-- A freeze moved on: it waits for a switch to commit, for outstanding calls and for the teams to leave; RESULT is 2 until it
is complete. -/
def State.moveFreeze (s : State) (v : Nat) : State :=
  let x := s.vdev v
  if !x.freeze || x.result != 2 then s else
  let ks := s.vdevTeams v
  if x.outgoing || !(s.switching v).isEmpty then
    s.setVdev v { x with deadline := some (x.deadline.getD (s.part.wall + 20000 * Config.unitsPerNs)) }
  else if s.anyCall ks then s else
  let s := (ks.filter (fun k => (s.team k).isResident && (s.team k).leaving.isNone)).foldl (fun s k =>
    if (s.team k).isResident && (s.team k).leaving.isNone then s.askLeave k .freeze else s) s
  if ks.any (fun k => (s.team k).isResident) then s else
  let s := (s.park ks (fun t => { t with vfrozen := true })).disableQueues v
  s.setVdev v { s.vdev v with result := if (s.vdev v).rolled then 1 else 0, deadline := none, rolled := false }

/-- VFREEZE_FREEZE (R329). -/
def execVfreezeFreeze (vf : Nat) (s : State) : Host.Outcome State Fault Refusal :=
  if (s.vdev vf).freeze ∨ 64 ≤ vf then .next s
  else .next ((s.setVdev vf { s.vdev vf with freeze := true, result := 2, deadline := none, rolled := false }).moveFreeze vf)

/-- VFREEZE_THAW (R329). -/
def execVfreezeThaw (vf : Nat) (s : State) : Host.Outcome State Fault Refusal :=
  if (s.vdev vf).freeze then
    let s := s.setVdev vf { s.vdev vf with freeze := false, result := 0, deadline := none, rolled := false }
    .next ((s.vdevTeams vf).foldl (fun s k => s.updTeam k (fun t => { t with vfrozen := false, bindable := true })) s)
  else .next s

/-- A record withdrawn from its slot: a new league's memory goes back and the league is bound anew later. -/
def State.withdraw (s : State) (e : Nat × Nat × List Byte) : State :=
  let (c, sl, r) := e
  let s := s.freeSlot c sl
  if !natBit (fieldAt r 0x1A 1) 0 then s else
  let i := fieldAt r 0x1C 2 / 64
  let l := fieldAt r 0x1C 2 % 64
  match s.launch? i l with
  | none => s
  | some x =>
    let s := if x.reserved.isSome then s
      else (s.heapReturn (fieldAt r 8 8)).heapReturn (if fieldAt r 0x18 2 = 0 then fieldAt r 8 8 else fieldAt r 0x10 8)
    if fieldAt r 0x58 1 % 4 = 0 then s.setLaunch i l { x with withdrawn := setIns x.withdrawn (fieldAt r 0x54 4) } else s

/-- The guest's switch request reports failure (R329): DREQ's PREEMPT is refused. DEDUCED: assumption 92. -/
def State.failSwitch (s : State) (v : Nat) : State :=
  let mine := match s.findCtx s.part.dreqCtx with
    | some k => (s.team k).vmid == v + 1
    | none => false
  if (s.vdev v).outgoing && s.part.dreq == 1 && mine then s.setPart { s.part with dresp := 3 } else s

/-- FREEZE_ROLLBACK (R329): a switch that has not committed within 20 µs is rolled back: its records are withdrawn, the
outgoing teams are bindable, the guest's request fails, and the freeze goes on. -/
def execFreezeRollback (vf : Nat) (s : State) : Host.Outcome State Fault Refusal :=
  let x := s.vdev vf
  match x.deadline with
  | none => .next s
  | some d =>
    if x.result != 2 then .next s else
    let s := s.setPart { s.part with wall := max s.part.wall d }
    let s := ((s.switching vf).foldl State.withdraw s).failSwitch vf
    let s := (s.vdevTeams vf).foldl (fun s k => s.updTeam k (fun t => { t with bindable := true })) s
    .next ((s.setVdev vf { x with deadline := none, rolled := true, outgoing := false }).moveFreeze vf)

/-! ### Invalidations (R172) -/

/-- Is the hart in a virtualised mode? -/
def Priv.virt : Priv → Bool
  | .vs | .vu => true
  | _ => false

/-- The VMID of a hart: its guest's, else 0 (R258, R459). -/
def Hart.vmid (h : Hart) : Nat := if h.priv.virt then (h.hgatp.extractLsb' 44 14).toNat else 0

/-- Every access that has been translated and is on its way performed at its home (R172). -/
def State.drainAll (s : State) : State := s.cores.keys.foldl (fun s c => s.drainCore c) s

/-- SFENCE_VMA (R172): the entries of the hart's own spaces, its guest's in a virtualised mode, after the accesses that were
translated through them. DEDUCED: assumption 66. -/
def execSfenceVma (x : FenceOf) (va : Option DWord) (s : State) : Host.Outcome State Fault Refusal :=
  .next (s.drainAll.invalidate (fun t => t.selected (some (s.hart x.hart).vmid) x.asid va))

/-- HFENCE (R172): two-stage entries, after the accesses that were translated through them. DEDUCED: assumption 66. -/
def execHfence (vmid asid : Option Nat) (va : Option DWord) (s : State) : Host.Outcome State Fault Refusal :=
  .next (s.drainAll.invalidate (fun t => t.vmid != 0 && t.selected vmid asid va))

/-! ### The clock (R342 to R345) -/

/-- The code whose voltage a die's rail has when the modelled partition's is at a code: the highest among the partitions on the
die (R342). -/
def State.railFor (s : State) (d f : Nat) : Nat :=
  ((s.castle.descs.filter (fun e => e.1 != s.pid && e.2.state != 0 && e.2.slmap.any (fun x => sliceDie x == d))).map
    (fun e => Tab.get 0 s.castle.codes e.1)).foldl max f

/-- The rails of the partition's dies with the modelled partition's at a code (R342). -/
def State.setRails (s : State) (f : Nat) : State :=
  { s with dies := s.dies.mapVal (fun n (d : Die) => { d with rail := s.railFor n f }) }

/-- Some die's rail does not support a code (R342). -/
def State.railLow (s : State) (f : Nat) : Bool := s.dies.any (fun d => decide (d.2.rail < f))

/-- The clock changed at a cc boundary: every core and the partition have counted the cycles of the old clock (R8, R18, R343). -/
def State.changeClock (s : State) (f : Nat) : State :=
  let u := Config.unitsPerCc s.part.fcode
  let n := s.part.ccs + (s.part.wall - s.part.ccAt + u - 1) / u
  let s := s.setPart { s.part with wall := max s.part.wall (s.wallOf n) }
  let s := s.cores.keys.foldl (fun s c => s.syncCore c) s
  s.setPart { s.part with ccs := n, ccAt := s.part.wall, fcode := f }

/-- PWRREQ (R344): a request for a code outside 0–5 is ignored; the first check that fails denies it. A granted one
raises the rails first when it raises the code (R342). -/
def execPwrreq (value : DWord) (s : State) : Host.Outcome State Fault Refusal :=
  let f := (value.extractLsb' 0 3).toNat
  let p := s.part
  if 5 < f then .next s else
  let p := { p with pwrReq := BitVec.ofNat 64 f }
  let floor := ((upto 0 6).find? (fun n => p.mask.getLsbD n)).getD 6
  if f < floor then .next (s.setPart { p with pwrResult := 1 })
  else if !p.mask.getLsbD f then .next (s.setPart { p with pwrResult := 5 })
  else if p.budget.toNat < Config.projectedPower f then .next (s.setPart { p with pwrResult := 2 })
  else .next ((s.setPart { p with pwrResult := 3, pwrPending := some f }).setRails (max p.fcode f))

/-- FCODE_STEP (R342, R344): the rails have settled, the clock takes the pending code, and a lower code lowers the rails
after it. -/
def execFcodeStep (s : State) : Host.Outcome State Fault Refusal :=
  match s.part.pwrPending with
  | none => .next s
  | some f =>
    if s.railLow f then .next s else
    let s := s.changeClock f
    .next ((s.setPart { s.part with pwrResult := 0, pwrPending := none }).setRails f)

/-- The cycle of a core up to which a sample at a wall time counts: the last that has elapsed for the core by then, or, while the pass
that its port serves waits, the last in which it does. DEDUCED: assumption 67. -/
def State.sampleTo (s : State) (c b : Nat) : Nat :=
  let k := s.core c
  let u := Config.unitsPerCc s.part.fcode
  let n := if b < k.wall then k.cc - (k.wall - b + u - 1) / u else k.cc + (b - k.wall) / u
  max k.sampled (match k.served with
    | some p => min n (max k.cc (k.goesOn p - 1))
    | none => n)

/-- The cycles of a core's clock that a sample at a wall time counts: those in which it issued an instruction, and those in which a
runnable pass waited (R345). DEDUCED: assumption 67. -/
def State.issuedTo (s : State) (c b : Nat) : List Nat :=
  let k := s.core c
  k.issued.filter (fun n => decide (k.sampled < n) && decide (n ≤ s.sampleTo c b))
def State.stalledTo (s : State) (c b : Nat) : List Nat :=
  let k := s.core c
  let now := if k.served.isSome then [(k.cc + 1, s.sampleTo c b - k.cc)] else []
  ((now ++ k.stalled).flatMap (fun r => upto r.1 r.2)).filter (fun n => decide (k.sampled < n) && decide (n ≤ s.sampleTo c b))

/-- The cycles in which a cluster issued an instruction, and those in which it issued none while a runnable pass waited (R345). -/
def State.issueCycles (s : State) (cl b : Nat) : List Nat :=
  dedupSorted (sortNat ((clusterCores cl).flatMap (fun c => s.issuedTo c b)))
def State.stallCycles (s : State) (cl b : Nat) : List Nat :=
  let i := s.issueCycles cl b
  (dedupSorted (sortNat ((clusterCores cl).flatMap (fun c => s.stalledTo c b)))).filter (fun n => !i.contains n)

/-- A cluster's stall ratio at a sample (R345): 0 where nothing was counted. DEDUCED: assumption 67. -/
def State.stallRatio (s : State) (cl b : Nat) : Nat :=
  let i := (s.issueCycles cl b).length
  let w := (s.stallCycles cl b).length
  if i + w == 0 then 0 else min 255 (256 * w / (i + w))

/-- The firmware's sampling period, 10 µs (R345). -/
def samplePeriod : Nat := 10000 * Config.unitsPerNs

/-- POWER_SAMPLE (R345): the stall ratio of the cluster with the highest over a sampling period, its counts cleared, and a step down
when the sampled power is above the budget. DEDUCED: assumption 67. -/
def execPowerSample (power : Nat) (s : State) : Host.Outcome State Fault Refusal :=
  let b := s.part.sampleAt + samplePeriod
  let s := s.setPart { s.part with wall := max s.part.wall b }
  let p := { s.part with
    stall := (s.clusters.map (fun c => s.stallRatio c.1 b)).foldl max 0, samples := s.part.samples + 1, sampleAt := b }
  let s := { s with
    cores := s.cores.mapVal (fun c (k : Core) =>
      let n := s.sampleTo c b
      { k with issued := k.issued.filter (n < ·), stalled := k.stalled.filter (fun r => n < r.1 + r.2), sampled := n })
    part := p }
  match ((upto 0 p.fcode).filter (fun n => p.mask.getLsbD n)).getLast? with
  | some f =>
    if p.budget.toNat < power then
      let s := s.changeClock f
      .next ((s.setPart { s.part with pwrResult := 4 }).setRails (max f (s.part.pwrPending.getD 0)))
    else .next s
  | none => .next s

/-- CLUSTER_START (R341): the next cluster begins running, a microsecond after the one before it.
DEDUCED: assumption 70. -/
def execClusterStart (s : State) : Host.Outcome State Fault Refusal :=
  match (s.clusters.filter (fun c => !c.2.started)).head? with
  | none => .next s
  | some (n, x) =>
    .next ((s.setCluster n { x with started := true }).setPart { s.part with wall := s.part.wall + 1000 * Config.unitsPerNs })

/-! ### Registers with no behaviour of their own (R306, R307, R308 to R310) -/

/-- A write of a partition register that only holds its value (R307). -/
def State.writePartReg (s : State) (off : Nat) (v : DWord) : State :=
  let p := s.part
  match off with
  | 0x020 => s.setPart { p with capVa := v &&& ~~~(0xFFFF#64) }
  | 0x028 => if 10 ≤ v.toNat ∧ v.toNat ≤ 10000 then s.setPart { p with benchUs := v.toNat } else s
  | 0x050 => s.setPart { p with darg := v }
  | 0x068 => s.setPart { p with carg := v }
  | _ => s

/-- CONTROL_REGISTER_WRITE (R306): a write at an offset of the space; the offsets whose writes have a behaviour of their own
are the other steps'. -/
def execControlRegisterWrite (offset : Nat) (value : DWord) (s : State) : Host.Outcome State Fault Refusal :=
  if offset % 8 ≠ 0 then .next s
  else if offset < 0x1000 then .next (s.writePartReg offset value)
  else if 0x100000 ≤ offset ∧ offset < 0x108000 then
    let d := (offset - 0x100000) / 0x1000
    if offset % 0x1000 = 0xA0 ∧ s.hasRing (.plog d) = true then
      .next (s.setDie d { s.die d with plogMask := value.extractLsb' 0 16 })
    else .next s
  else if 0x200000 ≤ offset ∧ offset < 0x220000 then
    let i := (offset - 0x200000) / 0x2000
    let o := offset % 0x2000
    if s.nsl ≤ i then .next s
    else if o < 0x1000 then .next (s.writeQueueReg (64 * i + o / 64) (o % 64) value)
    else if o % 16 = 8 ∧ (o - 0x1000) / 16 < 34 then
      let x := s.slice i
      .next (s.setSlice i { x with ceThresh := Tab.set x.ceThresh ((o - 0x1000) / 16) (lo32 value) })
    else .next s
  else if 0x300000 ≤ offset ∧ offset < 0x304000 then
    let v := (offset - 0x300000) / 0x100
    match offset % 0x100 with
    | 0x00 => .next (s.setVdev v { s.vdev v with scopePol := value.extractLsb' 0 2 })
    | 0x08 => .next (s.setVdev v { s.vdev v with dirty := value &&& ~~~(0xFFE#64) })
    | _ => .next s
  else .next s

end Sys2Proof.Machine
end

