-- ==== Sys2Proof/Machine/Castle.lean ====
section
/-! DEFINITION. Castle (R22, R303 to R305, R312, R314 to R316, R320, R323, R325, R326, R330 to R341, R347, R348): power-up,
partitions, resizing, manifests, worlds, the measured action table, heartbeats and scrubs, key slots and evidence. -/

namespace Sys2Proof.Machine

/-! ### The capability list (R347, R348) -/

/-- An entry of the list: its ID, version 1, its length and its contents, filled to 8 bytes. -/
def capEntry (id : Nat) (body : List Byte) : List Byte :=
  let len := (body.length + 15) / 8
  toBytes 2 id ++ toBytes 1 1 ++ toBytes 1 len ++ toBytes 4 0 ++ body ++ toBytes (8 * len - 8 - body.length) 0

/-- Where Castle places the list: the last 64 KiB of the first slice's memory. DESIGN CHOICE: assumption 43. -/
def State.capBase (s : State) : Nat := s.sliceBytes - 0x10000

/-- What a slice lacks of a full one (R346), as a number: 0 for nothing. -/
def SliceUnits.lack (u : SliceUnits) : Nat := (15 - u.clusters.toNat) + (if u.channels == 16 then 0 else 16) + 32 * (15 - u.harts.toNat)

/-- What the partition's slices lack, by slice index. -/
def State.lacks (s : State) : List Nat := s.desc.slmap.map (fun x => (s.castle.unitsOf x).lack)

/-- CAPVER (R325, R348): 1 for a partition of full slices, else a number of its own for each list of working units that Castle has
reported. DESIGN CHOICE: assumption 43. -/
def State.capVer (s : State) : Nat :=
  if s.lacks.all (· == 0) then 1
  else 2 + (s.castle.versions.findIdx? (fun l => l == s.lacks)).getD s.castle.versions.length

/-- A host port (R20, R334). Castle's boot leaves it in PCIe mode. DESIGN CHOICE: assumption 93. -/
def Castle.hostPort (c : Castle) (p : Nat) : HostPort := Tab.get { cxl := false, hdm := [] } c.hostPorts p

/-- Key slots of a host port that are free (R337). -/
def Castle.freeKeys (c : Castle) (port : Nat) : Nat := 64 - (c.keys.filter (fun k => k.1 / 64 == port)).length

/-- The partition's capability list. R23 and R346 have a part with fewer die-link lanes report them in it, and R348 gives no entry for
them: the model has and reports none. DESIGN CHOICE: assumption 43. -/
def State.capList (s : State) : List Byte :=
  let d := s.desc
  capEntry 1 (toBytes 4 s.part.capGen ++ toBytes 4 s.capVer)
    ++ capEntry 2 ([d.pid, d.x0, d.y0, d.width, d.height, s.nsl, d.tenant, d.world].flatMap (toBytes 1))
    ++ d.slmap.zipIdx.flatMap (fun e => 
        let u := s.castle.unitsOf e.1
        capEntry 3 ([e.2, e.1, u.clusters.toNat, u.channels, u.harts.toNat].flatMap (toBytes 1)))
    ++ capEntry 4 (toBytes 1 s.part.mask.toNat ++ toBytes 2 s.part.budget.toNat)
    ++ capEntry 5 ((upto 0 4).flatMap (fun p => 
        toBytes 1 ((if (s.castle.hostPort p).cxl then 1 else 0) + 2 * (s.castle.freeKeys p % 128))))
    ++ capEntry 6 ([Config.tileEntries, 16, 64, 512].flatMap (toBytes 2))
    ++ capEntry 0 []

/-- The list rewritten, with a new GEN (R348, R349). DESIGN CHOICE: assumption 43. -/
def State.writeCaps (s : State) : State :=
  let c := s.castle
  let s := if s.lacks.all (· == 0) || c.versions.contains s.lacks then s
    else s.setCastle { c with versions := c.versions ++ [s.lacks] }
  let s := s.setPart { s.part with capGen := s.part.capGen + 1 }
  s.setMem (s.mem.write s.capBase s.capList)

/-! ### Slices and partitions (R303 to R305) -/

/-- The working units of a slice that a partition takes as its slice index i (R14, R16, R304, R346). A die's rail is raised for a
pending request as the other dies' are (R342). -/
def State.addUnits (s : State) (x i : Nat) : State :=
  let d := sliceDie x
  let u := s.castle.unitsOf x
  let cls := (upto 0 4).filter (fun j => u.clusters.getLsbD j)
  { s with
    cores := (cls.flatMap (fun j => upto (4 * (4 * x + j)) 4)).foldl (fun t c => t.set c { Core.empty with wall := s.part.wall }) s.cores
    clusters := cls.foldl (fun t j => t.set (4 * x + j) Cluster.empty) s.clusters
    dies := if (s.dies.find? d).isSome then s.dies else s.dies.set d { Die.empty with rail := s.railFor d (max s.part.fcode (s.part.pwrPending.getD 0)) }
    slices := s.slices.set i { Slice.empty with number := x }
    harts := ((upto 0 4).filter (fun j => u.harts.getLsbD j)).foldl (fun t j => t.set (4 * i + j) Hart.empty) s.harts }

/-- The units of the partition's slice index i taken away. -/
def State.dropUnits (s : State) (x i : Nat) : State :=
  { s with
    turn := .part
    cores := (upto (16 * x) 16).foldl Tab.erase s.cores
    clusters := (upto (4 * x) 4).foldl Tab.erase s.clusters
    slices := s.slices.erase i
    harts := (upto (4 * i) 4).foldl Tab.erase s.harts }

/-- What measurements 4 to 6 cover now (R336). -/
def State.takeEvidence (s : State) : State :=
  let dies := dedupSorted (sortNat (s.desc.slmap.map sliceDie))
  let e : Evidence := { desc := s.desc, latches := dies.map (fun d => Tab.get 0 s.castle.worlds d), caps := s.capList }
  s.setCastle { s.castle with evidence := some e }

/-- The code at which a partition's clock starts: the highest that its mask allows. DESIGN CHOICE: assumption 19. -/
def firstCode (mask : BitVec 6) : Nat := (((upto 0 6).filter (fun n => mask.getLsbD n)).getLast?).getD 5

/-- The partition modelled in full starts afresh from its descriptor (R305, R340, R341): what Castle set at creation stays. -/
def State.startPartition (s : State) : State :=
  let p := s.part
  let s := { s with
    turn := .part, mem := Memory.empty, cores := [], clusters := [], dies := [], slices := [], vdevs := [], harts := [], teams := []
    part := { Part.empty with
      hbPeriod := p.hbPeriod, budget := p.budget, mask := p.mask, scopePol := p.scopePol, capGen := p.capGen
      fcode := firstCode p.mask } }
  (s.desc.slmap.zipIdx.foldl (fun s e => s.addUnits e.1 e.2) s).writeCaps.takeEvidence

/-- The slices of a rectangle in row-major order (R304). -/
def rectSlices (d : PDesc) : List Nat :=
  (upto d.y0 d.height).flatMap (fun y => (upto d.x0 d.width).map (fun x => 4 * y + x))

/-- Do slices form a rectangle: as many as their bounding box has? -/
def boundingBox (l : List Nat) : Nat × Nat × Nat × Nat :=
  let xs := l.map (· % 4)
  let ys := l.map (· / 4)
  let x0 := (minBy id xs).getD 0
  let y0 := (minBy id ys).getD 0
  (x0, y0, xs.foldl max 0 + 1 - x0, ys.foldl max 0 + 1 - y0)

def isRectangle (l : List Nat) : Bool :=
  let (_, _, w, h) := boundingBox l
  l.length == w * h

/-- The slices of partitions in STATE 1 or 2. -/
def Castle.taken (c : Castle) : List Nat :=
  c.descs.flatMap (fun d => if d.2.state == 1 || d.2.state == 2 then d.2.slmap else [])

/-- The slices of any partition. -/
def Castle.owned (c : Castle) : List Nat := c.descs.flatMap (fun d => if d.2.state == 0 then [] else d.2.slmap)

/-- The two slices of a die (R14). -/
def dieSlices (d : Nat) : List Nat := [4 * (d / 2) + 2 * (d % 2), 4 * (d / 2) + 2 * (d % 2) + 1]

/-- A die latched to a world while neither of its slices belongs to a partition in STATE 1 or 2 (R330). -/
def Castle.latch (c : Castle) (world : Nat) (d : Nat) : Castle :=
  if world == 0 || (dieSlices d).any c.taken.contains then c
  else { c with worlds := Tab.set c.worlds d (BitVec.ofNat 8 world) }

/-- May a partition of the slices run (R330)? A confidential one only on whole dies that are latched to its tag, and one of the
shared world only on dies of one latch, across whose links its packets pass (R331). DESIGN CHOICE: assumption 111. -/
def Castle.mayRun (c : Castle) (world : Nat) (l : List Nat) : Bool :=
  let latch := fun (x : Nat) => Tab.get 0 c.worlds (sliceDie x)
  isRectangle l && (if world == 0 then l.all (fun x => latch x == latch (l.headD 0))
    else l.all (fun x => (dieSlices (sliceDie x)).all l.contains && latch x == BitVec.ofNat 8 world))

/-- The rectangle of a partition (R303). -/
def PartDesc.rect (d : PartDesc) : Rect := { x0 := d.x0, y0 := d.y0, width := d.width, height := d.height }

/-- Does a rectangle of slices hold a slice (R303)? -/
def Rect.holds (r : Rect) (x : Nat) : Bool :=
  decide (r.x0 ≤ x % 4) && decide (x % 4 < r.x0 + r.width) && decide (r.y0 ≤ x / 4) && decide (x / 4 < r.y0 + r.height)

/-- Castle programs the firewalls, the interleave and the interrupt routes of a partition's slices, and nothing of a slice
that it has left (R22, R305, R315). -/
def Castle.program (c : Castle) (d : PartDesc) : Castle :=
  let old := (c.routes.filter (fun r => r.2.pid == d.pid)).map Prod.fst
  let fw := old.foldl (fun t x => (sliceRouters x).foldl Tab.erase t) c.firewalls
  let n := d.slmap.length
  { c with
    firewalls := d.slmap.foldl (fun t x => (sliceRouters x).foldl (fun t r => Tab.set t r d.rect) t) fw
    routes := d.slmap.zipIdx.foldl (fun t e => Tab.set t e.1 { index := e.2, nsl := n, channels := (c.unitsOf e.1).channels, pid := d.pid })
      (old.foldl Tab.erase c.routes) }

/-- Does the first router that sees a packet admit it (R314): do its source and destination routers lie in the partition's
rectangle? -/
def Castle.admits (c : Castle) (at_ src dst : Nat) : Bool :=
  match c.firewalls.find? at_ with
  | some r => r.holds (routerSlice src) && r.holds (routerSlice dst)
  | none => false

/-- Have slices one channel count (R346)? -/
def Castle.sameChannels (c : Castle) (l : List Nat) : Bool :=
  l.all (fun x => (c.unitsOf x).channels == (c.unitsOf (l.headD 0)).channels)

/-- PARTITION_CREATE (R303 to R305, R330, R338, R346): Castle forms a partition of free slices; the first is the one that is
modelled in full. Under LOCKDOWN Castle forms none (R333). DESIGN CHOICE: assumption 2. -/
def execPartitionCreate (d : PDesc) (s : State) : Host.Outcome State Fault Refusal :=
  let c := s.castle
  let l := rectSlices d
  let free := match c.descs.find? d.pid with
    | some x => x.state == 0
    | none => true
  if c.lockdown || !free || decide (16 ≤ d.pid) || d.width == 0 || d.height == 0 || decide (4 < d.x0 + d.width)
      || decide (4 < d.y0 + d.height) || l.any c.owned.contains || decide (256 ≤ d.tenant) || decide (256 ≤ d.world)
      || !c.sameChannels l || decide (d.hbPeriod < 100) || decide (60000 < d.hbPeriod) || decide (65536 ≤ d.budget) then .next s
  else
    let c := (dedupSorted (sortNat (l.map sliceDie))).foldl (fun c x => c.latch d.world x) c
    let x : PartDesc :=
      { pid := d.pid, x0 := d.x0, y0 := d.y0, width := d.width, height := d.height, slmap := l, tenant := d.tenant,
        world := d.world, state := if c.mayRun d.world l then 1 else 2 }
    let first := s.desc.state == 0
    let c := { c with descs := c.descs.set d.pid x, functions := setIns c.functions d.pid, codes := Tab.set c.codes d.pid (firstCode d.mask) }
    let s := s.setCastle (c.program x)
    if first then
      .next ({ s with
        pid := d.pid, part := { s.part with scopePol := d.scopePol, hbPeriod := d.hbPeriod, budget := BitVec.ofNat 16 d.budget, mask := d.mask } }.startPartition)
    else .next (s.setRails (max s.part.fcode (s.part.pwrPending.getD 0)))

/-- POWER_UP (R341): module power-up or a cold reset. What is defective stays so (R346), and Castle keeps CAPVER's numbers.
DESIGN CHOICE: assumption 43. -/
def execPowerUp (s : State) : Host.Outcome State Fault Refusal :=
  .next { State.reset with
    sched := s.sched, fresh := s.fresh, castle := { Castle.empty with units := s.castle.units, versions := s.castle.versions } }

/-! ### Freezing and scrubbing (R339, R340) -/

/-- Every league asked to leave its cores. DEDUCED: assumption 72. -/
def State.leaveAll (s : State) (why : Leaving) : State :=
  (s.teams.map Prod.fst).foldl (fun s k =>
    if (s.team k).isResident && (s.team k).leaving.isNone then s.askLeave k why else s) s

/-- The partition is frozen at a wall time (R339). DEDUCED: assumption 72. -/
def State.freezeAt (s : State) (t : Nat) : State :=
  if s.part.frozen.isSome then s else (s.setPart { s.part with frozen := some t }).leaveAll .preempt

/-- The partition is frozen now. -/
def State.freezePart (s : State) : State := s.freezeAt s.part.wall

/-- Milliseconds and seconds in wall-time units. -/
def msUnits : Nat := 1000000 * Config.unitsPerNs

/-- The wall time by which a heartbeat is due (R338), and the end of a freeze's grace period (R339, R340). -/
def Part.beatDue (p : Part) : Nat := p.hbLast + p.hbPeriod * msUnits
def graceEnd (frozen : Nat) : Nat := frozen + 5000 * msUnits

/-- The key slots of a function's partition erased (R337, R340). -/
def Castle.eraseKeys (c : Castle) (pf : Nat) : Castle := { c with keys := c.keys.filter (fun k => k.2.1 != pf) }

/-- A partition scrubbed and started afresh (R330, R340): while it is scrubbed its STATE is 3; the latches of the dies both of
whose slices are scrubbed return to 0, and it starts from its descriptor, which latches them to its world. -/
def State.scrubPart (s : State) (pid : Nat) : State :=
  let c := s.castle.eraseKeys pid
  match c.descs.find? pid with
  | none => s.setCastle c
  | some d =>
    let c := { c with
      descs := c.descs.set pid { d with state := 3 }
      worlds := c.worlds.filter (fun w => !(dieSlices w.1).all d.slmap.contains) }
    let c := (dedupSorted (sortNat (d.slmap.map sliceDie))).foldl (fun c x => c.latch d.world x) c
    let c := { c with descs := c.descs.set pid { d with state := if c.mayRun d.world d.slmap then 1 else 2 } }
    let s := s.setCastle c
    if pid = s.pid then s.startPartition else s

/-- A partition whose period has passed without a heartbeat has been frozen at its end (R339). DEDUCED: assumption 72. -/
def State.overdue (s : State) : State :=
  if s.desc.state ≠ 0 ∧ s.part.beatDue < s.part.wall then s.freezeAt s.part.beatDue else s

/-- HBEAT (R307, R339, R340): a heartbeat, if it is in time; within 5 s of a freeze it thaws the partition, later it is ignored. -/
def execHbeat (_value : DWord) (s : State) : Host.Outcome State Fault Refusal :=
  let s := s.overdue
  let p := s.part
  let beat := { p with hbeat := p.hbeat + 1, hbLast := p.wall }
  match p.frozen with
  | none => .next (s.setPart beat)
  | some t =>
    if graceEnd t < p.wall then .next s
    else
      let s := s.setPart { beat with frozen := none }
      .next { s with teams := s.teams.mapVal (fun _ (t : Team) =>
        if t.state = .away then { t with bindable := true } else t) }

/-- HEARTBEAT_MISSED (R339): a period passes without a write. -/
def execHeartbeatMissed (s : State) : Host.Outcome State Fault Refusal :=
  if s.part.frozen.isSome ∨ s.desc.state = 0 then .next s else
  let due := s.part.beatDue
  .next ((s.setPart { s.part with wall := max s.part.wall (due + 1) }).freezeAt due)

/-- SCRUB (R340): the grace period of a frozen partition expires. -/
def execScrub (s : State) : Host.Outcome State Fault Refusal :=
  match s.part.frozen with
  | none => .next s
  | some t =>
    .next ((s.setPart { s.part with wall := max s.part.wall (graceEnd t + 1) }).scrubPart s.pid)

/-! ### The measured action table (R332, R333) -/

/-- The action of an event. -/
def Castle.action (c : Castle) (e : SecEvent) : Action :=
  ((c.actions.find? (fun a => decide (a.1 = e))).map Prod.snd).getD .log

/-- A partition frozen and scrubbed at once (R333). -/
def State.killPart (s : State) (pid : Nat) : State :=
  (if pid = s.pid then s.freezePart else s).scrubPart pid

/-- The partition of a request's source. -/
def State.sourcePart (s : State) (src : ReqSrc) : Nat :=
  match src with
  | .context _ => s.pid
  | .host p => p

/-- A security event: its record, and its action; LOCKDOWN supersedes what follows it (R333). -/
def State.security (s : State) (e : SecEvent) (src : ReqSrc) : State :=
  let a := s.castle.action e
  let s := s.setCastle { s.castle with log := s.castle.log ++ [{ event := e, action := a, src := src }] }
  if s.castle.lockdown then s else
  match a with
  | .log => s
  | .killContext => match src with
    | .context id => match s.findCtx id with
      | some k => s.kill k (some requestKill)
      | none => s
    | .host p => s.killPart p
  | .killPartition => s.killPart (s.sourcePart src)
  | .lockdown =>
    let s := (s.castle.descs.map Prod.fst).foldl (fun s p => s.killPart p) s
    s.setCastle { s.castle with lockdown := true, keys := [] }

/-- FIREWALL_VIOLATION (R314): the packet is discarded. DEDUCED: assumption 80. -/
def execFirewallViolation (src : ReqSrc) (s : State) : Host.Outcome State Fault Refusal := .next (s.security .firewall src)

/-- A packet refused at a die: it is dropped, counted, and raises the event (R331). -/
def State.dropPacket (s : State) (die : Nat) (src : ReqSrc) : State :=
  let c := s.castle
  (s.setCastle { c with linkDrops := Tab.set c.linkDrops die (Tab.get 0 c.linkDrops die + 1) }).security .dieLink src

/-- DIE_LINK (R331): a packet crosses a die link with the world of its source die; packets to or from Castle are not refused.
DEDUCED: assumption 80. -/
def execDieLink (x : DieCross) (src : ReqSrc) (s : State) : Host.Outcome State Fault Refusal :=
  if x.castle || !s.castle.refuses x.die x.source then .next s else .next (s.dropPacket x.die src)

/-- IDE_FAIL (R332). DEDUCED: assumption 80. -/
def execIdeFail (src : ReqSrc) (s : State) : Host.Outcome State Fault Refusal := .next (s.security .ideFail src)

/-- DEBUG (R332, R335): only after the lock. DEDUCED: assumption 80. -/
def execDebugAccess (src : ReqSrc) (s : State) : Host.Outcome State Fault Refusal :=
  if s.castle.locked then .next (s.security .debug src) else .next s

/-- SLICE_PORT_AUTH_FAIL (R320): the frame is dropped and counted. -/
def execSlicePortAuthFail (slice : Nat) (s : State) : Host.Outcome State Fault Refusal :=
  let x := s.slice slice
  .next (s.setSlice slice { x with portDrops := x.portDrops + 1 })

/-- SLICE_RESET (R323): the slice's teams are killed, its channel group reads poisoned, and a record is written.
DEDUCED: assumption 65. -/
def execSliceReset (slice : Nat) (s : State) : Host.Outcome State Fault Refusal :=
  if s.nsl ≤ slice then .next s else
  let x := (s.slice slice).number
  let on := (s.teams.filter (fun t => t.2.isResident && (match t.2.onCore with
    | some c => coreSlice c == x
    | none => false))).map Prod.fst
  let s := on.foldl (fun s k => s.kill k (some requestKill)) s
  let n := s.nsl
  let s := s.setMem { s.mem with
    lost := s.mem.lost ++ [{ channels := s.channels, nsl := n, slice := slice, top := s.memEnd }]
    fixed := s.mem.fixed.filter (fun w => (homeOf s.channels n (4 * w)).1 != slice) }
  .next (s.errorRecord 0 slice 2 0)

/-! ### Requests of Castle (R312, R315, R316, R325, R326) -/

/-- CRESP's STATUS and REASON. -/
def State.creqDone (s : State) (status reason : Nat) : State := s.setPart { s.part with cresp := status, creason := reason }

/-- A request of Castle: ignored while one is pending, and unanswered under LOCKDOWN (R312, R333). -/
def State.creqOn (s : State) (op : Nat) (f : State → State) : State :=
  if s.part.cresp = 1 ∨ s.castle.lockdown = true then s
  else f (s.setPart { s.part with creq := BitVec.ofNat 64 op })

/-- CREQ_RELEASE_TOP (R312, R316). -/
def execCreqReleaseTop (s : State) : Host.Outcome State Fault Refusal :=
  .next (s.creqOn 1 (fun s => (s.setPart { s.part with released := true }).creqDone 0 0))

/-- Does a fault wait on a completion addition or a dependence read? Those of parked threads and suspended commands do not count
(R315). -/
def Waiter.busy : Waiter → Bool
  | .addition _ | .depend _ _ => true
  | _ => false

/-- Does the partition wait on nothing but parked threads, suspended commands and launches (R315)?
DEDUCED: assumption 63. -/
def State.idleForStep (s : State) : Bool :=
  s.dies.all (fun d => d.2.calls.isEmpty && d.2.callWait.isEmpty && !d.2.noEntry.any Waiter.busy
      && d.2.faults.all (fun f => !f.2.waiters.any Waiter.busy))
    && s.teams.all (fun t => t.2.onCore.isNone)

/-- Every register line of the partition written to its image, and every L1 written back and invalidated (R315). -/
def State.flushCores (s : State) : State :=
  (s.cores.map Prod.fst).foldl (fun s c =>
    let s := s.drainCore c
    let s := (s.core c).lines.foldl (fun (s : State) (l : RegLine) =>
      if l.dirty || (s.team l.team).lineBad l.q l.n then s.writeLine l.team l.q l.n else s) s
    s.updCore c (fun k => { k with lines := [], l1 := [] })) s

/-- The shape after a step, and STATE: what a partition at a rectangular shape measures follows (R315, R330, R336). -/
def State.reshape (s : State) (l : List Nat) : State :=
  let (x0, y0, w, h) := boundingBox l
  let d := { s.desc with x0 := x0, y0 := y0, width := w, height := h, slmap := l }
  let d := { d with state := if s.castle.mayRun d.world l then 1 else 2 }
  let c := { s.castle with descs := s.castle.descs.set s.pid d }
  let s := (s.setCastle (c.program d)).writeCaps
  if d.state == 1 then s.takeEvidence else s

/-- The partition held for a step: its teams leave, and the records that no core has accepted are withdrawn (R315).
DEDUCED: assumption 63. -/
def State.holdForStep (s : State) : State :=
  let s := s.setCastle { s.castle with descs := s.castle.descs.set s.pid { s.desc with state := 2 } }
  ((s.waitingRecords (fun _ => true)).foldl State.withdraw s).leaveAll .preempt

/-- A partition held for a step that is refused: STATE is what its shape allows (R315, R316, R330). -/
def State.unhold (s : State) : State :=
  let d := s.desc
  s.setCastle { s.castle with descs := s.castle.descs.set s.pid { d with state := if s.castle.mayRun d.world d.slmap then 1 else 2 } }

/-- The answer of a step goes to CRESP unless management asked for it (R312). -/
def State.stepDone (s : State) (mgmt : Bool) (status reason : Nat) : State := if mgmt then s else s.creqDone status reason

/-- The slice that a step names (R312). -/
def ResizeStep.slice (r : ResizeStep) : Nat := (r.arg.extractLsb' 0 4).toNat

/-- The REASON for which Castle refuses a step, 0 for none (R312, R316, R346). -/
def State.stepRefusal (s : State) (r : ResizeStep) : Nat :=
  let x := r.slice
  let i := s.nsl - 1
  if r.remove then
    let online := (upto 0 4).any (fun j => (s.castle.unitsOf x).harts.getLsbD j && !(s.hart (4 * i + j)).offline)
    if s.nsl ≤ 1 ∨ s.desc.slmap.getLast? ≠ some x ∨ online = true ∨ (s.slice i).queues.any (fun q => q.2.en) = true
      ∨ s.part.released = false then 1 else 0
  else
    let outside := match s.castle.target with
      | some b => !b.holds x
      | none => false
    if s.castle.owned.contains x || outside then 1
    else if !s.castle.sameChannels (s.desc.slmap ++ [x]) then 3 else 0

/-- Is the partition idle for a step (R315)? The slice that goes has no launch left. DEDUCED: assumption 63. -/
def State.stepReady (s : State) (r : ResizeStep) : Bool :=
  s.idleForStep && (!r.remove || (s.slice (s.nsl - 1)).launches.isEmpty)

/-- Cells and marks of memory at and above an address dropped. -/
def Memory.cutAt (m : Memory) (a : Nat) : Memory :=
  { m with
    cells := m.cells.filter (fun c => decide (c.1 < a)), bad := m.bad.filter (fun w => decide (4 * w < a))
    zclr := m.zclr.filter (fun g => decide (256 * g < a)), zline := m.zline.filter (fun l => decide (128 * l < a))
    fixed := m.fixed.filter (fun w => decide (4 * w < a)), lost := m.lost.map (fun e => { e with top := min e.top a }) }

/-- A step made (R315, R316): a slice takes index n, with memory that reads zero, or the one with index n − 1 goes with the top of the
memory. What an address holds stays with it as its home changes; what RELEASE_TOP released is no longer the top. -/
def State.makeStep (s : State) (r : ResizeStep) : State :=
  let x := r.slice
  let s := s.flushCores
  let s := s.setPart { s.part with released := false }
  let s :=
    if r.remove then
      let i := s.nsl - 1
      let l := s.desc.slmap.dropLast
      let s := (s.dropUnits x i).setMem (s.mem.cutAt (i * s.sliceBytes))
      let s := { s with dies := s.dies.filter (fun d => l.any (fun y => sliceDie y == d.1)) }
      s.reshape l
    else
      let l := s.desc.slmap ++ [x]
      let s := s.setCastle (s.castle.latch s.desc.world (sliceDie x))
      ((s.setMem (s.mem.cutAt s.memEnd)).addUnits x s.nsl).reshape l
  s.stepDone r.mgmt 0 0

/-- A step begun: refused, made, or under way until the partition is idle (R315, R316). DEDUCED: assumption 63. -/
def State.beginStep (s : State) (r : ResizeStep) : State :=
  if s.stepRefusal r ≠ 0 then s.stepDone r.mgmt 2 (s.stepRefusal r) else
  let s := s.holdForStep
  if s.stepReady r then s.makeStep r
  else (s.setPart { s.part with steps := [r] }).stepDone r.mgmt 1 0

/-- A step asked for (R312): Castle performs steps one at a time. DEDUCED: assumption 63. -/
def State.askStep (s : State) (r : ResizeStep) : State :=
  if s.part.steps.isEmpty then s.beginStep r
  else (s.setPart { s.part with steps := s.part.steps ++ [r] }).stepDone r.mgmt 1 0

/-- The step under way made when the partition is idle, unless what Castle refuses has come about meanwhile, and the next begun
(R315, R316). DEDUCED: assumption 63. -/
def State.moveStep (s : State) : State :=
  match s.part.steps with
  | [] => s
  | r :: rest =>
    if !s.stepReady r then s else
    let n := s.stepRefusal r
    let s := s.setPart { s.part with steps := [] }
    rest.foldl State.askStep (if n = 0 then s.makeStep r else s.unhold.stepDone r.mgmt 2 n)

/-- CREQ RESIZE or management's request (R312): the operating system's is ignored while one of its own is pending. -/
def State.resize (s : State) (r : ResizeStep) : State :=
  if s.castle.lockdown || s.desc.state == 0 || (!r.mgmt && s.part.cresp == 1) then s
  else if r.mgmt then s.askStep r
  else (s.setPart { s.part with creq := 2 }).askStep r

/-- CREQ_RESIZE_ADD (R315, R316): a free slice takes index n. DEDUCED: assumption 63. -/
def execCreqResizeAdd (arg : DWord) (mgmt : Bool) (s : State) : Host.Outcome State Fault Refusal :=
  .next (s.resize { remove := false, arg := arg, mgmt := mgmt })

/-- CREQ_RESIZE_REMOVE (R315, R316): the slice with index n − 1 goes, with the top of the memory.
DEDUCED: assumption 63. -/
def execCreqResizeRemove (arg : DWord) (mgmt : Bool) (s : State) : Host.Outcome State Fault Refusal :=
  .next (s.resize { remove := true, arg := arg, mgmt := mgmt })

/-- n bytes that the manual does not give (R325, R336). DESIGN CHOICE: assumption 33. -/
def State.takeBytes (s : State) (n : Nat) : List Byte × State :=
  let (f, s) := s.takeFresh
  ((upto 0 n).map (fun i => ((Config.freeBytes f)[i]?).getD 0), s)

/-- Shards of a manifest at an address (R325). -/
def Memory.shards (m : Memory) (a : Nat) : Nat := m.readNat (a + 4) 4

/-- The partition key's signature over bytes (R325): 64 bytes. DESIGN CHOICE: assumption 33. -/
def signatureOf (bs : List Byte) : List Byte := (upto 0 64).map (fun i => ((Config.signature bs)[i]?).getD 0)

/-- Does Castle accept a manifest's signature, its last 64 bytes (R325, R326)? Its own it does. DESIGN CHOICE: assumption 33. -/
def signed (bs : List Byte) : Bool :=
  bs.drop (bs.length - 64) == signatureOf (bs.take (bs.length - 64)) || Config.signatureOk bs

/-- Does a manifest lie in partition memory (R312)? -/
def State.manifestIn (s : State) (a : Nat) : Bool :=
  decide (a + 64 ≤ s.memEnd) && decide (a + 128 + 80 * s.mem.shards a ≤ s.memEnd)

/-- CREQ_SIGN (R312, R325): what is signed is read (R153), and the signature over it is written after the last shard record.
DESIGN CHOICE: assumption 33. -/
def execCreqSign (s : State) : Host.Outcome State Fault Refusal :=
  .next (s.creqOn 3 (fun s =>
    let a := s.part.carg.toNat
    if !s.manifestIn a then s.creqDone 2 4 else
    let n := 64 + 80 * s.mem.shards a
    let s := s.readHome a n
    (s.setMem (s.mem.write (a + n) (signatureOf (s.mem.read a n)))).creqDone 0 0))

/-- A shard record's range and digest. -/
def Memory.shard (m : Memory) (a j : Nat) : Nat × Nat × List Byte :=
  let r := a + 64 + 80 * j
  (m.readNat r 8, m.readNat (r + 8) 8, m.read (r + 16) 64)

/-! ### Contexts that come from another partition (R324 to R326) -/

/-- Is a shard a context image: of an image's length and alignment, with R24's shape and CLEAN in its header (R63, R64, R324)?
DESIGN CHOICE: assumption 64. -/
def Memory.isImage (m : Memory) (e : Nat × Nat) : Bool :=
  e.2 == imageBytes && e.1 % 0x10000 == 0 && [16, 32, 64].contains (m.readNat (e.1 + 0x15) 1)
    && decide (1 ≤ m.readNat (e.1 + 0x16) 2) && decide (m.readNat (e.1 + 0x16) 2 ≤ 2048) && m.readNat (e.1 + 0x42) 1 % 2 == 1

/-- The tile save area of an image whose shard another follows: that shard, where it can be one (R158, R273), its address and its
units. DESIGN CHOICE: assumption 64. -/
def Memory.saveShard (m : Memory) (r : List (Nat × Nat)) : Nat × Nat :=
  match r with
  | e :: _ => if !m.isImage e && e.1 % 4096 == 0 && e.2 % 4096 == 0 && decide (e.2 ≤ 4096 * 448) then (e.1, e.2 / 4096) else (0, 0)
  | [] => (0, 0)

/-- The team whose clean image stands at an address, off its core, with what the image says of it (R64 to R69, R159, R302). What it
does not say is filled in with the team's launch. DESIGN CHOICE: assumption 64. -/
def Memory.teamOf (m : Memory) (img : Nat) (ts : Nat × Nat) : Team :=
  let hd := m.read img 0x43
  let t := Team.ofHeader { Team.empty with
    state := .away, ctxid := BitVec.ofNat 64 (fieldAt hd 0 8), teamId := BitVec.ofNat 32 (fieldAt hd 8 4)
    gridTeams := BitVec.ofNat 32 (fieldAt hd 0xC 4), leagueId := BitVec.ofNat 32 (fieldAt hd 0x10 4)
    leaguePos := fieldAt hd 0x14 1 % 4, w := fieldAt hd 0x15 1, t := fieldAt hd 0x16 2, wbase := fieldAt hd 0x1B 1 % 64
    wlen := fieldAt hd 0x1C 1 % 128, accA := accOf (fieldAt hd 0x40 1), accB := accOf (fieldAt hd 0x41 1)
    imgBase := img, tsBase := ts.1, tsUnits := ts.2, clean := true, bindable := true } hd
  let t := { t with threads := (upto 0 t.slotCount).map (fun j => (j, Thread.empty.ofRecord 0 (m.read (t.threadAddr j) 40))) }
  let susp := (upto 0 32).filterMap (fun i => Susp.ofRecord [] (m.read (t.suspAddr i) 128))
  { t with
    susp := susp, seq := susp.foldl (fun n r => max n (r.seq + 1)) 0
    threads := t.threads.mapVal (fun j x =>
      if t.isPawn j && decide (x.loc = .exited) && !t.quadGone j then { x with loc := .dormant } else x)
    h := (upto 0 32).filterMap (fun n => (Handle.ofRecord (m.read (t.handleAddr n) 32) 0 [] []).map (fun h => (n, h))) }

/-- The teams of the image shards of a manifest, in its order. -/
def Memory.teamsIn (m : Memory) : List (Nat × Nat) → List Team
  | [] => []
  | e :: r => if m.isImage e then m.teamOf e.1 (m.saveShard r) :: m.teamsIn r else m.teamsIn r

/-- A free launch-table entry of the partition: the slice and the index. -/
def State.freeLaunchEntry (s : State) : Option (Nat × Nat) :=
  (upto 0 s.nsl).findSome? (fun i => let l := (s.slice i).launches.freeKey 0; if l < 64 then some (i, l) else none)

/-- POOL as the teams' images say it, with boundaries that are free values where R260 allows them. DESIGN CHOICE: assumption 64. -/
def restoredPool (t : Team) (free : DWord) : DWord :=
  let base := BitVec.ofNat 64 (t.wbase + 2 ^ 7 * t.wlen + 2 ^ 32 * t.tsUnits)
  let req := fun (reg scr : Nat) => base ||| BitVec.ofNat 64 (2 ^ 14 * reg + 2 ^ 19 * scr)
  (([req (natBits free.toNat 0 5) (natBits free.toNat 5 5), req 0 0].find? poolOk)).getD (req 1 27)

/-- The launch of a restored league (R259): its images give the shape; its address space, priority, kind and addresses, which
neither they nor the manifest hold, are free values. DESIGN CHOICE: assumption 64. -/
def restoredLaunch (ts : List Team) (t : Team) (f : Nat) : Launch :=
  let v := fun (n : Nat) => Config.freeDWord (f + n)
  let size := ts.foldl (fun m t => max m (t.leaguePos + 1)) 1
  let geom := t.gridTeams.toNat + 2 ^ 32 * (t.t - 1) + 2 ^ 43 * (t.w / 32) + 2 ^ 45 * (size - 1) + 2 ^ 47 * natBits (v 4).toNat 0 3
    + 2 ^ 50 * natBits (v 4).toNat 3 1 + 2 ^ 51 * (if t.waitCheck then 1 else 0) + 2 ^ 52 * t.frm.toNat
    + 2 ^ 54 * ((t.accA.toList ++ t.accB.toList).length) + 2 ^ 56 * natBits (v 4).toNat 4 1
  let vmid := natBits (v 4).toNat 16 6
  { a := [v 0, 0, v 1, BitVec.ofNat 64 geom, t.trapVec, restoredPool t (v 5), 0, 0], asid := natBits (v 4).toNat 32 16, vmid := vmid
    satp := v 2, hgatp := if vmid == 0 then 0 else v 3, hartSlice := 0, depMet := true, bound := t.gridTeams.toNat
    retired := t.gridTeams.toNat - ts.length, withdrawn := [], reserved := none, seq := 0, qspawn := none, qbad := [] }

/-- A league from its images: it takes a launch-table entry, and its teams are off their cores and bindable (R326); without a free
entry it is not restored. DESIGN CHOICE: assumption 64. -/
def State.adoptLeague (s : State) (ts : List Team) : State :=
  match ts, s.freeLaunchEntry with
  | t :: _, some (i, l) =>
    let x := { restoredLaunch ts t s.fresh with seq := s.nextSeq, hartSlice := i }
    let s := { (s.setLaunch i l x) with fresh := s.fresh + 6, nextSeq := s.nextSeq + 1 }
    ts.foldl (fun s t => { s.setTeam (s.teams.freeKey 0) { t with
        slice := i, launch := l, grid := x.seq, prio := geomPrio x.geom, sys := geomSys x.geom, codep := geomCodep x.geom
        asid := x.asid, vmid := x.vmid, satp := x.satp, hgatp := x.hgatp, kaddr := argAt x.a 0, cctr := argAt x.a 2
        leagueSize := geomLeague x.geom } with nextCtx := max s.nextCtx (t.ctxid.toNat + 1) }) s
  | _, _ => s

/-- The contexts among a manifest's shards that the partition does not know, league by league (R326); a team that has retired or
been killed is no context any more.
DESIGN CHOICE: assumption 64. -/
def State.adopt (s : State) (sh : List (Nat × Nat)) : State :=
  let new := (s.mem.teamsIn sh).filter (fun t => s.teams.all (fun y => y.2.dead || y.2.ctxid != t.ctxid))
  let league := fun (t : Team) => t.gridTeams.toNat * 2 ^ 32 + t.leagueId.toNat
  (dedupSorted (sortNat (new.map league))).foldl (fun s n => s.adoptLeague (new.filter (fun t => league t == n))) s

/-- CREQ_RESTORE (R312, R326): the signature and every digest are verified, then the shape; the contexts whose images are among
the shards are then bound from them. DESIGN CHOICE: assumptions 33, 64. -/
def execCreqRestore (s : State) : Host.Outcome State Fault Refusal :=
  .next (s.creqOn 4 (fun s =>
    let a := s.part.carg.toNat
    if !s.manifestIn a then s.creqDone 2 4 else
    let n := s.mem.shards a
    let sh := (upto 0 n).map (fun j => s.mem.shard a j)
    if sh.any (fun e => decide (s.memEnd < e.1 + e.2.1)) then s.creqDone 2 4 else
    let s := sh.foldl (fun s e => s.readHome e.1 e.2.1) (s.readHome a (128 + 80 * n))
    if !signed (s.mem.read a (128 + 80 * n)) || s.mem.readNat a 4 != 0x4B435058
        || sh.any (fun e => s.mem.poisoned e.1 e.2.1 || sha512 (s.mem.read e.1 e.2.1) != e.2.2) then s.creqDone 2 2 else
    let d := s.desc
    if s.mem.readNat (a + 8) 4 % 65536 != d.width + 16 * d.height + 256 * s.nsl || s.mem.readNat (a + 12) 4 != s.capVer then
      s.creqDone 2 3
    else
      let s := { s with teams := s.teams.mapVal (fun _ (t : Team) =>
        if decide (t.state = TeamState.away) && sh.any (fun e => decide (e.1 ≤ t.imgBase) && decide (t.imgBase + imageBytes ≤ e.1 + e.2.1)) then
          { t with clean := true, bindable := true, onHold := false }
        else t) }
      (s.adopt (sh.map (fun e => (e.1, e.2.1)))).creqDone 0 0))

/-! ### Key slots and evidence (R336, R337) -/

def State.answer (s : State) (r : Reply) : State := s.setCastle { s.castle with replies := s.castle.replies ++ [r] }

/-- IDE_KEY_PROGRAM (R337): a free slot of the port is taken, or NO_KEY_SLOT. Under LOCKDOWN it is not answered.
DEDUCED: assumption 80. -/
def execIdeKeyProgram (port pf fn stream : Nat) (s : State) : Host.Outcome State Fault Refusal :=
  let c := s.castle
  if c.lockdown ∨ 4 ≤ port then .next s else
  let k := c.keys.freeKey (64 * port)
  if 64 * port + 64 ≤ k then .next (s.answer .noKeySlot)
  else .next ((s.setCastle { c with keys := c.keys.set k (pf, fn, stream) }).answer (.keyOk (k % 64)))

/-- STREAM_STOP (R337). DEDUCED: assumption 80. -/
def execStreamStop (port stream : Nat) (s : State) : Host.Outcome State Fault Refusal :=
  .next (s.setCastle { s.castle with keys := s.castle.keys.filter (fun k => !(k.1 / 64 == port && k.2.2.2 == stream)) })

/-- FUNCTION_RESET (R337). DEDUCED: assumption 80. -/
def execFunctionReset (pf fn : Nat) (s : State) : Host.Outcome State Fault Refusal :=
  .next (s.setCastle { s.castle with keys := s.castle.keys.filter (fun k => !(k.2.1 == pf && k.2.2.1 == fn)) })

/-- GET_VERSION (R336). -/
def execGetVersion (_fn : Nat) (s : State) : Host.Outcome State Fault Refusal := .next (s.answer .version)

/-- GET_CAPABILITIES (R336). -/
def execGetCapabilities (_fn : Nat) (s : State) : Host.Outcome State Fault Refusal := .next (s.answer .capabilities)

/-- NEGOTIATE_ALGORITHMS (R336): Ed25519 and SHA-512. -/
def execNegotiateAlgorithms (_fn : Nat) (s : State) : Host.Outcome State Fault Refusal := .next (s.answer .algorithms)

/-- GET_DIGESTS (R336): of the function's certificate chain. -/
def execGetDigests (fn : Nat) (s : State) : Host.Outcome State Fault Refusal :=
  .next (s.answer (.digests (sha512 (Config.certificate fn))))

/-- GET_CERTIFICATE (R336). -/
def execGetCertificate (fn : Nat) (s : State) : Host.Outcome State Fault Refusal :=
  .next (s.answer (.certificate (Config.certificate fn)))

/-- CHALLENGE (R336): a signature. -/
def execChallenge (_fn : Nat) (s : State) : Host.Outcome State Fault Refusal :=
  let (b, s) := s.takeBytes 64
  .next (s.answer (.challengeAuth b))

/-- The numbers by which the measured action table is measured (R332). DESIGN CHOICE: assumption 33. -/
def SecEvent.code : SecEvent → Nat
  | .firewall => 0
  | .dieLink => 1
  | .ideFail => 2
  | .debug => 3
def Action.code : Action → Nat
  | .log => 0
  | .killContext => 1
  | .killPartition => 2
  | .lockdown => 3

/-- A partition descriptor by its fields' numbers (R303). -/
def PartDesc.numbers (d : PartDesc) : List Nat :=
  [d.pid, d.x0, d.y0, d.width, d.height, d.slmap.length] ++ d.slmap ++ [d.tenant, d.world, d.state]

/-- The queues bound to a VDEV, with their QCTL and QBIND (R336). -/
def State.boundQueues (s : State) (v : Nat) : List Nat :=
  s.slices.flatMap (fun x => (x.2.queues.filter (fun q => q.2.vmid == v + 1)).flatMap (fun q =>
    [64 * x.1 + q.1, q.2.ctl.toNat, q.2.bind.toNat]))

/-- A measurement of a function (R332, R336): of 4 to 6, as they were when STATE was last set to 1. DESIGN CHOICE: assumption 33. -/
def State.measured (s : State) (fn i : Nat) : List Byte :=
  let e := s.castle.evidence
  match i with
  | 3 => sha512 (Config.layout 3 (s.castle.actions.flatMap (fun a => [a.1.code, a.2.code])))
  | 4 => Config.layout 4 ((e.map (fun e => e.desc.numbers)).getD [])
  | 5 => Config.layout 5 ((e.map (fun e => e.latches.map BitVec.toNat)).getD [])
  | 6 => sha512 ((e.map Evidence.caps).getD [])
  | 7 => Config.layout 7 ((s.vdev (fn - 1)).scopePol.toNat :: s.boundQueues (fn - 1))
  | i => Config.layout i []

/-- GET_MEASUREMENTS (R336): blocks 1–6, and 7 for a VDEV's function. -/
def execGetMeasurements (fn : Nat) (s : State) : Host.Outcome State Fault Refusal :=
  let l := if fn == 0 then upto 1 6 else upto 1 7
  .next (s.answer (.measurements (l.map (fun i => { index := i, value := s.measured fn i }))))

/-- KEY_EXCHANGE (R336): a signature. -/
def execKeyExchange (_fn : Nat) (s : State) : Host.Outcome State Fault Refusal :=
  let (b, s) := s.takeBytes 64
  .next (s.answer (.keyExchange b))

end Sys2Proof.Machine
end

