-- ==== Sys2Proof/Machine/HostSide.lean ====
section
/-! DEFINITION. Host harts and the ports (R21, R199, R258, R261, R265, R267, R306, R320, R321, R457 to R459): the translation of a
hart's accesses, the control space as harts reach it, the Xthelor instructions, and frames and requests from outside. -/

namespace Sys2Proof.Machine

/-! ### Translation at a hart (R258) -/

/-- The roots by which a hart translates: satp, or vsatp and hgatp. -/
def Hart.roots (h : Hart) : DWord × DWord := if h.priv.virt then (h.vsatp, h.hgatp) else (h.satp, 0)

/-- The address space of a hart, as a launch records it (R261, R459). -/
def Hart.space (h : Hart) : Space :=
  let r := h.roots
  { asid := (r.1.extractLsb' 44 16).toNat, vmid := h.vmid, satp := r.1,
    hgatp := r.2 }

/-- The hart's translation is Bare (R261). -/
def Hart.bare (h : Hart) : Bool :=
  if h.priv.virt then satpMode h.vsatp == 0 || satpMode h.hgatp == 0 else satpMode h.satp == 0

/-- The exceptions of an access: a page fault, and an access fault. -/
def pageExc (acc : Access) (va : DWord) : HartExc :=
  match acc with
  | .read => .loadPage va
  | .exec => .fetchPage va
  | _ => .storePage va
def faultExc (acc : Access) (va : DWord) : HartExc :=
  match acc with
  | .read => .loadFault va
  | .exec => .fetchFault va
  | _ => .storeFault va

/-- Does a first-stage leaf allow a hart's access? PRESUMED: assumption 17. -/
def Hart.allowed (h : Hart) (l : Leaf) (acc : Access) : Bool :=
  (match h.priv with
    | .u | .vu => l.u
    | _ => !l.u || (h.sum && decide (acc ≠ .exec)))
    && (match acc with
      | .read => l.r
      | .write => l.w
      | .exec => l.x
      | .atom => l.r && l.w)

/-- An access of a hart one of whose packets a die refuses (R331): it is dropped, and the hart takes an access fault, unless the
event's action has reset it (R333). DESIGN CHOICE: assumption 111. -/
def State.hartRefused (s : State) (die : Nat) (e : HartExc) : Except HartExc Nat × State :=
  let stays := s.castle.lockdown || decide (s.castle.action .dieLink = .log)
  (.error (if stays then e else .gone), s.dropPacket die (.host s.pid))

/-- A hart's access whose walk has ended early with memory m. -/
def State.hartFailed (s : State) (va : DWord) (acc : Access) (m : Memory) : StageFail → Except HartExc Nat × State
  | .noLeaf | .second => (.error (pageExc acc va), s.setMem m)
  | .outside => (.error (faultExc acc va), s.setMem m)
  | .refused d => (s.setMem m).hartRefused d (faultExc acc va)

/-- A hart's access at a physical address, where its walk has left memory m and, with its A and D bits, m1: partition memory, unless
a die on the way refuses the packet, or the control space (R199, R306, R331). -/
def State.hartReach (s : State) (n : Nat) (va : DWord) (acc : Access) (pa : Nat) (m m1 : Memory) : Except HartExc Nat × State :=
  if pa < s.memEnd then
    match s.refusedAt (s.dieOf (n / 4)) (s.homeDie pa) with
    | some d => (s.setMem m1).hartRefused d (faultExc acc va)
    | none => (.ok pa, s.setMem m1)
  else if Config.pcBase ≤ pa ∧ pa < Config.pcBase + 0x400000 then (.ok pa, s.setMem m1)
  else (.error (faultExc acc va), s.setMem m)

/-- The physical address of a hart's access, or its exception; A and D are set by a walk that succeeds. DEDUCED: assumptions 27, 35. -/
def State.hartTranslate (s : State) (n : Nat) (va : DWord) (acc : Access) : Except HartExc Nat × State :=
  let h := s.hart n
  if h.priv = .m then s.hartReach n va acc va.toNat s.mem s.mem else
  let reach := s.walkReach (s.dieOf (n / 4))
  let (root, hg) := h.roots
  let off := va.toNat % 4096
  let vpn := va.toNat / 4096 % 2 ^ 45
  let first : StageRes :=
    if satpMode root == 0 then
      .ok ({ ppn := va.toNat / 4096, order := 0, r := true, w := true, x := true, u := decide (h.priv = .u) || decide (h.priv = .vu),
             d := true, pbmt := 0 }, 0, 0, s.mem)
    else if !canonical va then .error (.noLeaf, s.mem)
    else walkFrom (entryAt reach hg) false vpn 5 s.mem (satpRoot root)
  match first with
  | .error (f, m) => s.hartFailed va acc m f
  | .ok (l, a, e, m) =>
    if !h.allowed l acc then (.error (pageExc acc va), s.setMem m) else
    let mark := fun (m : Memory) => if satpMode root == 0 then m else setAD m a e (isWrite acc)
    if satpMode hg == 0 then s.hartReach n va acc (4096 * l.ppn + off) m (mark m) else
    match stageTwo reach hg m (4096 * l.ppn + off) acc with
    | .error (f, m) => s.hartFailed va acc m f
    | .ok (g, b, f, m) => s.hartReach n va acc (4096 * g.ppn + off) m (mark (setAD m b f (isWrite acc)))

/-- A hart's exception: its instruction has no other effect. DEDUCED: assumption 35. -/
def State.hartExc (s : State) (n : Nat) (e : HartExc) : State :=
  match e with
  | .gone => s
  | e => s.setHart n { s.hart n with exc := some e }

/-- A hart's instruction completes with a result in rd. -/
def State.hartDone (s : State) (n rd : Nat) (v : DWord) : State :=
  let h := s.hart n
  s.setHart n { h with exc := none, pc := h.pc + 4, x := if rd == 0 then h.x else Tab.set h.x rd v }

/-- x[n] of a hart. -/
def Hart.get (h : Hart) (n : Nat) : DWord := if n == 0 then 0 else Tab.get 0 h.x n

/-! ### The control space as harts reach it (R306) -/

/-- What a step leaves. -/
def stateOf (o : Host.Outcome State Fault Refusal) (s : State) : State :=
  match o with
  | .next t => t
  | _ => s

/-- A ring's registers by offset (R308). -/
def Ring.reg (r : Ring) (off : Nat) : DWord :=
  match off with
  | 0x00 => r.base
  | 0x08 => BitVec.ofNat 64 (r.log2n + if r.ie then 128 else 0)
  | 0x10 => r.head.zeroExtend 64
  | 0x18 => r.tail.zeroExtend 64
  | _ => 0

/-- A partition register read (R307). -/
def State.readPartReg (s : State) (off : Nat) : DWord :=
  let p := s.part
  match off with
  | 0x000 => p.hbeat
  | 0x008 => BitVec.ofNat 64 p.hbPeriod
  | 0x010 => p.pwrReq
  | 0x018 => BitVec.ofNat 64 (p.budget.toNat * 65536 + p.stall * 256 + p.pwrResult * 32 + p.fcode)
  | 0x020 => p.capVa
  | 0x028 => BitVec.ofNat 64 p.benchUs
  | 0x030 => p.scopePol.zeroExtend 64
  | 0x038 => BitVec.ofNat 64 p.heapBase
  | 0x040 => BitVec.ofNat 64 p.heapSize
  | 0x048 => p.dreq
  | 0x050 => p.darg
  | 0x058 => BitVec.ofNat 64 p.dresp
  | 0x060 => p.creq
  | 0x068 => p.carg
  | 0x070 => BitVec.ofNat 64 (p.cresp + 256 * p.creason)
  | 0x0A0 => p.kl.ovf.zeroExtend 64
  | _ =>
    if 0x080 ≤ off ∧ off < 0x0A0 then p.kl.reg (off - 0x080)
    else if 0x0C0 ≤ off ∧ off < 0x0E0 then p.eq.reg (off - 0x0C0)
    else 0

/-- A die register read (R308). -/
def State.readDieReg (s : State) (d off : Nat) : DWord :=
  let x := s.die d
  if off < 0x20 then x.fq.reg off
  else if 0x40 ≤ off ∧ off < 0x60 then x.sq.reg (off - 0x40)
  else if 0x80 ≤ off ∧ off < 0xA0 then x.pl.reg (off - 0x80)
  else if off = 0xA0 then x.plogMask.zeroExtend 64
  else if off = 0xA8 then x.pl.ovf.zeroExtend 64
  else 0

/-- A queue register read (R250). -/
def Queue.reg (q : Queue) (off : Nat) : DWord :=
  match off with
  | 0x00 => q.ctl
  | 0x08 => q.ring
  | 0x10 => BitVec.ofNat 64 q.head
  | 0x18 => BitVec.ofNat 64 q.tail
  | 0x20 => BitVec.ofNat 64 (q.chip.length + 65536 * q.inRing)
  | 0x28 => q.bind
  | 0x30 => q.satp
  | 0x38 => q.hgatp
  | _ => 0

/-- An aligned 8-byte load of the control space: what the partition does not hold reads zero (R306). -/
def State.controlRead (s : State) (off : Nat) : DWord :=
  if off < 0x1000 then s.readPartReg off
  else if 0x100000 ≤ off ∧ off < 0x108000 then
    let d := (off - 0x100000) / 0x1000
    if s.hasRing (.fault d) then s.readDieReg d (off % 0x1000) else 0
  else if 0x200000 ≤ off ∧ off < 0x220000 then
    let i := (off - 0x200000) / 0x2000
    let o := off % 0x2000
    if s.nsl ≤ i then 0
    else if o < 0x1000 then (s.queue (64 * i + o / 64)).reg (o % 64)
    else if (o - 0x1000) / 16 < 34 then
      (if o % 16 = 0 then (Tab.get 0 (s.slice i).ceCount ((o - 0x1000) / 16)).zeroExtend 64
       else (Tab.get 0 (s.slice i).ceThresh ((o - 0x1000) / 16)).zeroExtend 64)
    else 0
  else if 0x300000 ≤ off ∧ off < 0x304000 then
    let x := s.vdev ((off - 0x300000) / 0x100)
    match off % 0x100 with
    | 0x00 => x.scopePol.zeroExtend 64
    | 0x08 => x.dirty
    | 0x10 => BitVec.ofNat 64 ((if x.freeze then 1 else 0) + 4 * x.result)
    | _ => 0
  else 0

/-- CREQ written (R312): other operations are ignored; a RESIZE whose CARG has other bits is refused. -/
def State.writeCreq (s : State) (v : DWord) : State :=
  let a := s.part.carg
  match (v.extractLsb' 0 8).toNat with
  | 1 => stateOf (execCreqReleaseTop s) s
  | 2 =>
    if a &&& ~~~(0x10F#64) ≠ 0 then s.creqOn 2 (fun s => s.creqDone 2 3)
    else if a.getLsbD 8 then stateOf (execCreqResizeRemove a false s) s
    else stateOf (execCreqResizeAdd a false s) s
  | 3 => stateOf (execCreqSign s) s
  | 4 => stateOf (execCreqRestore s) s
  | _ => s

/-- DREQ written (R311). -/
def State.writeDreq (s : State) (v : DWord) : State :=
  match (v.extractLsb' 0 8).toNat with
  | 1 => stateOf (execDreqPreempt s) s
  | 2 => stateOf (execDreqKill s) s
  | 3 => stateOf (execDreqHold s) s
  | 4 => stateOf (execDreqRelease s) s
  | _ => s

/-- A ring's register written (R308). -/
def State.writeRing (s : State) (r : RingId) (off : Nat) (v : DWord) : State :=
  match off with
  | 0x00 => stateOf (execRingBaseWrite r v s) s
  | 0x08 => stateOf (execRingCtlWrite r v s) s
  | 0x10 => stateOf (execRingHeadWrite r v s) s
  | _ => s

/-- A partition register written (R307). -/
def State.writePart (s : State) (off : Nat) (v : DWord) : State :=
  match off with
  | 0x000 => stateOf (execHbeat v s) s
  | 0x010 => stateOf (execPwrreq v s) s
  | 0x038 => stateOf (execHeapWrite false v s) s
  | 0x040 => stateOf (execHeapWrite true v s) s
  | 0x048 => s.writeDreq v
  | 0x060 => s.writeCreq v
  | _ =>
    if 0x080 ≤ off ∧ off < 0x0A0 then s.writeRing .kill (off - 0x080) v
    else if 0x0C0 ≤ off ∧ off < 0x0E0 then s.writeRing .error (off - 0x0C0) v
    else s.writePartReg off v

/-- A die register written (R175, R299, R308). -/
def State.writeDie (s : State) (d off : Nat) (v : DWord) : State :=
  if !s.hasRing (.fault d) then s
  else if off < 0x20 then s.writeRing (.fault d) off v
  else if off = 0x20 then
    match (v.extractLsb' 16 2).toNat with
    | 0 => stateOf (execFqdoneRetry d (v.extractLsb' 0 9).toNat s) s
    | 1 => stateOf (execFqdoneDeliver d (v.extractLsb' 0 9).toNat s) s
    | _ => s
  else if 0x40 ≤ off ∧ off < 0x60 then s.writeRing (.service d) (off - 0x40) v
  else if off = 0x60 then stateOf (execScdone d v s) s
  else if 0x80 ≤ off ∧ off < 0xA0 then s.writeRing (.plog d) (off - 0x80) v
  else stateOf (execControlRegisterWrite (0x100000 + 0x1000 * d + off) v s) s

/-- An aligned 8-byte store to the control space (R306). -/
def State.controlWrite (s : State) (off : Nat) (v : DWord) : State :=
  let plain := stateOf (execControlRegisterWrite off v s) s
  if off < 0x1000 then s.writePart off v
  else if 0x100000 ≤ off ∧ off < 0x108000 then s.writeDie ((off - 0x100000) / 0x1000) (off % 0x1000) v
  else if 0x200000 ≤ off ∧ off < 0x220000 then
    let i := (off - 0x200000) / 0x2000
    let o := off % 0x2000
    if s.nsl ≤ i then s
    else if o < 0x1000 ∧ o % 64 = 0 then stateOf (execQctlWrite (64 * i + o / 64) v s) s
    else if 0x1000 ≤ o ∧ o % 16 = 0 ∧ (o - 0x1000) / 16 < 34 then stateOf (execCecountClear i ((o - 0x1000) / 16) s) s
    else plain
  else if 0x300000 ≤ off ∧ off < 0x304000 ∧ off % 0x100 = 0x10 then
    let vf := (off - 0x300000) / 0x100
    if v.getLsbD 0 then stateOf (execVfreezeFreeze vf s) s else stateOf (execVfreezeThaw vf s) s
  else plain

/-! ### Accesses of harts (R199, R265, R321) -/

/-- The counter read at the end of a wait, in memory or in the control space (R265, R306, R321). -/
def State.jwaitEnd (s : State) (h : Nat) (j : JWait) : State :=
  if Config.pcBase ≤ j.pa then
    (s.setHart h { s.hart h with jwait := none }).hartDone h j.rd (s.controlRead (j.pa - Config.pcBase))
  else s.jwaitRead h j

/-- The XLJWAITs on a line of the control space that a register write reaches end (R265). -/
def State.wakeControl (s : State) (off : Nat) : State :=
  s.harts.foldl (fun s hx => match hx.2.jwait with
    | some j => if Config.pcBase ≤ j.pa ∧ (j.pa - Config.pcBase) / 128 = off / 128 then s.jwaitEnd hx.1 j else s
    | none => s) s

/-- Bytes read by a hart at a physical address: none where a word is poisoned, which the error queue records (R321). -/
def State.hartRead (s : State) (pa n : Nat) : Option (List Byte) × State :=
  if Config.pcBase ≤ pa then
    (some (if n = 8 ∧ pa % 8 = 0 then toBytes 8 (s.controlRead (pa - Config.pcBase)).toNat else toBytes n 0), s)
  else match s.mem.poisonAt pa n with
    | some w => (none, s.errorRecord w (s.channelUnit w) 0 0)
    | none => (some (s.mem.read pa n), s.readHome pa n)

/-- Bytes written by a hart at a physical address. DEDUCED: assumption 41. -/
def State.hartWrite (s : State) (pa : Nat) (bs : List Byte) (vmid : Nat) : State :=
  if Config.pcBase ≤ pa then
    (if bs.length = 8 ∧ pa % 8 = 0 then (s.controlWrite (pa - Config.pcBase) (BitVec.ofNat 64 (ofBytes bs))).wakeControl (pa - Config.pcBase) else s)
  else s.storeHome pa bs vmid

/-- The pieces of an access: one when it is aligned, else its bytes. DEDUCED: assumption 35. -/
def pieces (va : DWord) (n : Nat) : List (DWord × Nat) :=
  if n = 0 ∨ va.toNat % n = 0 then [(va, n)] else (upto 0 n).map (fun i => (va + BitVec.ofNat 64 i, 1))

/-- The pieces of an access translated. -/
def State.hartPieces (s : State) (h : Nat) (acc : Access) : List (DWord × Nat) → Except HartExc (List (Nat × Nat)) × State
  | [] => (.ok [], s)
  | (va, n) :: r =>
    match s.hartTranslate h va acc with
    | (.error e, s) => (.error e, s)
    | (.ok pa, s) =>
      match s.hartPieces h acc r with
      | (.error e, s) => (.error e, s)
      | (.ok l, s) => (.ok ((pa, n) :: l), s)

/-- Pieces read, in order. -/
def State.readPieces (s : State) : List (Nat × Nat) → Option (List Byte) × State
  | [] => (some [], s)
  | (pa, n) :: r =>
    match s.hartRead pa n with
    | (none, s) => (none, s)
    | (some b, s) =>
      match s.readPieces r with
      | (none, s) => (none, s)
      | (some l, s) => (some (b ++ l), s)

/-- Pieces written, in order. -/
def State.writePieces (s : State) (vmid : Nat) : List (Nat × Nat) → List Byte → State
  | [], _ => s
  | (pa, n) :: r, bs => (s.hartWrite pa (bs.take n) vmid).writePieces vmid r (bs.drop n)

/-- A register of a hart written by an access. -/
def State.hartSet (s : State) (h rd : Nat) (v : DWord) : State :=
  let x := s.hart h
  s.setHart h { x with exc := none, x := if rd == 0 then x.x else Tab.set x.x rd v }

/-- A word of 1 to 8 bytes as LR and the AMOs give it to rd: sign-extended. PRESUMED: assumption 98. -/
def extended (bs : List Byte) : DWord := BitVec.ofInt 64 (BitVec.ofNat (8 * bs.length) (ofBytes bs)).toInt

/-- What an AMO writes over an old word (R199). PRESUMED: assumption 98. -/
def amoWord (op : AmoOp) (w old v : Nat) : Nat :=
  let a := BitVec.ofNat w old
  let b := BitVec.ofNat w v
  let r : BitVec w := match op with
    | .swap => b
    | .add => a + b
    | .and => a &&& b
    | .or => a ||| b
    | .xor => a ^^^ b
    | .min => if a.toInt ≤ b.toInt then a else b
    | .max => if a.toInt ≤ b.toInt then b else a
    | .minu => if a.toNat ≤ b.toNat then a else b
    | .maxu => if a.toNat ≤ b.toNat then b else a
  r.toNat

/-- A read-modify-write or a conditional store of a hart, or an LR: aligned, of one physical address (R199, R306, R321). The
control space reads zero to it and is not written. -/
def State.hartAtom (s : State) (h : Nat) (va : DWord) (size rd : Nat) (acc : Access) (f : State → Nat → List Byte → State) : State :=
  let exc := if acc = .read then HartExc.loadFault va else .storeFault va
  if size = 0 ∨ va.toNat % size ≠ 0 then s.hartExc h exc else
  match s.hartTranslate h va acc with
  | (.error e, s) => s.hartExc h e
  | (.ok pa, s) =>
    if Config.pcBase ≤ pa then s.hartSet h rd 0 else
    match s.hartRead pa size with
    | (none, s) => s.hartExc h exc
    | (some bs, s) => f s pa bs

/-- An SC (R199): it stores when its hart's reservation holds, and answers 0, else 1. PRESUMED: assumption 98. -/
def State.hartSc (s : State) (h : Nat) (va : DWord) (size rd : Nat) (v : DWord) : State :=
  if size = 0 ∨ va.toNat % size ≠ 0 then s.hartExc h (.storeFault va) else
  match s.hartTranslate h va .write with
  | (.error e, s) => s.hartExc h e
  | (.ok pa, s) =>
    let held := (s.hart h).resv == some (pa / 64)
    let s := s.setHart h { s.hart h with resv := none }
    if held then (s.hartSet h rd 0).hartWrite pa (toBytes size v.toNat) (s.hart h).vmid else s.hartSet h rd 1

/-- HOST_HART_ACCESS (R199, R306, R321): a fetch, a load, a store, an LR, an SC or an AMO of a hart that does not wait.
DESIGN CHOICE: assumption 34. DEDUCED: assumption 41. PRESUMED: assumption 98. -/
def execHostHartAccess (hart : Nat) (acc : HartAccess) (s : State) : Host.Outcome State Fault Refusal :=
  if (s.hart hart).jwait.isSome ∨ (s.harts.find? hart).isNone = true then .next s else
  let vmid := (s.hart hart).vmid
  match acc with
  | .fetch va =>
    match s.hartTranslate hart va .exec with
    | (.error e, s) => .next (s.hartExc hart e)
    | (.ok pa, s) => match s.hartRead pa 4 with
      | (none, s) => .next (s.hartExc hart (.fetchFault va))
      | (some _, s) => .next (s.setHart hart { s.hart hart with exc := none })
  | .load va size rd =>
    match s.hartPieces hart .read (pieces va size) with
    | (.error e, s) => .next (s.hartExc hart e)
    | (.ok l, s) => match s.readPieces l with
      | (none, s) => .next (s.hartExc hart (.loadFault va))
      | (some bs, s) => .next (s.hartSet hart rd (BitVec.ofNat 64 (ofBytes bs)))
  | .store va size v =>
    match s.hartPieces hart .write (pieces va size) with
    | (.error e, s) => .next (s.hartExc hart e)
    | (.ok l, s) => .next ((s.setHart hart { s.hart hart with exc := none }).writePieces vmid l (toBytes size v.toNat))
  | .lr va size rd =>
    .next (s.hartAtom hart va size rd .read (fun s pa bs =>
      let s := s.hartSet hart rd (extended bs)
      s.setHart hart { s.hart hart with resv := some (pa / 64) }))
  | .sc va size rd v => .next (s.hartSc hart va size rd v)
  | .amo op va size rd v =>
    .next (s.hartAtom hart va size rd .atom (fun s pa bs =>
      (s.hartSet hart rd (extended bs)).hartWrite pa (toBytes size (amoWord op (8 * size) (ofBytes bs) v.toNat)) vmid))

/-! ### XLSPAWN (R261, R459) -/

/-- Is the hart in a mode that may launch a system team (R261)? -/
def Priv.mayLaunchSys : Priv → Bool
  | .m | .s => true
  | _ => false

/-- XLSPAWN's result, and the launch that it enters (R261). -/
def State.spawn (s : State) (n : Nat) : Int × State :=
  let h := s.hart n
  let a := (upto 10 8).map h.get
  if h.bare then (-3, s)
  else if !launchFieldsOk a then (-1, s)
  else if geomSys (argAt a 3) && !h.priv.mayLaunchSys then (-6, s)
  else if !launchAddrsOk a then (-2, s)
  else match s.enterLaunch (n / 4) a h.space none with
    | .error e => (e, s)
    | .ok (l, s) => (l, s)

/-- XLSPAWN. A hart's stores are performed as they are made, so its release waits for nothing. DEDUCED: assumption 41. -/
def execXlspawn (rd : BitVec 5) (s : State) : Host.Outcome State Fault Refusal :=
  match s.turn with
  | .hart n =>
    let (v, s) := s.spawn n
    .next (s.hartDone n rd.toNat (BitVec.ofInt 64 v))
  | _ => .next s

/-! ### XLJWAIT (R265, R457) -/

/-- XLJWAIT: the counter is read; below the target the hart waits. -/
def execXljwait (rd rs1 rs2 : BitVec 5) (s : State) : Host.Outcome State Fault Refusal :=
  match s.turn with
  | .hart n =>
    let h := s.hart n
    let va := h.get rs1.toNat
    if va.toNat % 8 ≠ 0 then .next (s.hartExc n (.loadMisaligned va)) else
    match s.hartTranslate n va .read with
    | (.error e, s) => .next (s.hartExc n e)
    | (.ok pa, s) => match s.hartRead pa 8 with
      | (none, s) => .next (s.hartExc n (.loadFault va))
      | (some bs, s) =>
        let v := ofBytes bs
        if v < (h.get rs2.toNat).toNat then
          .next (s.setHart n { s.hart n with
            exc := none, jwait := some { rd := rd.toNat, pa := pa, va := va, till := s.part.wall + msUnits } })
        else .next (s.hartDone n rd.toNat (BitVec.ofNat 64 v))
  | _ => .next s

/-- XLJWAIT_TIMEOUT: a wait ends after 1 ms (R265). -/
def execXljwaitTimeout (hart : Nat) (s : State) : Host.Outcome State Fault Refusal :=
  match (s.hart hart).jwait with
  | none => .next s
  | some j => .next ((s.setPart { s.part with wall := max s.part.wall j.till }).jwaitEnd hart j)

/-- INTERRUPT_PENDING: an interrupt that is pending and enabled at the hart ends a wait (R265, R457). -/
def execInterruptPending (hart : Nat) (s : State) : Host.Outcome State Fault Refusal :=
  match (s.hart hart).jwait with
  | none => .next s
  | some j => .next (s.jwaitEnd hart j)

/-! ### XLQPUSH (R267, R458) -/

/-- XLQPUSH. DEDUCED: assumption 41. -/
def execXlqpush (rd rs1 rs2 : BitVec 5) (s : State) : Host.Outcome State Fault Refusal :=
  match s.turn with
  | .hart n =>
    let h := s.hart n
    let sel := h.get rs1.toNat
    let va := h.get rs2.toNat
    let sp := h.space
    let d := rd.toNat
    match s.queueRefuse sel sp.asid sp.vmid false with
    | some r => .next (s.hartDone n d (BitVec.ofInt 64 (-(r : Int))))
    | none =>
      let q := selQ sel
      if selCount sel = 0 ∨ (s.queue q).pushes.isEmpty = false then .next (s.hartDone n d 0)
      else if va.toNat % 64 ≠ 0 then .next (s.hartExc n (.loadMisaligned va)) else
      match s.hartPieces n .read ((upto 0 (selCount sel)).map (fun i => (va + BitVec.ofNat 64 (64 * i), 64))) with
      | (.error e, s) => .next (s.hartExc n e)
      | (.ok l, s) => match s.readPieces l with
        | (none, s) => .next (s.hartExc n (.loadFault va))
        | (some bs, s) =>
          let es := cut64 bs (selCount sel)
          let (left, s) := s.pushAll q es
          .next ((s.settleQueue q).hartDone n d (BitVec.ofNat 64 (es.length - left.length)))
  | _ => .next s

/-! ### Ports (R21, R320, R334) -/

/-- An access that enters the mesh at a router with a VMID: the router's firewall discards one that it does not admit (R314),
and one beyond partition memory is discarded as a firewall violation too; a die on its way refuses one from a die of another world
(R331). DEDUCED: assumption 73. -/
def State.meshAccess (s : State) (router vmid : Nat) (acc : MeshAccess) : State :=
  let (pa, n) := match acc with
    | .read pa n => (pa, n)
    | .write pa bs => (pa, bs.length)
  if s.memEnd < pa + n || !s.castle.admits router router (s.homeRouter pa) then s.security .firewall (.host s.pid)
  else match s.refusedAt (sliceDie (routerSlice router)) (s.homeDie pa) with
  | some d => s.dropPacket d (.host s.pid)
  | none => match acc with
    | .read pa n => (s.hartRead pa n).2
    | .write pa bs => s.storeHome pa bs vmid

/-- A slice port (R320). Castle has installed no key at boot. DESIGN CHOICE: assumption 93. -/
def Castle.slicePort (c : Castle) (x : Nat) : SlicePort := Tab.get { fabric := false, key := none } c.slicePorts x

/-- SLICE_PORT_FRAME (R320): an authenticated frame enters the mesh at the slice's own routers. Without a key none can be
authenticated: it is dropped and counted. -/
def execSlicePortFrame (slice : Nat) (acc : MeshAccess) (s : State) : Host.Outcome State Fault Refusal :=
  if s.nsl ≤ slice then .next s else
  let x := (s.slice slice).number
  if (s.castle.slicePort x).key.isNone then execSlicePortAuthFail slice s
  else .next (s.meshAccess ((sliceRouters x).headD 0) 0 acc)

/-- The addresses that a host port exposes (R334): in CXL mode those of its HDM ranges. DEDUCED: assumption 97. -/
def HostPort.exposes (p : HostPort) (pa n : Nat) : Bool :=
  !p.cxl || p.hdm.any (fun r => decide (r.1 ≤ pa) && decide (pa + n ≤ r.1 + r.2))

/-- HOST_PORT_REQUEST (R21, R334): a transaction on a host port for a function, the physical one of a partition or a virtual one
of a VDEV, enters the mesh at a router; one for a function of another partition does not reach the one that is modelled.
DESIGN CHOICE: assumptions 2, 93. -/
def execHostPortRequest (x : PortFn) (acc : MeshAccess) (s : State) : Host.Outcome State Fault Refusal :=
  let (pa, n) := match acc with
    | .read pa n => (pa, n)
    | .write pa bs => (pa, bs.length)
  if x.pf ≠ s.pid ∨ s.castle.functions.contains x.pf = false ∨ s.desc.state = 0 ∨ 4 ≤ x.port ∨ 64 ≤ x.vf.getD 0
      ∨ (s.castle.hostPort x.port).exposes pa n = false then .next s
  else .next (s.meshAccess x.router (match x.vf with
    | none => 0
    | some v => v + 1) acc)

end Sys2Proof.Machine
end

