-- ==== Sys2Proof/Machine/Sfu.lean ====
section
/-! DEFINITION. The functions of VSFU that R447 defines as correctly rounded: reciprocal, reciprocal square root, 2^x, log2,
sine, cosine and hyperbolic tangent. Each is computed in fixed point to far more places than FP32 has and rounded once.

Assumption 21: the places carried decide every FP32 operand. -/

namespace Sys2Proof.Machine

/-- Places after the binary point that the series carry. DEDUCED: assumption 21. -/
def sfuPlaces : Nat := 448

/-- One, in fixed point. -/
def sfuOne : Nat := 2 ^ sfuPlaces

/-- A product in fixed point. -/
def sfuMul (a b : Nat) : Nat := a * b / sfuOne

/-- Σ t^k/k! from a term on, in fixed point. DEDUCED: assumption 21. -/
def expSeries (t : Nat) : Nat → Nat → Nat → Nat → Nat
  | 0, _, _, acc => acc
  | n + 1, k, term, acc =>
    let next := sfuMul term t / (k + 1)
    expSeries t n (k + 1) next (acc + next)

/-- e^t for t below 1. -/
def expFix (t : Nat) : Nat := expSeries t 110 0 sfuOne sfuOne

/-- Σ z^(2k+1)/(2k+1): the inverse hyperbolic tangent. DEDUCED: assumption 21. -/
def atanhSeries (z2 : Nat) : Nat → Nat → Nat → Nat → Nat
  | 0, _, _, acc => acc
  | n + 1, k, pow, acc =>
    let next := sfuMul pow z2
    atanhSeries z2 n (k + 1) next (acc + next / (2 * k + 3))

def atanhFix (z : Nat) : Nat := atanhSeries (sfuMul z z) 150 0 z z

/-- ln 2 = 2·artanh(1/3). -/
def ln2Fix : Nat := 2 * atanhFix (sfuOne / 3)

/-- arctan(1/q) scaled by one: Σ (−1)^k / ((2k+1)·q^(2k+1)), summed by pairs. -/
def atanInv (q one : Nat) : Nat → Nat → Nat → Nat → Nat
  | 0, _, _, acc => acc
  | n + 1, k, pow, acc =>
    let p2 := pow / (q * q)
    atanInv q one n (k + 2) (p2 / (q * q)) (acc + pow / (2 * k + 1) - p2 / (2 * k + 3))

/-- Places that reducing the largest FP32 angle takes on top. -/
def piExtra : Nat := 192

/-- π in fixed point with the extra places (Machin's formula). DEDUCED: assumption 21. -/
def piFix : Nat :=
  let one := 2 ^ (sfuPlaces + piExtra)
  16 * atanInv 5 one 160 0 (one / 5) 0 - 4 * atanInv 239 one 60 0 (one / 239) 0

/-- The sine and cosine series at r: each is Σ (−1)^k r^(2k+j)/(2k+j)!, by pairs of terms. DEDUCED: assumption 21. -/
def trigSeries (r2 : Nat) : Nat → Nat → Nat → Nat → Nat
  | 0, _, _, acc => acc
  | n + 1, k, term, acc =>
    let t1 := sfuMul term r2 / ((k + 1) * (k + 2))
    let t2 := sfuMul t1 r2 / ((k + 3) * (k + 4))
    trigSeries r2 n (k + 4) t2 (acc + t2 - t1)

def sinFix (r : Nat) : Nat := trigSeries (sfuMul r r) 36 1 r r
def cosFix (r : Nat) : Nat := trigSeries (sfuMul r r) 36 0 sfuOne sfuOne

/-- A fixed-point magnitude rounded to FP32 to nearest, its last places marked inexact; only OF may be raised (R447).
DEDUCED: assumption 21. -/
def sfuRound (s : Bool) (x : Nat) (scale : Int) : Word × BitVec 5 :=
  let (c, fl) := fmt32.round 0 s (2 * x + 1) (scale - sfuPlaces - 1)
  (BitVec.ofNat 32 c, fl &&& flagOF)

/-- An exact value rounded, keeping OF alone (R447). -/
def sfuExact (s : Bool) (m : Nat) (e : Int) : Word × BitVec 5 :=
  let (c, fl) := fmt32.round 0 s m e
  (BitVec.ofNat 32 c, fl &&& flagOF)

def w32 (n : Nat) : Word := BitVec.ofNat 32 n
def inf32 (s : Bool) : Word := w32 (fmt32.signed s fmt32.inf)
def zero32 (s : Bool) : Word := w32 (fmt32.signed s 0)
def nan32 : Word := w32 fmt32.nan

/-- A NaN operand: the canonical NaN, with NV when signalling (R447). -/
def sfuNan (sig : Bool) : Word × BitVec 5 := (nan32, if sig then flagNV else 0)

/-- VRCP (R447). -/
def rcp32 (a : Word) : Word × BitVec 5 :=
  match fmt32.unpack a.toNat with
  | .nan q => sfuNan q
  | .inf s => (zero32 s, 0)
  | .fin s m e =>
    if m == 0 then (inf32 s, flagDZ)
    else sfuExact s (sticky (2 ^ 80 / m) (2 ^ 80 % m == 0)) (-e - 81)

/-- VRSQ (R447). -/
def rsq32 (a : Word) : Word × BitVec 5 :=
  match fmt32.unpack a.toNat with
  | .nan q => sfuNan q
  | .inf s => if s then (nan32, flagNV) else (zero32 false, 0)
  | .fin s m e =>
    if m == 0 then (inf32 s, flagDZ)
    else if s then (nan32, flagNV)
    else
      let (m, e) := evenExp m e
      let r := isqrt (2 ^ 160 / m)
      sfuExact false (sticky r (r * r * m == 2 ^ 160)) (-(e / 2) - 81)

/-- VEX2 (R447): every x of 128 or more, +∞ among them, gives +∞ with OF; else x = n + f with 0 ≤ f < 1, and 2^f = e^(f·ln 2). DEDUCED: assumption 21. -/
def ex232 (a : Word) : Word × BitVec 5 :=
  match fmt32.unpack a.toNat with
  | .nan q => sfuNan q
  | .inf s => if s then (zero32 false, 0) else (inf32 false, flagOF)
  | .fin s m e =>
    if m == 0 then (w32 0x3F800000, 0)
    else if e + bitLen m > 8 then (if s then (zero32 false, 0) else (inf32 false, flagOF))
    else if e + bitLen m < -30 then (w32 0x3F800000, 0)
    else
      -- x in fixed point, negative numbers reduced from above
      let x := sInt s (m * 2 ^ (e + sfuPlaces).toNat)
      let n := x / (sfuOne : Int)
      let f := (x % (sfuOne : Int)).toNat
      if f == 0 then sfuExact false 1 n
      else sfuRound false (expFix (sfuMul f ln2Fix)) n

/-- VLG2 (R447): log2(m·2^k) = k + ln m / ln 2, with ln m = 2·artanh((m−1)/(m+1)). DEDUCED: assumption 21. -/
def lg232 (a : Word) : Word × BitVec 5 :=
  match fmt32.unpack a.toNat with
  | .nan q => sfuNan q
  | .inf s => if s then (nan32, flagNV) else (inf32 false, 0)
  | .fin s m e =>
    if m == 0 then (inf32 true, flagDZ)
    else if s then (nan32, flagNV)
    else
      let l := bitLen m - 1
      let k : Int := e + l
      if m == 2 ^ l then
        let (c, _) := fmt32.ofInt 0 k
        (w32 c, 0)
      else
        let z := (m - 2 ^ l) * sfuOne / (m + 2 ^ l)
        let frac := 2 * atanhFix z * sfuOne / ln2Fix
        let x := k * (sfuOne : Int) + frac
        sfuRound (decide (x < 0)) x.natAbs 0

/-- The angle's octant reduction: x = q·(π/2) + r with 0 ≤ r < π/2, for a magnitude m·2^e. -/
def trigReduce (m : Nat) (e : Int) : Nat × Nat :=
  let places := sfuPlaces + piExtra
  let x := m * 2 ^ (e + places).toNat
  let half := piFix / 2
  (x / half % 4, x % half / 2 ^ piExtra)

/-- VSIN and VCOS (R447). DEDUCED: assumption 21. -/
def trig32 (cosine : Bool) (a : Word) : Word × BitVec 5 :=
  match fmt32.unpack a.toNat with
  | .nan q => sfuNan q
  | .inf _ => (nan32, flagNV)
  | .fin s m e =>
    if m == 0 then (if cosine then w32 0x3F800000 else a, 0)
    else
      let (q, r) := trigReduce m e
      -- sin|x| by quadrant is sin r, cos r, −sin r, −cos r; cos|x| is a quarter turn ahead
      let q := if cosine then (q + 1) % 4 else q
      let v := if q % 2 == 0 then sinFix r else cosFix r
      sfuRound (xor (!cosine && s) (2 ≤ q)) v 0

/-- VTANH (R447): (E − 1)/(E + 1) with E = e^(2|x|). DEDUCED: assumption 21. -/
def tanh32 (a : Word) : Word × BitVec 5 :=
  match fmt32.unpack a.toNat with
  | .nan q => sfuNan q
  | .inf s => (w32 (fmt32.signed s 0x3F800000), 0)
  | .fin s m e =>
    if m == 0 || e + bitLen m ≤ -12 then (a, 0)
    else if e + bitLen m > 4 then (w32 (fmt32.signed s 0x3F800000), 0)
    else
      let x := m * 2 ^ (e + 1 + sfuPlaces).toNat
      let n := x / ln2Fix
      let ex := expFix (x % ln2Fix) * 2 ^ n
      sfuRound s ((ex - sfuOne) * sfuOne / (ex + sfuOne)) 0

end Sys2Proof.Machine
end

