-- ==== Sys2Proof/Machine/VecSfu.lean ====
section
/-! DEFINITION. VSFU (R445 to R447): the interlocked functions. -/

namespace Sys2Proof.Machine

/-- Integer division and remainder (R89): they truncate towards zero and never trap. -/
def divU (n d : Word) : Word := if d = 0 then 0xFFFFFFFF else n / d
def remU (n d : Word) : Word := if d = 0 then n else n % d
def divS (n d : Word) : Word := if d = 0 then 0xFFFFFFFF else n.sdiv d
def remS (n d : Word) : Word := if d = 0 then n else n.srem d

/-- The two-operand functions: v[VD] op the routed v[VA] (R445). -/
def sfu2 (f : FU) (g : Team → Nat → List (List (Option DWord)) → DWord × BitVec 5) : VInstr :=
  { guard := some f.p.toNat, opds := [.rv f.lm.toNat f.va.toNat, .v f.vd.toNat], dst := .v f.vd.toNat, lat := none,
    f := g }

/-- VRCP (R447). -/
def execVrcp (f : FU) (s : State) : Host.Outcome State Fault Refusal :=
  execVector (unaryU f none (fop1 (fun _ a => rcp32 a))) s

/-- VRSQ (R447). -/
def execVrsq (f : FU) (s : State) : Host.Outcome State Fault Refusal :=
  execVector (unaryU f none (fop1 (fun _ a => rsq32 a))) s

/-- VEX2 (R447). -/
def execVex2 (f : FU) (s : State) : Host.Outcome State Fault Refusal :=
  execVector (unaryU f none (fop1 (fun _ a => ex232 a))) s

/-- VLG2 (R447). -/
def execVlg2 (f : FU) (s : State) : Host.Outcome State Fault Refusal :=
  execVector (unaryU f none (fop1 (fun _ a => lg232 a))) s

/-- VSIN (R447). -/
def execVsin (f : FU) (s : State) : Host.Outcome State Fault Refusal :=
  execVector (unaryU f none (fop1 (fun _ a => trig32 false a))) s

/-- VCOS (R447). -/
def execVcos (f : FU) (s : State) : Host.Outcome State Fault Refusal :=
  execVector (unaryU f none (fop1 (fun _ a => trig32 true a))) s

/-- VTANH (R447). -/
def execVtanh (f : FU) (s : State) : Host.Outcome State Fault Refusal :=
  execVector (unaryU f none (fop1 (fun _ a => tanh32 a))) s

/-- VSQRT (R446). -/
def execVsqrt (f : FU) (s : State) : Host.Outcome State Fault Refusal :=
  execVector (unaryU f none (fop1 (fun frm a => as32 (fmt32.sqrt frm a.toNat)))) s

/-- VDIV.U (R89, R446). -/
def execVdivU (f : FU) (s : State) : Host.Outcome State Fault Refusal :=
  execVector (sfu2 f (op2 (fun d n => divU n d))) s

/-- VDIV.S (R89, R446). -/
def execVdivS (f : FU) (s : State) : Host.Outcome State Fault Refusal :=
  execVector (sfu2 f (op2 (fun d n => divS n d))) s

/-- VREM.U (R89, R446). -/
def execVremU (f : FU) (s : State) : Host.Outcome State Fault Refusal :=
  execVector (sfu2 f (op2 (fun d n => remU n d))) s

/-- VREM.S (R89, R446). -/
def execVremS (f : FU) (s : State) : Host.Outcome State Fault Refusal :=
  execVector (sfu2 f (op2 (fun d n => remS n d))) s

/-- VFDIV (R446). -/
def execVfdiv (f : FU) (s : State) : Host.Outcome State Fault Refusal :=
  execVector (sfu2 f (fop2 (fun frm d n => as32 (fmt32.div frm n.toNat d.toNat)))) s

end Sys2Proof.Machine
end

