-- ==== Sys2Proof/Machine/Vxl.lean ====
section
/-! DEFINITION. VXL (R136, R452 to R455): quad exchange, votes, ballots and reductions, index registers and uniform moves. -/

namespace Sys2Proof.Machine

/-- A quad read (R453). -/
def quadRead (p vd : Nat) (o : Opd) : VInstr :=
  { guard := some p, opds := [o], dst := .v vd, lat := some 5, f := op1 id }

/-- The present values of a gang's lanes (R454). -/
def presentVals (vs : List (List (Option DWord))) : List (Option DWord) := vs.headD []

/-- A node of VREDU (R111, R454), with its exceptions. -/
def redNode (op : RedOp) (frm : BitVec 2) (a b : Word) : Word × BitVec 5 :=
  match op with
  | .add => (a + b, 0)
  | .and => (a &&& b, 0)
  | .or => (a ||| b, 0)
  | .xor => (a ^^^ b, 0)
  | .minS => (minS a b, 0)
  | .maxS => (maxS a b, 0)
  | .minU => (minU a b, 0)
  | .maxU => (maxU a b, 0)
  | .fadd => fadd32 frm a b
  | .fmin => fmin32 frm a b
  | .fmax => fmax32 frm a b

/-- One level of the tree: neighbours combined, an absent one standing aside (R111). -/
def redLevel (op : RedOp) (frm : BitVec 2) : List (Option Word) → List (Option Word) × BitVec 5
  | a :: b :: r =>
    let (rest, fl) := redLevel op frm r
    match a, b with
    | some a, some b =>
      let (v, f) := redNode op frm a b
      (some v :: rest, f ||| fl)
    | some a, none => (some a :: rest, fl)
    | none, b => (b :: rest, fl)
  | l => (l, 0)

/-- The tree over 2^n lanes, level by level (R111). -/
def redTree (op : RedOp) (frm : BitVec 2) : Nat → List (Option Word) → Option Word × BitVec 5
  | 0, l => (l.headD none, 0)
  | n + 1, l =>
    let (l', fl) := redLevel op frm l
    let (v, f) := redTree op frm n l'
    (v, fl ||| f)

/-- The identity of an operation, which the tree yields over no lane at all (R112). -/
def redUnit (op : RedOp) : Word :=
  match op with
  | .add | .or | .xor | .fadd => 0
  | .and | .minU => 0xFFFFFFFF
  | .maxU => 0
  | .minS => 0x7FFFFFFF
  | .maxS => 0x80000000
  | .fmin => 0x7F800000
  | .fmax => 0xFF800000

/-- The levels of a gang's tree: log2 W. -/
def levels (w : Nat) : Nat := if w == 16 then 4 else if w == 32 then 5 else 6

/-- The gang-lane mask of a predicate (R454). -/
def ballotOf : List (Option DWord) → Nat
  | [] => 0
  | p :: r => (if p = some 1 then 1 else 0) + 2 * ballotOf r

/-- QXCH.H (R453). -/
def execQxchH (f : FQx) (s : State) : Host.Outcome State Fault Refusal :=
  execVector (quadRead f.p.toNat f.vd.toNat (.quadX 1 f.va.toNat)) s

/-- QXCH.V (R453). -/
def execQxchV (f : FQx) (s : State) : Host.Outcome State Fault Refusal :=
  execVector (quadRead f.p.toNat f.vd.toNat (.quadX 2 f.va.toNat)) s

/-- QXCH.D (R453). -/
def execQxchD (f : FQx) (s : State) : Host.Outcome State Fault Refusal :=
  execVector (quadRead f.p.toNat f.vd.toNat (.quadX 3 f.va.toNat)) s

/-- QBCAST (R453). -/
def execQbcast (f : FQb) (s : State) : Host.Outcome State Fault Refusal :=
  execVector (quadRead f.p.toNat f.vd.toNat (.quadB f.n.toNat f.va.toNat)) s

/-- VVOTE.ANY (R454). -/
def execVvoteAny (f : FVote) (s : State) : Host.Outcome State Fault Refusal :=
  execVector (
    { guard := some f.p.toNat, opds := [.gangP f.ps.toNat], dst := .p f.pd.toNat, lat := some 6,
      f := fun _ _ vs => (predVal ((presentVals vs).any (fun p => p == some 1)), 0) }) s

/-- VVOTE.ALL (R454). -/
def execVvoteAll (f : FVote) (s : State) : Host.Outcome State Fault Refusal :=
  execVector (
    { guard := some f.p.toNat, opds := [.gangP f.ps.toNat], dst := .p f.pd.toNat, lat := some 6,
      f := fun _ _ vs => (predVal ((presentVals vs).all (fun p => p != some 0)), 0) }) s

/-- VBALLOT (R454). -/
def execVballot (f : FBallot) (s : State) : Host.Outcome State Fault Refusal :=
  execVector (
    { guard := some f.p.toNat, opds := [.gangP f.ps.toNat], dst := .v64 f.vd.toNat, lat := some 6,
      f := fun _ _ vs => (BitVec.ofNat 64 (ballotOf (presentVals vs)), 0) }) s

/-- VSETI (R455). -/
def execVseti (f : FSeti) (s : State) : Host.Outcome State Fault Refusal :=
  execVector (
    { guard := some f.p.toNat, opds := [.v f.va.toNat], dst := .ix f.n.toNat, lat := some 4, f := op1 id }) s

/-- VMOVX (R80, R455). -/
def execVmovx (f : FMovx) (s : State) : Host.Outcome State Fault Refusal :=
  execVector (
    { guard := some f.p.toNat, opds := [.ix f.n.toNat, .win f.n.toNat], dst := .v f.vd.toNat, lat := some 4,
      f := scalar (fun _ l => ((l.drop 1).headD 0, 0)) }) s

/-- VSTX (R80, R455). -/
def execVstx (f : FStx) (s : State) : Host.Outcome State Fault Refusal :=
  execVector (
    { guard := some f.p.toNat, opds := [.v f.vs.toNat, .ix f.n.toNat], dst := .win f.n.toNat, lat := some 4,
      f := scalar (fun _ l => (l.headD 0, 0)) }) s

/-- What GETV reads (R25). -/
def Team.getvVal (t : Team) (sel : GSel) (tid : Nat) : Nat :=
  match sel with
  | .tid => tid
  | .lane => t.laneOf tid
  | .gang => t.gangOf tid
  | .quad => t.laneOf tid / 4
  | .plane => t.planeOf tid
  | .pawn => if t.isPawn tid then 1 else 0

/-- GETV (R25, R455). -/
def execGetv (f : FGetv) (s : State) : Host.Outcome State Fault Refusal :=
  execVector (
    { guard := some f.p.toNat, opds := [], dst := .v f.vd.toNat, lat := some 4,
      f := fun t tid _ => (BitVec.ofNat 64 (t.getvVal f.sel tid), 0) }) s

/-- VMOVU (R455). -/
def execVmovu (f : FMovu) (s : State) : Host.Outcome State Fault Refusal :=
  execVector (
    { guard := some f.p.toNat, opds := [.s f.sa.toNat], dst := .v f.vd.toNat, lat := some 4,
      f := scalar (fun _ l => (if f.hi = 1 then (hi32 (l.headD 0)).zeroExtend 64 else l.headD 0, 0)) }) s

/-- VREDU (R111, R454), interlocked. -/
def execVredu (f : FRedu) (s : State) : Host.Outcome State Fault Refusal :=
  execVector (
    { guard := some f.p.toNat, opds := [.gangV f.va.toNat], dst := .v f.vd.toNat, lat := none,
      f := fun t _ vs =>
        let r := redTree f.op t.frm (levels t.w) ((presentVals vs).map (fun v => v.map lo32))
        ((r.1.getD (redUnit f.op)).zeroExtend 64, r.2)
      gangFlags := true }) s

end Sys2Proof.Machine
end

