-- ==== Sys2Proof/Machine/Dispatch.lean ====
section
/-! DEFINITION. The meaning of every instruction and step of the opcode table: one arm, one call. -/

namespace Sys2Proof.Machine

/-- What an instruction or a step of the part does in a state. -/
def exec (i : Instr) (s : State) : Host.Outcome State Fault Refusal :=
  match i with
  | .mov f => Sys2Proof.Machine.execMov f s
  | .nop => Sys2Proof.Machine.execNop s
  | .vaddC f => Sys2Proof.Machine.execVaddC f s
  | .vsubC f => Sys2Proof.Machine.execVsubC f s
  | .vmulC f => Sys2Proof.Machine.execVmulC f s
  | .vandC f => Sys2Proof.Machine.execVandC f s
  | .vorC f => Sys2Proof.Machine.execVorC f s
  | .vxorC f => Sys2Proof.Machine.execVxorC f s
  | .vshlC f => Sys2Proof.Machine.execVshlC f s
  | .vshrUC f => Sys2Proof.Machine.execVshrUC f s
  | .vshrSC f => Sys2Proof.Machine.execVshrSC f s
  | .vminSC f => Sys2Proof.Machine.execVminSC f s
  | .vmaxSC f => Sys2Proof.Machine.execVmaxSC f s
  | .vfaddC f => Sys2Proof.Machine.execVfaddC f s
  | .vfsubC f => Sys2Proof.Machine.execVfsubC f s
  | .vfmulC f => Sys2Proof.Machine.execVfmulC f s
  | .vfmaxC f => Sys2Proof.Machine.execVfmaxC f s
  | .vadd f => Sys2Proof.Machine.execVadd f s
  | .vsub f => Sys2Proof.Machine.execVsub f s
  | .vmul f => Sys2Proof.Machine.execVmul f s
  | .vmulhS f => Sys2Proof.Machine.execVmulhS f s
  | .vmulhU f => Sys2Proof.Machine.execVmulhU f s
  | .vminS f => Sys2Proof.Machine.execVminS f s
  | .vminU f => Sys2Proof.Machine.execVminU f s
  | .vmaxS f => Sys2Proof.Machine.execVmaxS f s
  | .vmaxU f => Sys2Proof.Machine.execVmaxU f s
  | .vand f => Sys2Proof.Machine.execVand f s
  | .vor f => Sys2Proof.Machine.execVor f s
  | .vxor f => Sys2Proof.Machine.execVxor f s
  | .vshl f => Sys2Proof.Machine.execVshl f s
  | .vshrU f => Sys2Proof.Machine.execVshrU f s
  | .vshrS f => Sys2Proof.Machine.execVshrS f s
  | .vaddSat f => Sys2Proof.Machine.execVaddSat f s
  | .vadd64 f => Sys2Proof.Machine.execVadd64 f s
  | .vsub64 f => Sys2Proof.Machine.execVsub64 f s
  | .vcmp f => Sys2Proof.Machine.execVcmp f s
  | .vfadd f => Sys2Proof.Machine.execVfadd f s
  | .vfsub f => Sys2Proof.Machine.execVfsub f s
  | .vfmul f => Sys2Proof.Machine.execVfmul f s
  | .vfmin f => Sys2Proof.Machine.execVfmin f s
  | .vfmax f => Sys2Proof.Machine.execVfmax f s
  | .vfcmp f => Sys2Proof.Machine.execVfcmp f s
  | .vhadd f => Sys2Proof.Machine.execVhadd f s
  | .vhmul f => Sys2Proof.Machine.execVhmul f s
  | .vdadd f => Sys2Proof.Machine.execVdadd f s
  | .vdmul f => Sys2Proof.Machine.execVdmul f s
  | .vsel f => Sys2Proof.Machine.execVsel f s
  | .tatom f => Sys2Proof.Machine.execTatom f s
  | .vaddi f => Sys2Proof.Machine.execVaddi f s
  | .vandi f => Sys2Proof.Machine.execVandi f s
  | .vori f => Sys2Proof.Machine.execVori f s
  | .vxori f => Sys2Proof.Machine.execVxori f s
  | .vshi f => Sys2Proof.Machine.execVshi f s
  | .vcmpi f => Sys2Proof.Machine.execVcmpi f s
  | .vmovi f => Sys2Proof.Machine.execVmovi f s
  | .vmov f => Sys2Proof.Machine.execVmov f s
  | .vnot f => Sys2Proof.Machine.execVnot f s
  | .vneg f => Sys2Proof.Machine.execVneg f s
  | .vabs f => Sys2Proof.Machine.execVabs f s
  | .vclz f => Sys2Proof.Machine.execVclz f s
  | .vpopc f => Sys2Proof.Machine.execVpopc f s
  | .vbrev f => Sys2Proof.Machine.execVbrev f s
  | .vfneg f => Sys2Proof.Machine.execVfneg f s
  | .vfabs f => Sys2Proof.Machine.execVfabs f s
  | .vffloor f => Sys2Proof.Machine.execVffloor f s
  | .vfceil f => Sys2Proof.Machine.execVfceil f s
  | .vftrunc f => Sys2Proof.Machine.execVftrunc f s
  | .vfrint f => Sys2Proof.Machine.execVfrint f s
  | .vsextB f => Sys2Proof.Machine.execVsextB f s
  | .vsextH f => Sys2Proof.Machine.execVsextH f s
  | .vzextB f => Sys2Proof.Machine.execVzextB f s
  | .vzextH f => Sys2Proof.Machine.execVzextH f s
  | .vrcp f => Sys2Proof.Machine.execVrcp f s
  | .vrsq f => Sys2Proof.Machine.execVrsq f s
  | .vsqrt f => Sys2Proof.Machine.execVsqrt f s
  | .vex2 f => Sys2Proof.Machine.execVex2 f s
  | .vlg2 f => Sys2Proof.Machine.execVlg2 f s
  | .vsin f => Sys2Proof.Machine.execVsin f s
  | .vcos f => Sys2Proof.Machine.execVcos f s
  | .vtanh f => Sys2Proof.Machine.execVtanh f s
  | .vdivU f => Sys2Proof.Machine.execVdivU f s
  | .vdivS f => Sys2Proof.Machine.execVdivS f s
  | .vremU f => Sys2Proof.Machine.execVremU f s
  | .vremS f => Sys2Proof.Machine.execVremS f s
  | .vfdiv f => Sys2Proof.Machine.execVfdiv f s
  | .vcvt f => Sys2Proof.Machine.execVcvt f s
  | .qxchH f => Sys2Proof.Machine.execQxchH f s
  | .qxchV f => Sys2Proof.Machine.execQxchV f s
  | .qxchD f => Sys2Proof.Machine.execQxchD f s
  | .qbcast f => Sys2Proof.Machine.execQbcast f s
  | .vvoteAny f => Sys2Proof.Machine.execVvoteAny f s
  | .vvoteAll f => Sys2Proof.Machine.execVvoteAll f s
  | .vballot f => Sys2Proof.Machine.execVballot f s
  | .vseti f => Sys2Proof.Machine.execVseti f s
  | .vmovx f => Sys2Proof.Machine.execVmovx f s
  | .vstx f => Sys2Proof.Machine.execVstx f s
  | .getv f => Sys2Proof.Machine.execGetv f s
  | .vmovu f => Sys2Proof.Machine.execVmovu f s
  | .vredu f => Sys2Proof.Machine.execVredu f s
  | .vfma f => Sys2Proof.Machine.execVfma f s
  | .vfnma f => Sys2Proof.Machine.execVfnma f s
  | .vmad f => Sys2Proof.Machine.execVmad f s
  | .vhfma f => Sys2Proof.Machine.execVhfma f s
  | .vdfma f => Sys2Proof.Machine.execVdfma f s
  | .vdot2 f => Sys2Proof.Machine.execVdot2 f s
  | .vbdotT8 f => Sys2Proof.Machine.execVbdotT8 f s
  | .vbdotT6 f => Sys2Proof.Machine.execVbdotT6 f s
  | .vbdotI8 f => Sys2Proof.Machine.execVbdotI8 f s
  | .vreq f => Sys2Proof.Machine.execVreq f s
  | .ld f => Sys2Proof.Machine.execLd f s
  | .st f => Sys2Proof.Machine.execSt f s
  | .atom f => Sys2Proof.Machine.execAtom f s
  | .nmred f => Sys2Proof.Machine.execNmred f s
  | .tld f => Sys2Proof.Machine.execTld f s
  | .tst f => Sys2Proof.Machine.execTst f s
  | .uadd f => Sys2Proof.Machine.execUadd f s
  | .usub f => Sys2Proof.Machine.execUsub f s
  | .umul f => Sys2Proof.Machine.execUmul f s
  | .umulhU f => Sys2Proof.Machine.execUmulhU f s
  | .uand f => Sys2Proof.Machine.execUand f s
  | .uor f => Sys2Proof.Machine.execUor f s
  | .uxor f => Sys2Proof.Machine.execUxor f s
  | .ushl f => Sys2Proof.Machine.execUshl f s
  | .ushrU f => Sys2Proof.Machine.execUshrU f s
  | .ushrS f => Sys2Proof.Machine.execUshrS f s
  | .uminS f => Sys2Proof.Machine.execUminS f s
  | .uminU f => Sys2Proof.Machine.execUminU f s
  | .umaxS f => Sys2Proof.Machine.execUmaxS f s
  | .umaxU f => Sys2Proof.Machine.execUmaxU f s
  | .usltS f => Sys2Proof.Machine.execUsltS f s
  | .usltU f => Sys2Proof.Machine.execUsltU f s
  | .useq f => Sys2Proof.Machine.execUseq f s
  | .uaddi f => Sys2Proof.Machine.execUaddi f s
  | .xstat f => Sys2Proof.Machine.execXstat f s
  | .cpy f => Sys2Proof.Machine.execCpy f s
  | .cpym f => Sys2Proof.Machine.execCpym f s
  | .cpyz f => Sys2Proof.Machine.execCpyz f s
  | .mlds f => Sys2Proof.Machine.execMlds f s
  | .mstrm f => Sys2Proof.Machine.execMstrm f s
  | .mdrn f => Sys2Proof.Machine.execMdrn f s
  | .mzacc f => Sys2Proof.Machine.execMzacc f s
  | .tqpush f => Sys2Proof.Machine.execTqpush f s
  | .tqpop f => Sys2Proof.Machine.execTqpop f s
  | .dgst f => Sys2Proof.Machine.execDgst f s
  | .binit f => Sys2Proof.Machine.execBinit f s
  | .barv f => Sys2Proof.Machine.execBarv f s
  | .bwait f => Sys2Proof.Machine.execBwait f s
  | .bexp f => Sys2Proof.Machine.execBexp f s
  | .bstat f => Sys2Proof.Machine.execBstat f s
  | .fence f => Sys2Proof.Machine.execFence f s
  | .marm f => Sys2Proof.Machine.execMarm f s
  | .mwait f => Sys2Proof.Machine.execMwait f s
  | .karm f => Sys2Proof.Machine.execKarm f s
  | .ksign f => Sys2Proof.Machine.execKsign f s
  | .rget f => Sys2Proof.Machine.execRget f s
  | .rput f => Sys2Proof.Machine.execRput f s
  | .talloc f => Sys2Proof.Machine.execTalloc f s
  | .tfree f => Sys2Proof.Machine.execTfree f s
  | .tinfo f => Sys2Proof.Machine.execTinfo f s
  | .lmap f => Sys2Proof.Machine.execLmap f s
  | .plog f => Sys2Proof.Machine.execPlog f s
  | .gets f => Sys2Proof.Machine.execGets f s
  | .sets f => Sys2Proof.Machine.execSets f s
  | .syscall f => Sys2Proof.Machine.execSyscall f s
  | .trap f => Sys2Proof.Machine.execTrap f s
  | .hret w => Sys2Proof.Machine.execHret w s
  | .brk f => Sys2Proof.Machine.execBrk f s
  | .yield w => Sys2Proof.Machine.execYield w s
  | .xlspawn rd => Sys2Proof.Machine.execXlspawn rd s
  | .xljwait rd rs1 rs2 => Sys2Proof.Machine.execXljwait rd rs1 rs2 s
  | .xlqpush rd rs1 rs2 => Sys2Proof.Machine.execXlqpush rd rs1 rs2 s
  | .passStart core => Sys2Proof.Machine.execPassStart core s
  | .registerLineFetch core team block slot => Sys2Proof.Machine.execRegisterLineFetch core team block slot s
  | .successorEvaluation core => Sys2Proof.Machine.execSuccessorEvaluation core s
  | .entryAgeTick core team => Sys2Proof.Machine.execEntryAgeTick core team s
  | .resultWriteback team => Sys2Proof.Machine.execResultWriteback team s
  | .loadReply team => Sys2Proof.Machine.execLoadReply team s
  | .storePerformedAtHome core idx => Sys2Proof.Machine.execStorePerformedAtHome core idx s
  | .atomAtHome core idx => Sys2Proof.Machine.execAtomAtHome core idx s
  | .nmredUpdatePerformed core idx => Sys2Proof.Machine.execNmredUpdatePerformed core idx s
  | .pageWalkComplete core team va acc => Sys2Proof.Machine.execPageWalkComplete core team va acc s
  | .barrierArrival core => Sys2Proof.Machine.execBarrierArrival core s
  | .ksignSignature core => Sys2Proof.Machine.execKsignSignature core s
  | .monitorArming core => Sys2Proof.Machine.execMonitorArming core s
  | .mwaitTimeout team tid => Sys2Proof.Machine.execMwaitTimeout team tid s
  | .monitorTableTimeout slice team => Sys2Proof.Machine.execMonitorTableTimeout slice team s
  | .stalemateWatchdog team => Sys2Proof.Machine.execStalemateWatchdog team s
  | .rgetWaitTimeout core => Sys2Proof.Machine.execRgetWaitTimeout core s
  | .enginePostTimeout core => Sys2Proof.Machine.execEnginePostTimeout core s
  | .matrixRequestAccept cluster => Sys2Proof.Machine.execMatrixRequestAccept cluster s
  | .matrixGrant cluster => Sys2Proof.Machine.execMatrixGrant cluster s
  | .matrixRequestComplete cluster idx => Sys2Proof.Machine.execMatrixRequestComplete cluster idx s
  | .matrixOperandFault cluster idx => Sys2Proof.Machine.execMatrixOperandFault cluster idx s
  | .shadowPlaneTimeout cluster => Sys2Proof.Machine.execShadowPlaneTimeout cluster s
  | .engineRampTick cluster => Sys2Proof.Machine.execEngineRampTick cluster s
  | .copyCommandAccept cluster => Sys2Proof.Machine.execCopyCommandAccept cluster s
  | .copyChannelGrant cluster => Sys2Proof.Machine.execCopyChannelGrant cluster s
  | .copyChunkWritten cluster idx => Sys2Proof.Machine.execCopyChunkWritten cluster idx s
  | .copyChunkFault cluster idx => Sys2Proof.Machine.execCopyChunkFault cluster idx s
  | .copyCommandComplete cluster idx => Sys2Proof.Machine.execCopyCommandComplete cluster idx s
  | .dgstPathGrant die => Sys2Proof.Machine.execDgstPathGrant die s
  | .dgstComplete die => Sys2Proof.Machine.execDgstComplete die s
  | .syscallGatherComplete team => Sys2Proof.Machine.execSyscallGatherComplete team s
  | .scdone die value => Sys2Proof.Machine.execScdone die value s
  | .queueSpawn qnum => Sys2Proof.Machine.execQueueSpawn qnum s
  | .dispatchBind slice launch cluster => Sys2Proof.Machine.execDispatchBind slice launch cluster s
  | .slotctlPresent core slot => Sys2Proof.Machine.execSlotctlPresent core slot s
  | .teamRetirement team => Sys2Proof.Machine.execTeamRetirement team s
  | .dependencePoll slice launch => Sys2Proof.Machine.execDependencePoll slice launch s
  | .bench team => Sys2Proof.Machine.execBench team s
  | .codepRebindTick slice launch cluster => Sys2Proof.Machine.execCodepRebindTick slice launch cluster s
  | .preempt team => Sys2Proof.Machine.execPreempt team s
  | .xljwaitTimeout hart => Sys2Proof.Machine.execXljwaitTimeout hart s
  | .fqdoneRetry die index => Sys2Proof.Machine.execFqdoneRetry die index s
  | .fqdoneDeliver die index => Sys2Proof.Machine.execFqdoneDeliver die index s
  | .ringBaseWrite ring value => Sys2Proof.Machine.execRingBaseWrite ring value s
  | .ringCtlWrite ring value => Sys2Proof.Machine.execRingCtlWrite ring value s
  | .ringHeadWrite ring value => Sys2Proof.Machine.execRingHeadWrite ring value s
  | .qctlWrite qnum value => Sys2Proof.Machine.execQctlWrite qnum value s
  | .queueDisable qnum => Sys2Proof.Machine.execQueueDisable qnum s
  | .heapWrite size value => Sys2Proof.Machine.execHeapWrite size value s
  | .cecountClear slice unit => Sys2Proof.Machine.execCecountClear slice unit s
  | .controlRegisterWrite offset value => Sys2Proof.Machine.execControlRegisterWrite offset value s
  | .dreqPreempt => Sys2Proof.Machine.execDreqPreempt s
  | .dreqKill => Sys2Proof.Machine.execDreqKill s
  | .dreqHold => Sys2Proof.Machine.execDreqHold s
  | .dreqRelease => Sys2Proof.Machine.execDreqRelease s
  | .creqReleaseTop => Sys2Proof.Machine.execCreqReleaseTop s
  | .creqResizeAdd arg mgmt => Sys2Proof.Machine.execCreqResizeAdd arg mgmt s
  | .creqResizeRemove arg mgmt => Sys2Proof.Machine.execCreqResizeRemove arg mgmt s
  | .creqSign => Sys2Proof.Machine.execCreqSign s
  | .creqRestore => Sys2Proof.Machine.execCreqRestore s
  | .vfreezeFreeze vf => Sys2Proof.Machine.execVfreezeFreeze vf s
  | .vfreezeThaw vf => Sys2Proof.Machine.execVfreezeThaw vf s
  | .freezeRollback vf => Sys2Proof.Machine.execFreezeRollback vf s
  | .sfenceVma of va => Sys2Proof.Machine.execSfenceVma of va s
  | .hfence vmid asid va => Sys2Proof.Machine.execHfence vmid asid va s
  | .hbeat value => Sys2Proof.Machine.execHbeat value s
  | .heartbeatMissed => Sys2Proof.Machine.execHeartbeatMissed s
  | .scrub => Sys2Proof.Machine.execScrub s
  | .pwrreq value => Sys2Proof.Machine.execPwrreq value s
  | .fcodeStep => Sys2Proof.Machine.execFcodeStep s
  | .powerSample power => Sys2Proof.Machine.execPowerSample power s
  | .clusterStart => Sys2Proof.Machine.execClusterStart s
  | .powerUp => Sys2Proof.Machine.execPowerUp s
  | .partitionCreate d => Sys2Proof.Machine.execPartitionCreate d s
  | .firewallViolation src => Sys2Proof.Machine.execFirewallViolation src s
  | .dieLink link src => Sys2Proof.Machine.execDieLink link src s
  | .ideFail src => Sys2Proof.Machine.execIdeFail src s
  | .debugAccess src => Sys2Proof.Machine.execDebugAccess src s
  | .slicePortAuthFail slice => Sys2Proof.Machine.execSlicePortAuthFail slice s
  | .sliceReset slice => Sys2Proof.Machine.execSliceReset slice s
  | .ideKeyProgram port pf fn stream => Sys2Proof.Machine.execIdeKeyProgram port pf fn stream s
  | .getVersion fn => Sys2Proof.Machine.execGetVersion fn s
  | .getCapabilities fn => Sys2Proof.Machine.execGetCapabilities fn s
  | .negotiateAlgorithms fn => Sys2Proof.Machine.execNegotiateAlgorithms fn s
  | .getDigests fn => Sys2Proof.Machine.execGetDigests fn s
  | .getCertificate fn => Sys2Proof.Machine.execGetCertificate fn s
  | .challenge fn => Sys2Proof.Machine.execChallenge fn s
  | .getMeasurements fn => Sys2Proof.Machine.execGetMeasurements fn s
  | .keyExchange fn => Sys2Proof.Machine.execKeyExchange fn s
  | .hostHartAccess hart acc => Sys2Proof.Machine.execHostHartAccess hart acc s
  | .interruptPending hart => Sys2Proof.Machine.execInterruptPending hart s
  | .streamStop port stream => Sys2Proof.Machine.execStreamStop port stream s
  | .functionReset pf fn => Sys2Proof.Machine.execFunctionReset pf fn s
  | .slicePortFrame slice acc => Sys2Proof.Machine.execSlicePortFrame slice acc s
  | .hostPortRequest fn acc => Sys2Proof.Machine.execHostPortRequest fn acc s

end Sys2Proof.Machine
end

