-- ==== Sys2Proof/Machine/Inputs.lean ====
section
/-! DEFINITION. What reaches the machine from outside and is no row of the opcode table: errors of the hardware (R84, R153, R163,
R203, R321, R322), harts taken offline (R316), what Castle programs (R20, R22, R197, R334, R346), and what management asks for (R335). -/

namespace Sys2Proof.Machine

/-! ### Errors -/

/-- UNIT of an error-queue record for a unit of a slice (R309, R322). -/
def unitCode (i u : Nat) : Nat :=
  i + (if u < 16 then 256 * u else if u < 18 then 16 + 256 * (u - 16) else 32 + 256 * (u - 18))

/-- A single-bit error corrected in a unit (R84, R322): it is counted, and the count's crossing of a threshold that is not 0 writes
a record of KIND 1. DEDUCED: assumption 94. -/
def State.countCorrected (s : State) (i u : Nat) : State :=
  if s.nsl ≤ i ∨ 34 ≤ u then s else
  let x := s.slice i
  let n := Tab.get 0 x.ceCount u + 1
  let lim := Tab.get 0 x.ceThresh u
  let s := s.setSlice i { x with ceCount := Tab.set x.ceCount u n }
  if lim ≠ 0 ∧ n = lim then s.errorRecord 0 (unitCode i u) 1 n.toNat else s

/-- An uncorrectable word of a register line that a core's pool holds (R84): it is poisoned. -/
def State.spoilRegister (s : State) (core team lane n : Nat) : State :=
  let t := s.team team
  let q := t.laneBlock lane
  if !(s.core core).hasLine team q n then s
  else if (t.thread lane).loc = .vacant then
    s.setTeam team (if t.padBad.contains (q, n) then t else { t with padBad := t.padBad ++ [(q, n)] })
  else s.updThread team lane (fun x => { x with bad := setIns x.bad n })

/-- An uncorrectable s register of a resident team (R84). -/
def State.spoilUniform (s : State) (team gang n : Nat) : State :=
  let t := s.team team
  if t.isResident && decide (gang < t.gangs) && decide (0 < n) && decide (n < 32) then
    s.setTeam team { t with sbad := setIns t.sbad (32 * gang + n) }
  else s

/-- An uncorrectable word of a resident team's files (R84). -/
def State.loseFile (s : State) (team w : Nat) : State :=
  if (s.team team).isResident && fileWords.contains w then s.spoilFile team w else s

/-- An uncorrectable word of a scratchpad tile of a resident team (R163). -/
def State.spoilTile (s : State) (team n word : Nat) : State :=
  let t := s.team team
  match t.h.find? n with
  | none => s
  | some h =>
    if t.isResident && decide (word < 1024 * h.units) then
      s.setTeam team { t with h := t.h.set n { h with bad := setIns h.bad word } }
    else s

/-- An uncorrectable element of an accumulator tile (R203). -/
def State.spoilAcc (s : State) (cl elem : Nat) : State :=
  if (s.clusters.find? cl).isSome ∧ elem < 8 * 65536 then
    s.updMatrix cl (fun m => { m with accBad := setIns m.accBad elem })
  else s

/-- An uncorrectable error of HBM (R321): its 64 bytes are poisoned, the error queue has a record, the error interrupt is raised,
and Castle counts it. -/
def State.hbmError (s : State) (pa : Nat) : State :=
  if s.memEnd ≤ pa then s else
  let a := pa - pa % 64
  let s := s.setMem (s.mem.poison a 64)
  let s := s.setPart { s.part with ueCount := s.part.ueCount + 1 }
  s.errorRecord a (s.channelUnit a) 0 0

/-- The 64 granules of a word of a base die's zero map: as many places of the channel group that follow one another.
DEDUCED: assumption 94. -/
def State.mapGranules (s : State) (pa : Nat) : List Nat :=
  let n := max 1 s.nsl
  let i := (homeOf s.channels n pa).1
  let q := pa / 256 / n
  ((upto (64 * (q / 64)) 64).map (granuleOf s.channels n i)).filter (fun g => decide (256 * g < s.memEnd))

/-- An uncorrectable word of the zero map (R153): its 64 granules read as poisoned. DEDUCED: assumption 94. -/
def State.mapError (s : State) (pa : Nat) : State :=
  if s.memEnd ≤ pa then s else s.setMem ((s.mapGranules pa).foldl (fun m g => m.poison (256 * g) 256) s.mem)

/-! ### Castle and management -/

/-- A host port's mode, fixed at boot: before any partition is formed (R334). -/
def Castle.setMode (c : Castle) (port : Nat) (cxl : Bool) : Castle :=
  if c.descs.isEmpty && decide (port < 4) then { c with hostPorts := c.hostPorts.set port { cxl := cxl, hdm := [] } } else c

/-- The HDM ranges of a host port in CXL mode (R334). -/
def Castle.setHdm (c : Castle) (port : Nat) (l : List (Nat × Nat)) : Castle :=
  if (c.hostPort port).cxl && decide (port < 4) then { c with hostPorts := c.hostPorts.set port { c.hostPort port with hdm := l } } else c

/-- Defective units of a slice that no partition holds, disabled (R346): a channel group has 16 channels or 8. -/
def Castle.disable (c : Castle) (x : Nat) (u : SliceUnits) : Castle :=
  if c.owned.contains x || decide (16 ≤ x) || !(u.channels == 8 || u.channels == 16) then c
  else { c with units := c.units.set x u }

/-- The clock of a partition that is not modelled in full takes a code, and the rails of the dies follow (R342). -/
def State.otherClock (s : State) (p f : Nat) : State :=
  if p = s.pid ∨ 5 < f ∨ (s.castle.descs.find? p).isNone = true then s else
  let s := s.setCastle { s.castle with codes := Tab.set s.castle.codes p f }
  s.setRails (max s.part.fcode (s.part.pwrPending.getD 0))

/-- An input. DESIGN CHOICE: assumption 96. -/
def State.takeInput (s : State) (x : Input) : State :=
  match x with
  | .corrected i u => s.countCorrected i u
  | .registerWord c k j n => s.spoilRegister c k j n
  | .uniformWord k g n => s.spoilUniform k g n
  | .fileWord k w => s.loseFile k w
  | .tileWord k h w => s.spoilTile k h w
  | .accWord cl e => s.spoilAcc cl e
  | .hbm pa => s.hbmError pa
  | .mapWord pa => s.mapError pa
  | .hartOffline h off => if (s.harts.find? h).isSome then s.setHart h { s.hart h with offline := off } else s
  | .hostPort p cxl => s.setCastle (s.castle.setMode p cxl)
  | .hdm p l => s.setCastle (s.castle.setHdm p l)
  | .slicePort x p => if x < 16 then s.setCastle { s.castle with slicePorts := s.castle.slicePorts.set x p } else s
  | .degrade x u => s.setCastle (s.castle.disable x u)
  | .resizeTarget r => s.setCastle { s.castle with target := r }
  | .scopePol v => s.setPart { s.part with scopePol := v }
  | .clock p f => s.otherClock p f
  | .readIdentity => s.answer (.identity (Config.layout 0 []))
  | .linkRefused die source => if s.castle.refuses die source then s.dropPacket die (.host s.pid) else s
  | .readLog => if s.castle.lockdown then s else s.answer (.log s.castle.log)

end Sys2Proof.Machine
end

