-- ==== Sys2Proof/Machine/Next.lean ====
section
/-! DEFINITION. What each unit does in its turn: the core's choice among its own events and the instruction that its port
issues (R34, R43), a hart's fetch (R258), and the asynchronous units; and what every step settles. The order in which
units take turns is the model's own; a schedule replaces it by any other. -/

namespace Sys2Proof.Machine

/-- The next state of an outcome, changed. -/
def mapNext (f : State → State) (o : Host.Outcome State Fault Refusal) : Host.Outcome State Fault Refusal :=
  match o with
  | .next s => .next (f s)
  | .fault r => .fault r
  | .refused r => .refused r

/-- The state that an event leads to, when it changes anything. -/
def State.does (s : State) (i : Instr) : Option State :=
  match exec i s with
  | .next s' => if s' = s then none else some s'
  | _ => none

/-- The first event of a list that changes anything. DESIGN CHOICE: assumption 3. -/
def State.firstOf (s : State) (l : List Instr) : Option State := l.findSome? s.does

/-! ### A core's turn -/

/-- What a core does in its turn: an event of the part, the issue of an instruction or of a word that is none, the passing of
groups that have no thread left, the noting of a cycle that an issue waits for, or nothing. -/
inductive Job where
  | event (i : Instr)
  | issue (i : Option Instr)
  | skip
  | wait (till : Nat)
  | idle
  deriving DecidableEq, Repr

/-- Is a word of R114's second kind: the halves of a body's word that would have a header's form? -/
def wordIllegal (p : Pass) : Bool :=
  let w := fieldAt p.body p.off 4
  p.off % 4 == 2 && natBits w 19 6 == 0x3F && natBit w 16

/-- The instruction that a pass issues next, none where R114 or R142 makes the word illegal. -/
def Pass.insn (p : Pass) : Option Instr :=
  match decodeBytes (p.body.drop p.off) with
  | .error _ => none
  | .ok (i, n) => if n == 4 && wordIllegal p then none else some i

/-- A pass of a team that is leaving, between two instructions (R301). -/
def State.stuck (s : State) (p : Pass) : Bool := (s.team p.team).leaving.isSome && p.k == 0

/-- The passes that issue no further instruction marked (R301). -/
def State.stopLeaving (s : State) (c : Nat) : State :=
  s.updCore c (fun k => { k with passes := k.passes.map (fun p => { p with stopped := s.stuck p }) })

/-- The MWAITs of a team whose timeouts have ended by a cycle (R293). -/
def Team.mwaitsDue (t : Team) (cc : Nat) : List Nat :=
  t.threads.filterMap (fun x => match x.2.loc with
    | .held (.monitor (some d) _) _ => if d ≤ cc then some x.1 else none
    | _ => none)

/-- Timeouts of a core that are due (R37, R165, R207, R293, R295). -/
def State.coreTimeout (s : State) (c : Nat) : Option Instr :=
  let core := s.core c
  let teams := s.resident c
  match teams.find? (fun k => s.fuse k == some 0) with
  | some k => some (.stalemateWatchdog k)
  | none =>
    match teams.find? (fun k => s.ageLeft c k == some 0) with
    | some k => some (.entryAgeTick c k)
    | none =>
    match teams.findSome? (fun k => ((s.team k).mwaitsDue core.cc).head?.map (fun j => (k, j))) with
    | some (k, j) => some (.mwaitTimeout k j)
    | none =>
      core.passes.findSome? (fun p => match p.wait with
        | some (.rget _ _ _ _ since) => if since + 1024 ≤ core.cc then some (.rgetWaitTimeout c) else none
        | some (.post _ _ _ _ since) => if since + 1024 ≤ core.cc then some (.enginePostTimeout c) else none
        | none => none)

/-- A result or reply of a team that is to be written before its core goes on (R45). -/
def State.pendingResult (s : State) (c k : Nat) : Option Instr :=
  match (s.team k).results with
  | r :: _ => some (if r.load then .loadReply k else .resultWriteback k)
  | [] => ((s.core c).atq.findIdx? (fun a => a.team == k)).map (fun i => .atomAtHome c i)

/-- Where every line of a core is pinned or in use, the first write of a result that pins one (R74). -/
def State.unpin (s : State) (c : Nat) : Option Instr :=
  if s.linesTaken c then (s.resident c).findSome? (s.pendingResult c) else none

/-- What the successor evaluation of an ended pass waits for, or it (R30, R73). -/
def State.endedJob (s : State) (c : Nat) (p : Pass) : Instr :=
  match s.pendingResult c p.team with
  | some i => i
  | none =>
    match (s.core c).missing p.team (s.succLines p) with
    | some (q, n) => (s.unpin c).getD (.registerLineFetch c p.team q n)
    | none => .successorEvaluation c

/-- The updates that an NMRED sends for a group: one for each issued real thread whose guard is 1 (R249). -/
def State.nmCount (s : State) (x : Ctx) (i : Instr) : Nat :=
  match i with
  | .nmred f => (x.group.filter (fun j => !(s.team x.team).isPawn j && s.guardOn x (some f.p.toNat) j)).length
  | _ => 0

/-- Has the core no room for the updates that the instruction sends (R249)? -/
def State.nmFull (s : State) (c : Nat) (x : Ctx) (i : Instr) : Bool :=
  decide (0 < s.nmCount x i) && decide (256 < (s.core c).nmq.length + s.nmCount x i)

/-- Does the instruction of a pass reach a register of a result that is on its way (R45, R126)? -/
def State.reaches (s : State) (p : Pass) (x : Ctx) : Bool :=
  match p.insn with
  | none => false
  | some i => (s.team p.team).results.any (fun r => !r.ss.isEmpty || r.vs.any (fun v =>
      (s.linesFor x i).any (fun l => l.1 == (s.team p.team).laneBlock v.1 && l.2.1 == v.2.1)))

/-- What the issue of a pass waits for of the team's results (R45): one that follows an earlier write to its register, and is not
available in the cycle of the issue (R126), holds back the instructions that reach it alone. -/
def State.awaits (s : State) (c : Nat) (p : Pass) (x : Ctx) : Option Job :=
  match s.pendingResult c p.team with
  | none => none
  | some i =>
    match (s.team p.team).results.head?.map (s.team p.team).resultAt with
    | some a => if s.issueCycle c p < a then (if s.reaches p x then some (.wait a) else none) else some (.event i)
    | none => some (.event i)

/-- What the issue of a pass waits for, or it (R43, R45, R73, R249). -/
def State.servedJob (s : State) (c : Nat) (p : Pass) (x : Ctx) : Job :=
  if p.absent then .skip else
  match s.awaits c p x with
  | some j => j
  | none =>
    match p.insn with
    | none => .issue none
    | some i =>
      match (s.core c).missing p.team (s.linesFor x i) with
      | some (q, n) => .event ((s.unpin c).getD (.registerLineFetch c p.team q n))
      | none => if s.nmFull c x i then .event (.nmredUpdatePerformed c 0) else .issue (some i)

/-- Can the core start a pass (R34, R275)? -/
def State.canStart (s : State) (c : Nat) : Bool :=
  decide ((s.core c).passes.length < 4) && !s.halted && !(s.startable c).isEmpty

/-- The cycles that elapse on a core before what it does: those that its clock lags, or those before the cycle of an issue. -/
def State.jobCycles (s : State) (c : Nat) : Job → Nat
  | .event (.passStart _) | .idle => s.lag c
  | .issue _ => match (s.core c).served with
    | some p => s.issueCycle c p - (s.core c).cc - 1
    | none => 0
  | .skip => match (s.core c).served with
    | some p => p.due - (s.core c).cc
    | none => 0
  | _ => 0

/-- What a core does unless a watchdog fires within the cycles that elapse first (R295, R464): the watchdog that fires first then
comes before it. -/
def State.unlessWatched (s : State) (c : Nat) (j : Job) : Job :=
  match minBy (fun k => (s.fuse k).getD 0) ((s.resident c).filter (fun k =>
      ((s.fuse k).map (fun n => decide (n ≤ s.jobCycles c j))).getD false)) with
  | some k => .event (.stalemateWatchdog k)
  | none => j

/-- Does an ended pass wait for a result that is not available yet, while the port serves another (R126)? -/
def State.endsLater (s : State) (c : Nat) (p : Pass) : Bool :=
  (s.core c).served.isSome
    && (((s.team p.team).results.head?.map (fun r => decide ((s.core c).cc + 1 < (s.team p.team).resultAt r))).getD false)

/-- What a core does in its turn: a timeout that is due; else the successors of its earliest ended pass; else it starts a
pass; else its port serves the pass that R34 gives. -/
def State.coreWork (s : State) (c : Nat) : Job :=
  match s.coreTimeout c with
  | some i => .event i
  | none =>
    match (s.core c).ended.find? (fun p => !s.endsLater c p) with
    | some p => .event (s.endedJob c p)
    | none =>
      if s.canStart c then .event (.passStart c) else
      match (s.core c).served, s.ctxOf c with
      | some p, some x => s.servedJob c p x
      | _, _ => .idle

/-- A core's job in its turn, once its cluster has started. -/
def State.coreJob (s : State) (c : Nat) : Job :=
  if !(s.cluster (coreCluster c)).started then .idle else s.unlessWatched c (s.coreWork c)

/-- The state in which a core's served pass issues an instruction (R43, R75, R162): the clock at the issue cycle, the last of
those that the instruction takes of the port, and the register lines it reaches used. -/
def State.begin (s : State) (c : Nat) (p : Pass) (i : Option Instr) : State :=
  let s := s.issueAt c p
  match i, s.ctxOf c with
  | some i, some x =>
    let s := s.tickTo c ((s.core c).cc + (s.portCycles x i - 1))
    s.updCore c (fun k => k.touch p.team (s.linesFor x i))
  | _, _ => s

/-- A word that is no instruction traps ILLEGAL_OP in every issued thread (R114, R142). -/
def State.illegalWord (s : State) : State :=
  match s.ctx with
  | none => s
  | some x => s.trapReal x.team (sortNat x.group) x.illegal

/-- The issue of a core's served pass: the instruction's meaning between the issue cycle and the pass's advance. -/
def State.issue (s : State) (c : Nat) (p : Pass) (i : Option Instr) : Host.Outcome State Fault Refusal :=
  let s1 := s.begin c p i
  let cycle := (s1.core c).cc
  match i with
  | none => .next (s1.illegalWord.advance c p.team cycle)
  | some i => mapNext (fun s2 => s2.advance c p.team cycle) (exec i s1)

/-- A core's turn. -/
def State.coreTurn (s : State) (c : Nat) : Host.Outcome State Fault Refusal :=
  match s.coreJob c with
  | .event i => exec i s
  | .issue i =>
    match (s.core c).served with
    | some p => s.issue c p i
    | none => .next s
  | .skip =>
    match (s.core c).served with
    | some p => .next (s.skipPass c p)
    | none => .next s
  | .wait a =>
    match (s.core c).served with
    | some p => .next (s.updPass c p.team (fun p => { p with floor := a }))
    | none => .next s
  | .idle => .next (s.syncCore c)

/-! ### A hart's turn (R258) -/

/-- A hart's instruction bytes at an address. -/
def State.hartFetch (s : State) (n : Nat) (va : DWord) : Except HartExc (List Byte) × State :=
  match s.hartPieces n .exec [(va, 2)] with
  | (.error e, s) => (.error e, s)
  | (.ok l, s) =>
    match s.readPieces l with
    | (none, s) => (.error (.fetchFault va), s)
    | (some b, s) => (.ok b, s)

/-- A hart that runs executes the word at its pc: Xthelor's by their meanings, a custom-0 word that is none of them by an
illegal-instruction exception (R258), and RISC-V's own are outside the model. DESIGN CHOICE: assumption 34. -/
def State.hartIssue (s : State) (n : Nat) : Host.Outcome State Fault Refusal :=
  let pc := (s.hart n).pc
  match s.hartFetch n pc with
  | (.error e, s) => .next (s.hartExc n e)
  | (.ok lo, s) =>
    if ofBytes lo % 4 ≠ 3 then .refused (.hostIsa (BitVec.ofNat 32 (ofBytes lo))) else
    match s.hartFetch n (pc + 2) with
    | (.error e, s) => .next (s.hartExc n e)
    | (.ok hi, s) =>
      let w : Word := BitVec.ofNat 32 (ofBytes (lo ++ hi))
      match decodeHost w with
      | .ok i => exec i s
      | .error _ => if w.extractLsb' 0 7 = 0x0B then .next (s.hartExc n (.illegal w)) else .refused (.hostIsa w)

/-- A hart's turn: one that waits in XLJWAIT goes on at its end (R265); one that is offline, or has raised an exception that
its software has not taken, does nothing. DESIGN CHOICE: assumption 34. -/
def State.hartTurn (s : State) (n : Nat) : Host.Outcome State Fault Refusal :=
  let h := s.hart n
  match h.jwait with
  | some j => if j.till ≤ s.part.wall then exec (.xljwaitTimeout n) s else .next s
  | none => if h.offline || h.exc.isSome || !h.running then .next s else s.hartIssue n

/-! ### Time -/

/-- The timers of a core: the wall time at which each ends, and the step that it then takes (R37, R165, R207, R293, R295).
DEDUCED: assumption 46. -/
def State.coreTimers (s : State) (c : Nat) : List (Nat × Instr) :=
  let core := s.core c
  let u := Config.unitsPerCc s.part.fcode
  let at_ := fun (d : Nat) => core.wall + (d - core.cc) * u
  (s.resident c).flatMap (fun k =>
      let t := s.team k
      t.threads.filterMap (fun x => match x.2.loc with
        | .held (.monitor (some d) _) _ => some (at_ d, Instr.mwaitTimeout k x.1)
        | _ => none)
      ++ (match s.fuse k with
        | some n => [(core.wall + n * u, Instr.stalemateWatchdog k)]
        | none => [])
      ++ (match s.ageLeft c k with
        | some n => if s.inProgress c k then [] else [(core.wall + n * u, Instr.entryAgeTick c k)]
        | none => []))
    ++ core.passes.filterMap (fun p => match p.wait with
      | some (.rget _ _ _ _ since) => some (at_ (since + 1024), Instr.rgetWaitTimeout c)
      | some (.post _ _ _ _ since) => some (at_ (since + 1024), Instr.enginePostTimeout c)
      | none => none)

/-- The timers of a slice: monitor-table records (R294), and for co-dependent launches the rebinding of benched teams (R277)
and the benching of held ones to admit teams that are not bound (R276, R277). DEDUCED: assumption 74. -/
def State.sliceTimers (s : State) (i : Nat) : List (Nat × Instr) :=
  let sl := s.slice i
  sl.monitors.filterMap (fun r => r.left.map (fun n => (s.wallOf (r.since + n), Instr.monitorTableTimeout i r.team)))
    ++ sl.launches.flatMap (fun e =>
      if !geomCodep e.2.geom then [] else
      let mine := s.teams.filter (fun t => t.2.grid == e.2.seq)
      let rebind := (s.awayOf e.2).flatMap (fun k => s.clusterNums.map (fun cl =>
        ((s.team k).heldSince.getD 0 + msUnits, Instr.codepRebindTick i e.1 cl)))
      let bench := if (s.awayOf e.2).isEmpty && e.2.fresh.isEmpty then [] else
        (mine.filter (fun t => t.2.isResident && t.2.idle)).map (fun t =>
          (t.2.heldSince.getD s.part.wall + 1000 * s.part.benchUs * Config.unitsPerNs, Instr.bench t.1))
      rebind ++ bench)

/-- The timers of a cluster's engines: shadow planes that another team keeps (R215), and a restarted activity ramp (R231). -/
def State.clusterTimers (s : State) (cl : Nat) : List (Nat × Instr) :=
  let m := (s.cluster cl).matrix
  (m.table.filterMap (fun r => r.2.shadowWait)).map (fun t => (s.wallOf (t + 4096), Instr.shadowPlaneTimeout cl))
    ++ (if m.ramp != 0 then [(s.wallOf m.rampEnd, Instr.engineRampTick cl)] else [])

/-- The timers of the partition: freezes that wait for a guest's switch (R329), the heartbeat's period and a freeze's grace period
(R339, R340), and the firmware's samples (R345). -/
def State.partTimers (s : State) : List (Nat × Instr) :=
  s.vdevs.filterMap (fun v => v.2.deadline.map (fun d => (d, Instr.freezeRollback v.1)))
    ++ (if s.desc.state == 0 then [] else
        [match s.part.frozen with
          | none => (s.part.beatDue + 1, Instr.heartbeatMissed)
          | some t => (graceEnd t + 1, Instr.scrub),
        (s.part.sampleAt + samplePeriod, Instr.powerSample (Config.sampledPower s.part.samples))])

/-- The steps of the timers that have come due. -/
def State.due (s : State) (l : List (Nat × Instr)) : List Instr :=
  (l.filter (fun t => decide (t.1 ≤ s.part.wall))).map Prod.snd

/-- Every timer of the machine (R265 beside the above). -/
def State.timers (s : State) : List (Nat × Instr) :=
  s.cores.keys.flatMap s.coreTimers
    ++ s.slices.keys.flatMap s.sliceTimers
    ++ s.harts.filterMap (fun h => h.2.jwait.map (fun j => (j.till, Instr.xljwaitTimeout h.1)))
    ++ s.clusters.keys.flatMap s.clusterTimers
    ++ s.partTimers

/-! ### The other units -/

/-- The register-line fetch of a core that has waited longest (R73). -/
def State.prefetch (s : State) (c : Nat) : List Instr :=
  let k := s.core c
  ((k.want.find? (fun l => decide ((s.team l.1).onCore = some c) && !k.hasLine l.1 l.2.1 l.2.2)).map (fun l =>
    Instr.registerLineFetch c l.1 l.2.1 l.2.2)).toList

/-- What a core's memory traffic can do next: arrivals, signatures, armings, atomics, updates, stores and register lines. -/
def State.homeEvents (s : State) (c : Nat) : List Instr :=
  [.barrierArrival c, .ksignSignature c, .monitorArming c, .atomAtHome c 0, .nmredUpdatePerformed c 0,
    .storePerformedAtHome c 0] ++ s.prefetch c

/-- What a cluster's engines can do next: the timers that are due, then what they can go on with. -/
def State.clusterEvents (s : State) (cl : Nat) : List Instr :=
  let x := s.cluster cl
  s.due (s.clusterTimers cl) ++ [.matrixRequestAccept cl]
    ++ (x.matrix.table.keys).flatMap (fun i => [.matrixRequestComplete cl i, .matrixOperandFault cl i])
    ++ [.matrixGrant cl, .copyCommandAccept cl]
    ++ (x.copy.table.keysOf (fun e => e.fn != 0x30)).flatMap (fun i =>
      [.copyCommandComplete cl i, .copyChunkFault cl i, .copyChunkWritten cl i])
    ++ [.copyChannelGrant cl]

/-- What a die's digest path can do next. -/
def dieEvents (d : Nat) : List Instr := [.dgstComplete d, .dgstPathGrant d]

/-- The launches of a slice that wait for a place (R278): their memory is there, and no cluster takes their first league.
DEDUCED: assumption 74. -/
def State.unplaced (s : State) (i : Nat) : List Launch :=
  (((s.slice i).launches.map Prod.snd).filter (fun x => x.depMet && (match s.leaguesOf x with
    | e :: _ => (s.leagueMemory x e.2).isSome && s.clusterNums.all (fun cl => (s.placeIn x e.2 cl).isNone)
    | [] => false)))

/-- The team that makes room for a launch of higher priority (R278): of the lowest priority, the latest bound.
DEDUCED: assumption 74. -/
def State.victim (s : State) (i : Nat) : Option Nat :=
  let prio := (s.unplaced i).foldl (fun p x => max p (geomPrio x.geom)) 0
  let ks := (s.teams.filter (fun t => t.2.isResident && t.2.leaving.isNone && decide (t.2.prio < prio))).map Prod.fst
  minBy (fun k => (s.team k).prio * 2 ^ 64 + (s.nextBind - (s.team k).bound)) ks

/-- What a slice's dispatch core and queue unit can do next: the timers that are due (R277, R294), then the rest. -/
def State.sliceEvents (s : State) (i : Nat) : List Instr :=
  let sl := s.slice i
  let teams := s.teams.keysOf (fun t => t.slice == i)
  s.due (s.sliceTimers i) ++ (upto (16 * sl.number) 16).flatMap (fun c =>
      ((s.core c).slots.keysOf (fun x => x.state == 1)).map (fun n => .slotctlPresent c n))
    ++ teams.flatMap (fun k => [.syscallGatherComplete k, .teamRetirement k])
    ++ sl.launches.keys.map (fun l => .dependencePoll i l)
    ++ sl.launches.keys.flatMap (fun l => s.clusterNums.map (fun cl => .dispatchBind i l cl))
    ++ sl.queues.keys.map (fun q => .queueSpawn (64 * i + q))
    ++ (match s.victim i with
      | some k => [.preempt k]
      | none => [])

/-- What happens in the partition of itself: its timers end, its clusters start, and its clock takes a requested code (R329, R339
to R342, R345). -/
def State.partEvents (s : State) : List Instr :=
  s.due s.partTimers ++ (if s.desc.state == 1 then [.clusterStart, .fcodeStep] else [])

/-- The events that a unit other than a core and a hart chooses from. DESIGN CHOICE: assumption 3. -/
def State.unitEvents (s : State) : Turn → List Instr
  | .core _ => []
  | .home c => s.homeEvents c
  | .cluster cl => s.clusterEvents cl
  | .die d => dieEvents d
  | .slice i => s.sliceEvents i
  | .hart _ => []
  | .part => s.partEvents

/-! ### The passing of time -/

/-- A timer put in its place in the order of time. -/
def insertTimer (x : Nat × Instr) : List (Nat × Instr) → List (Nat × Instr)
  | [] => [x]
  | y :: r => if x.1 ≤ y.1 then x :: y :: r else y :: insertTimer x r

/-- The units of the partition in the order in which they take turns. DESIGN CHOICE: assumption 3. -/
def State.units (s : State) : List Turn :=
  s.cores.keys.map .core ++ s.cores.keys.map .home ++ s.clusters.keys.map .cluster ++ s.dies.keys.map .die
    ++ s.slices.keys.map .slice ++ (s.harts.keysOf (fun h => h.running)).map .hart ++ [.part]

/-- Has a unit nothing to do but wait? -/
def State.waits (s : State) (t : Turn) : Bool :=
  match t with
  | .core c => decide (s.coreJob c = .idle)
  | .hart n => let h := s.hart n; h.jwait.isSome || h.offline || h.exc.isSome || !h.running
  | t => (s.firstOf (s.unitEvents t)).isNone

/-- The state at the end of a timer, when its step changes anything. -/
def State.endTimer (s : State) (t : Nat × Instr) : Option State :=
  (s.setPart { s.part with wall := max t.1 s.part.wall }).does t.2

/-- When every unit waits, time goes on to the first timer whose step changes anything. DESIGN CHOICE: assumption 3. -/
def State.passTime (s : State) : State :=
  if s.units.all s.waits then ((s.timers.foldr insertTimer []).findSome? s.endTimer).getD s else s

/-! ### Turns -/

/-- A unit's turn, and whether it keeps it: the traffic of a core does until it has nothing left to do.
DESIGN CHOICE: assumption 3. -/
def State.unitTurn (s : State) (t : Turn) : Host.Outcome State Fault Refusal × Bool :=
  match t with
  | .core c => if (s.cores.find? c).isNone then (.fault .noUnit, false) else (s.coreTurn c, false)
  | .hart n => if (s.harts.find? n).isNone then (.fault .noUnit, false) else (s.hartTurn n, false)
  | .part => (.next ((s.firstOf s.partEvents).getD s.passTime), false)
  | .home c => match s.firstOf (s.homeEvents c) with
    | some s => (.next s, true)
    | none => (.next s, false)
  | t => (.next ((s.firstOf (s.unitEvents t)).getD s), false)

/-- The wall time at which the pass that a core's port serves goes on. -/
def Core.nextAt (k : Core) (u : Nat) : Option Nat := k.served.map (fun p => k.wall + (k.goesOn p - k.cc) * u)

/-- Would a core go on later in time than another? DESIGN CHOICE: assumption 3. -/
def State.ahead (s : State) (t : Turn) : Bool :=
  match t with
  | .core c =>
    let u := Config.unitsPerCc s.part.fcode
    match (s.core c).nextAt u with
    | some n => s.cores.any (fun k => ((k.2.nextAt u).map (fun m => decide (m < n))).getD false)
    | none => false
  | _ => false

/-- The unit after another, in turn; cores take their turns in the order of time (R376). DESIGN CHOICE: assumption 3. -/
def State.unitAfter (s : State) (t : Turn) : Turn :=
  (((s.units.dropWhile (fun u => decide (u ≠ t))).drop 1 ++ s.units).find? (fun u => !s.ahead u)).getD .part

/-- What every step settles: ring slots that were waited for (R165), passes that have ended and entries selected (R34, R35),
teams that have been asked to leave (R301), what killed requests leave (R228), suspended commands that find room (R302), and requests under way (R311, R315, R329). -/
def State.settle (s : State) : State :=
  let s := s.settleAborted.serveRings
  let s := s.cores.keys.foldl (fun s c => s.settleCore c) s
  let s := (s.teams.keysOf (fun t => t.leaving.isSome)).foldl (fun s k => s.leaveIfReady k) s
  let s := s.teams.keys.foldl (fun s k =>
    match (s.team k).state, (s.team k).susp with
    | .resident c _, x :: l => s.reenter c k (x :: l)
    | _, _ => s) s
  let s := s.cores.keys.foldl (fun s c => (s.noteHeld c).noteWaits c) s
  let s := s.cores.keys.foldl (fun s c => s.stopLeaving c) s
  s.vdevs.keys.foldl (fun s v => s.moveFreeze v) s.moveDreq.moveStep

/-! ### What a step has written -/

/-- The bytes that memory lists of a block of n bytes. -/
def Memory.block (m : Memory) (n b : Nat) : List Host.Cell := m.cells.filter (fun c => c.1 / n == b)

/-- Bytes of a ring's records (R174, R297, R299, R322, R392). -/
def ringRecordBytes : RingId → Nat
  | .kill | .service _ => 64
  | .error | .fault _ | .plog _ => 32

/-- The rings of the partition. -/
def State.ringIds (s : State) : List RingId := [.kill, .error] ++ s.dies.keys.flatMap (fun d => [.fault d, .service d, .plog d])

/-- The lines of the records that a step from s0 has written to a ring. DEDUCED: assumption 113. -/
def State.emitted (s0 s : State) (r : RingId) : List Nat :=
  let old := (s0.ring r).tail
  let x := s.ring r
  let n := (x.tail - old).toNat
  if x.configured && decide (n ≤ 2 ^ x.log2n) then
    (upto 0 n).flatMap (fun i => linesOf (Ring.slotAt { x with tail := old + BitVec.ofNat 32 i } (ringRecordBytes r)) (ringRecordBytes r))
  else []

/-- The lines on which something waits for a write: XLJWAITs, monitors, and the monitor tables (R265, R292, R294). -/
def State.watched (s : State) : List Nat :=
  s.harts.filterMap (fun h => h.2.jwait.map (fun j => j.pa / 128))
    ++ s.teams.flatMap (fun t => t.2.threads.filterMap (fun x => x.2.mon.map Monitor.line))
    ++ s.slices.flatMap (fun x => x.2.monitors.flatMap MonRecord.lines)

/-- The watched lines that a step from s0 has written: those whose bytes differ, and those of ring records.
DEDUCED: assumption 113. -/
def State.touched (s0 s : State) : List Nat :=
  match s0.watched with
  | [] => []
  | ls =>
    let es := s.ringIds.flatMap (fun r => s0.emitted s r)
    ls.filter (fun l => es.contains l || decide (s0.mem.block 128 l ≠ s.mem.block 128 l))

/-- What waits for a write to a line finds what the part itself has written in a step from s0, such as an A or D bit or a record of
a ring: it is a store performed at home as any other (R170, R265, R292). DEDUCED: assumption 113. -/
def State.noteWrites (s0 s : State) : State :=
  let ls := s0.touched s
  let s := { s with harts := s.harts.mapVal (fun n (h : Hart) => match h.resv with
    | some b => if (s0.hart n).resv == some b && decide (s0.mem.block 64 b ≠ s.mem.block 64 b) then { h with resv := none } else h
    | none => h) }
  if ls.isEmpty then s else
  let s := s.linesWritten ls
  s.harts.foldl (fun s hx => match hx.2.jwait with
    | some j => if (s0.hart hx.1).jwait == some j && ls.contains (j.pa / 128) then s.jwaitRead hx.1 j else s
    | none => s) s

/-- The end of a step from s0: what it has written is noted, every step's settling, and what that has written is noted.
DEDUCED: assumption 113. -/
def State.finish (s0 s : State) : State :=
  let s := s0.noteWrites s
  s.noteWrites s.settle

/-- An instruction with an encoding, which only the unit that fetches it executes. DESIGN CHOICE: assumption 3. -/
def Instr.encoded (i : Instr) : Bool := (encode i).isSome

/-- The offset in the control space of the register that a step writes (R306 to R312), by which an XLJWAIT on its line ends (R265). -/
def RingId.offset : RingId → Nat
  | .kill => 0x080
  | .error => 0x0C0
  | .fault d => 0x100000 + 0x1000 * d
  | .service d => 0x100040 + 0x1000 * d
  | .plog d => 0x100080 + 0x1000 * d
def Instr.controlOffset (i : Instr) : Option Nat :=
  match i with
  | .hbeat _ => some 0x000
  | .pwrreq _ => some 0x010
  | .heapWrite _ _ => some 0x038
  | .dreqPreempt | .dreqKill | .dreqHold | .dreqRelease => some 0x048
  | .creqReleaseTop | .creqSign | .creqRestore => some 0x060
  | .creqResizeAdd _ mgmt | .creqResizeRemove _ mgmt => if mgmt then none else some 0x060
  | .ringBaseWrite r _ | .ringCtlWrite r _ | .ringHeadWrite r _ => some (RingId.offset r)
  | .fqdoneRetry d _ | .fqdoneDeliver d _ => some (0x100020 + 0x1000 * d)
  | .scdone d _ => some (0x100060 + 0x1000 * d)
  | .qctlWrite q _ | .queueDisable q => some (0x200000 + 0x2000 * (q / 64) + 64 * (q % 64))
  | .cecountClear i u => some (0x201000 + 0x2000 * i + 16 * u)
  | .vfreezeFreeze v | .vfreezeThaw v => some (0x300010 + 0x100 * v)
  | .controlRegisterWrite o _ => some o
  | _ => none

/-- A step: the next entry of the schedule, or the turn of the unit whose turn it is, and then what every step settles.
DESIGN CHOICE: assumption 3. -/
def State.nextStep (s : State) : Host.Outcome State Fault Refusal :=
  match s.sched with
  | .event i :: r =>
    let s := { s with sched := r }
    if Instr.encoded i then .next s
    else mapNext (fun s' => s.finish (match Instr.controlOffset i with
      | some o => s'.wakeControl o
      | none => s')) (exec i s)
  | .input x :: r => .next (s.finish ({ s with sched := r }.takeInput x))
  | .unit t :: r =>
    mapNext (fun s' => { s.finish s' with turn := s.turn }) (State.unitTurn { s with sched := r, turn := t } t).1
  | [] =>
    let (o, keep) := s.unitTurn s.turn
    mapNext (fun s' => let s' := s.finish s'; if keep then s' else { s' with turn := s'.unitAfter s.turn }) o

end Sys2Proof.Machine
end

