-- ==== Sys2Proof/Machine/Place.lean ====
section
/-! DEFINITION. Where an instruction stands that the next step fetches and runs: in the body of a core's active pass, or at
the pc of a host hart. -/

namespace Sys2Proof.Machine

/-- The partition of the state runs and holds slice 0. DESIGN CHOICE: assumption 4. -/
def State.powered (s : State) : State :=
  let d := s.desc
  let sl := if d.slmap.contains 0 then d.slmap else [0]
  s.setCastle { s.castle with descs := s.castle.descs.set s.pid { d with state := 1, slmap := sl } }

/-- A block header of KIND EXIT whose body is two halfwords (R113, R121, R122). -/
def placedW0 : Word := 0x040001F9
def placedW1 : Word := 5

/-- The team whose pass holds the instruction: four threads of one gang of 16, all in the pass (R24). -/
def placedTeam : Team :=
  { Team.empty with
    state := .resident 0 0, w := 16, t := 4, lastCore := some 0
    threads := (upto 0 4).map (fun j => (j, { Thread.empty with loc := .pass })) }

/-- The pass: its body is the instruction's bytes (R115). -/
def placedPass (k w start : Nat) : Pass :=
  { team := k, addr := 0, mid := false, hdr := 0, w0 := placedW0, w1 := placedW1, body := toBytes 4 w, groups := [upto 0 4],
    off := 0, k := 0, fresh := true, start := start, wprev := 0, prev := [], cur := [], issuing := false,
    wait := none, stopped := false, blocked := false, floor := 0 }

/-- The instruction in the body of the only pass of core 0, whose register lines are present.
DESIGN CHOICE: assumption 4. -/
def State.placeCore (s : State) (w : Nat) : State :=
  let s := s.powered
  let k := s.teams.freeKey 0
  let s := s.setCluster 0 { s.cluster 0 with started := true }
  let s := s.setTeam k placedTeam
  let core := s.core 0
  let lines : List RegLine := (upto 0 66).map (fun n => { team := k, q := 0, n := n, dirty := false })
  { s.setCore 0 { core with passes := [placedPass k w core.cc], ended := [], lines := lines } with
    sched := [], turn := .core 0 }

/-- The instruction at address 0, where host hart 0 is in M-mode. DESIGN CHOICE: assumption 4. -/
def State.placeHart (s : State) (w : Nat) : State :=
  let s := s.powered
  let s := s.setMem (s.mem.write 0 (toBytes 4 w))
  { s.setHart 0 { s.hart 0 with pc := 0, priv := .m, exc := none, jwait := none, offline := false, running := true } with
    sched := [], turn := .hart 0 }

end Sys2Proof.Machine
end

