-- ==== Sys2Proof/Machine/Step.lean ====
section
/-! DEFINITION. One step of the machine, and the state whose next step runs a given instruction. -/

namespace Sys2Proof.Machine

/-- One step: the next entry of the schedule, or else the turn of the unit whose turn it is. -/
def step (s : State) : Host.Outcome State Fault Refusal := s.nextStep

/-- The state with an instruction placed where the next step fetches: at a host hart's pc for a word of Xthelor (R258), else
in the pass that core 0 serves (R34, R115). DESIGN CHOICE: assumption 4. -/
def State.withFetchWord (s : State) (nbits w : Nat) : State :=
  if hostWord nbits w then s.placeHart w else s.placeCore (w % 2 ^ nbits)

end Sys2Proof.Machine
end

