-- ==== Sys2Proof/Safety.lean ====
section
/-! DEFINITION. What the statements call well-formed: the canonical form of memory, and what no run may lose. -/

namespace Sys2Proof.Machine

/-- Every thread's p0 reads 1 (R55). -/
def Team.predicatesOk (t : Team) : Bool := t.threads.all (fun x => x.2.p.getLsbD 0)

/-- The machine's invariant: memory is in its canonical form, and the measured action table is locked (R332). -/
def State.Inv (s : State) : Prop := s.mem.wf = true ∧ s.castle.locked = true

end Sys2Proof.Machine
end

