-- ==== Sys2Proof/Certificates/Slice0/Obligations.lean ====
section
/-! DEFINITION. The statements for the provers. First the words they share; then the statements, family by family. -/

namespace Sys2Proof.Claims

open Sys2Proof Sys2Proof.Machine

/-! ### What an issue needs -/

/-- What a vector instruction is by its format (R118, R415): guard, operands in the order of R127, destination and latency,
none where the result is interlocked. -/
structure Form where
  guard : Option Nat
  opds : List Opd
  dst : Dst
  lat : Option Nat

/-- Nothing stops the issue of an instruction with these operands to the group: in the context x, every operand that the
group's threads read is readable (R44, R127), and no thread consumes a poisoned word or reads through a lane map or a window
index that is refused (R80, R85, R128). -/
def Ready (s : State) (x : Ctx) (g : Option Nat) (os : List Opd) : Prop :=
  s.ctx = some x ∧ s.anyEarly x (s.compared x g os) = false ∧
    ∀ m ∈ x.group, (s.team x.team).consumed (guardRd g m) = none ∧
      (s.guardOn x g m = true → ∃ vs, s.consume x m os = .ok vs)

/-- Thread j of the group runs it with these operand values: its guard is 1 (R118). -/
def Runs (s : State) (x : Ctx) (j : Nat) (g : Option Nat) (os : List Opd) (vs : List (List (Option DWord))) : Prop :=
  Ready s x g os ∧ j ∈ x.group ∧ s.guardOn x g j = true ∧ s.consume x j os = .ok vs

/-- A destination that R80 does not refuse: a window index below WLEN, in every thread of the group whose guard is 1. -/
def DstOk (s : State) (x : Ctx) (g : Option Nat) (d : Dst) : Prop :=
  match d with
  | .win i => ∀ m ∈ x.group, s.guardOn x g m = true → (((s.team x.team).thread m).iget i).toNat < (s.team x.team).wlen
  | _ => True

/-- A destination of a thread holds a value. -/
def Holds (d : Dst) (t : Team) (y : Thread) (a : DWord) : Prop :=
  match d with
  | .v n => y.vget n = lo32 a
  | .v64 n => y.v64 n = a
  | .p n => y.pget n = (n == 0 || a != 0)
  | .ix i => y.iget i = a.extractLsb' 0 8
  | .win i => y.vget (t.wbase + (y.iget i).toNat) = lo32 a

/-- The words of an interlocked result for the slots of a destination (R45). -/
def Brings (d : Dst) (j : Nat) (r : Result) (a : DWord) : Prop :=
  match d with
  | .v n => (j, n, lo32 a) ∈ r.vs
  | .v64 n => (j, n, lo32 a) ∈ r.vs ∧ (j, n + 1, hi32 a) ∈ r.vs
  | _ => False

/-- The result of a vector instruction in thread j: in its destination when its latency is fixed (R44), else on its way as
the team's youngest pending result (R45). -/
def Lands (F : Form) (t : State) (k j : Nat) (a : DWord) : Prop :=
  match F.lat with
  | some _ => Holds F.dst (t.team k) ((t.team k).thread j) a
  | none => ∃ r, (t.team k).results.getLast? = some r ∧ r.load = false ∧ Brings F.dst j r a

/-- Instruction i of form F completes, and thread j receives what val makes of its operands' values. -/
def Yields (i : Instr) (F : Form) (val : Team → Nat → List (List (Option DWord)) → DWord) : Prop :=
  ∀ (s : State) (x : Ctx) (j : Nat) (vs : List (List (Option DWord))),
    Runs s x j F.guard F.opds vs → DstOk s x F.guard F.dst →
      ∃ t, exec i s = .next t ∧ Lands F t x.team j (val (s.team x.team) j vs)

/-- The exceptions of an instruction's lanes, by what exn makes of a thread's operands' values: those of the group's real
threads whose guard is 1, or, where the flag is set, of all its real threads, ORed together. No pawn's counts (R27). -/
def raisedBy (s : State) (x : Ctx) (F : Form) (all : Bool) (exn : Team → Nat → List (List (Option DWord)) → BitVec 5) : BitVec 5 :=
  x.group.foldl (fun a j => a ||| (if (s.team x.team).isPawn j || !(all || s.guardOn x F.guard j) then 0 else
    match s.consume x j F.opds with
    | .ok vs => exn (s.team x.team) j vs
    | .error _ => 0)) 0

/-- Instruction i of form F completes, and its exceptions join the team's pending ones for the cycle of its result, or come with the
interlocked result (R62, R415). -/
def Signals (i : Instr) (F : Form) (all : Bool) (exn : Team → Nat → List (List (Option DWord)) → BitVec 5) : Prop :=
  ∀ (s : State) (x : Ctx), Ready s x F.guard F.opds → DstOk s x F.guard F.dst →
    ∃ t, exec i s = .next t ∧
      let fl := raisedBy s x F all exn
      match F.lat with
      | some l => (t.team x.team).fpend = (if fl = 0 then (s.team x.team).fpend else (s.team x.team).fpend ++ [(x.cc + l, fl)])
      | none => ∃ r, (t.team x.team).results = (s.team x.team).results ++ [r] ∧ r.flags = fl

/-- Both: the values that its threads receive, and the exceptions that it raises. -/
def Gives (i : Instr) (F : Form) (val : Team → Nat → List (List (Option DWord)) → DWord × BitVec 5) : Prop :=
  Yields i F (fun t j vs => (val t j vs).1) ∧ Signals i F false (fun t j vs => (val t j vs).2)

/-! ### The forms of the vector formats (R118, R415 to R417, R435, R445, R452) -/

/-- Format A on words, and on pairs. -/
def formA (f : FA) (lat : Nat) : Form :=
  { guard := some f.p.toNat, opds := [.v f.va.toNat, .rv f.lm.toNat f.vb.toNat], dst := .v f.vd.toNat, lat := some lat }
def formA64 (f : FA) (lat : Nat) : Form :=
  { guard := some f.p.toNat, opds := [.v64 f.va.toNat, .rv64 f.lm.toNat f.vb.toNat], dst := .v64 f.vd.toNat, lat := some lat }
/-- The compact format: d is the first source and the destination (R116). -/
def formC (f : FC) (lat : Nat) : Form :=
  { guard := some 0, opds := [.v f.d.toNat, .rv 0 f.s.toNat], dst := .v f.d.toNat, lat := some lat }
/-- Format I. -/
def formI (f : FI) : Form := { guard := some f.p.toNat, opds := [.v f.va.toNat], dst := .v f.vd.toNat, lat := some 4 }
/-- Format U: one routed source. -/
def formU (f : FU) (lat : Option Nat) : Form :=
  { guard := some f.p.toNat, opds := [.rv f.lm.toNat f.va.toNat], dst := .v f.vd.toNat, lat := lat }
/-- Format F on words: no guard and no routing. -/
def formF (f : FF) : Form :=
  { guard := none, opds := [.v f.va.toNat, .v f.vb.toNat, .v f.vc.toNat], dst := .v f.vd.toNat, lat := some 6 }
/-- The two-operand functions of VSFU: the routed v[VA], and v[VD] as the dividend (R445). -/
def formS (f : FU) : Form :=
  { guard := some f.p.toNat, opds := [.rv f.lm.toNat f.va.toNat, .v f.vd.toNat], dst := .v f.vd.toNat, lat := none }
/-- A quad read (R453). -/
def formQ (p vd : Nat) (o : Opd) : Form := { guard := some p, opds := [o], dst := .v vd, lat := some 5 }

/-- The value of a scalar operand, and of an operand that spans lanes. -/
def sc (vs : List (List (Option DWord))) (n : Nat) : DWord := ((vs.getD n []).headD none).getD 0
def wd (vs : List (List (Option DWord))) (n : Nat) : Word := lo32 (sc vs n)
def lanesOf (vs : List (List (Option DWord))) (n : Nat) : List (Option DWord) := vs.getD n []
def zx (a : Word) : DWord := a.zeroExtend 64

/-- Word functions of one, two and three operands as values of instructions. -/
def val1 (g : Word → Word) : Team → Nat → List (List (Option DWord)) → DWord := fun _ _ vs => zx (g (wd vs 0))
def val2 (g : Word → Word → Word) : Team → Nat → List (List (Option DWord)) → DWord :=
  fun _ _ vs => zx (g (wd vs 0) (wd vs 1))
def val3 (g : Word → Word → Word → Word) : Team → Nat → List (List (Option DWord)) → DWord :=
  fun _ _ vs => zx (g (wd vs 0) (wd vs 1) (wd vs 2))
/-- The same under the team's rounding mode, with their exceptions. -/
def rnd1 (g : BitVec 2 → Word → Word × BitVec 5) : Team → Nat → List (List (Option DWord)) → DWord × BitVec 5 :=
  fun t _ vs => let r := g t.frm (wd vs 0); (zx r.1, r.2)
def rnd2 (g : BitVec 2 → Word → Word → Word × BitVec 5) : Team → Nat → List (List (Option DWord)) → DWord × BitVec 5 :=
  fun t _ vs => let r := g t.frm (wd vs 0) (wd vs 1); (zx r.1, r.2)
def rnd3 (g : BitVec 2 → Word → Word → Word → Word × BitVec 5) : Team → Nat → List (List (Option DWord)) → DWord × BitVec 5 :=
  fun t _ vs => let r := g t.frm (wd vs 0) (wd vs 1) (wd vs 2); (zx r.1, r.2)

/-! ### Word functions, from the spec's formulas -/

/-- The signed and the unsigned high half of a product. -/
def highS (a b : Word) : Word := BitVec.ofInt 32 (a.toInt * b.toInt / 2 ^ 32)
def highU (a b : Word) : Word := BitVec.ofNat 32 (a.toNat * b.toNat / 2 ^ 32)
/-- sat_s of an exact sum to 32 bits (R12). -/
def satS (x : Int) : Word := BitVec.ofInt 32 (max (-2147483648) (min 2147483647 x))
/-- A shift amount: the low five bits (R88). -/
def amt (b : Word) : Nat := b.toNat % 32

/-- The operations of format A of the integer class on words (R418, R441). -/
def integerA : List ((FA → Instr) × (Word → Word → Word)) :=
  [(.vadd, fun a b => a + b), (.vsub, fun a b => a - b), (.vmul, fun a b => a * b), (.vmulhS, highS), (.vmulhU, highU),
    (.vminS, fun a b => if a.toInt ≤ b.toInt then a else b), (.vminU, fun a b => if a.toNat ≤ b.toNat then a else b),
    (.vmaxS, fun a b => if a.toInt ≤ b.toInt then b else a), (.vmaxU, fun a b => if a.toNat ≤ b.toNat then b else a),
    (.vand, fun a b => a &&& b), (.vor, fun a b => a ||| b), (.vxor, fun a b => a ^^^ b),
    (.vshl, fun a b => a <<< amt b), (.vshrU, fun a b => a >>> amt b), (.vshrS, fun a b => a.sshiftRight (amt b)),
    (.vaddSat, fun a b => satS (a.toInt + b.toInt))]

/-- The compact instructions of the integer class (R116). -/
def integerC : List ((FC → Instr) × (Word → Word → Word)) :=
  [(.vaddC, fun a b => a + b), (.vsubC, fun a b => a - b), (.vmulC, fun a b => a * b),
    (.vminSC, fun a b => if a.toInt ≤ b.toInt then a else b), (.vmaxSC, fun a b => if a.toInt ≤ b.toInt then b else a),
    (.vandC, fun a b => a &&& b), (.vorC, fun a b => a ||| b), (.vxorC, fun a b => a ^^^ b),
    (.vshlC, fun a b => a <<< amt b), (.vshrUC, fun a b => a >>> amt b), (.vshrSC, fun a b => a.sshiftRight (amt b))]

/-- The immediate instructions (R420, R443). -/
def integerI : List ((FI → Instr) × (Word → Word → Word)) :=
  [(.vaddi, fun a k => a + k), (.vandi, fun a k => a &&& k), (.vori, fun a k => a ||| k), (.vxori, fun a k => a ^^^ k)]

/-- The number of leading zeros of a word, and of its one bits. -/
def zerosAbove (a : Word) : Nat := ((List.range 32).filter (fun n => decide (a.toNat < 2 ^ n))).length
def onesIn (a : Word) : Nat := ((List.range 32).filter (fun n => a.getLsbD n)).length

/-- The integer functions of VUNA (R450). -/
def integerU : List ((FU → Instr) × (Word → Word)) :=
  [(.vmov, id), (.vnot, fun a => ~~~a), (.vneg, fun a => 0 - a), (.vabs, fun a => if a.toInt < 0 then 0 - a else a),
    (.vclz, fun a => BitVec.ofNat 32 (zerosAbove a)), (.vpopc, fun a => BitVec.ofNat 32 (onesIn a)),
    (.vbrev, fun a => a.reverse), (.vsextB, fun a => (a.extractLsb' 0 8).signExtend 32),
    (.vsextH, fun a => (a.extractLsb' 0 16).signExtend 32), (.vzextB, fun a => a &&& 0xFF), (.vzextH, fun a => a &&& 0xFFFF)]

/-- An integer condition (R425). -/
def holdsCond (c : ICond) (a b : Word) : Prop :=
  match c with
  | .eq => a = b
  | .ne => a ≠ b
  | .ltS => a.toInt < b.toInt
  | .geS => b.toInt ≤ a.toInt
  | .ltU => a.toNat < b.toNat
  | .geU => b.toNat ≤ a.toNat
  | .leS => a.toInt ≤ b.toInt
  | .gtS => b.toInt < a.toInt

/-- A predicate that receives a condition: 1 where it holds, 0 where it does not. -/
def Decides (v : DWord) (p : Prop) : Prop := (p → v = 1) ∧ (¬p → v = 0)

end Sys2Proof.Claims

open Sys2Proof Sys2Proof.Machine Sys2Proof.Claims

/-! ### Integer vector instructions -/

/-- R418, R441, R419, R449: each two-operand instruction of format A of the integer class gives every thread that executes it the
named function of v[VA] and the routed v[VB]; VADD64 and VSUB64 act on pairs, of which a routed one is routed as a whole. -/
def Obligations.IntegerFormatAResults : Prop :=
  (∀ c ∈ integerA, ∀ f : FA, Yields (c.1 f) (formA f 4) (val2 c.2)) ∧
  ((∀ f : FA, Yields (.vadd64 f) (formA64 f 4) (fun _ _ vs => sc vs 0 + sc vs 1)) ∧
  ∀ f : FA, Yields (.vsub64 f) (formA64 f 4) (fun _ _ vs => sc vs 0 - sc vs 1))

/-- R116, R420, R443, R448, R442, R450, R440: each compact integer instruction gives v[D] the named function of v[D] and v[S], in every
thread; the immediate forms, with the immediate sign-extended; the integer functions of VUNA of the routed v[VA]; and VMAD. -/
def Obligations.IntegerImmediateUnaryAndCompactResults : Prop :=
  ((∀ c ∈ integerC, ∀ f : FC, Yields (c.1 f) (formC f 4) (val2 c.2)) ∧
  ∀ f : FC, Yields (.mov f) { guard := some 0, opds := [.v f.s.toNat], dst := .v f.d.toNat, lat := some 4 } (val1 id)) ∧
  (∀ c ∈ integerI, ∀ f : FI, Yields (c.1 f) (formI f) (val1 (fun a => c.2 a (f.imm.signExtend 32)))) ∧
  (∀ f : FShi, Yields (.vshi f) { guard := some f.p.toNat, opds := [.v f.va.toNat], dst := .v f.vd.toNat, lat := some 4 }
    (val1 (fun a => match f.kind with
      | .shl => a <<< f.amount.toNat
      | .shrU => a >>> f.amount.toNat
      | .shrS => a.sshiftRight f.amount.toNat
      | .rot => a.rotateLeft f.amount.toNat))) ∧
  (∀ f : FMovi, Yields (.vmovi f) { guard := some f.p.toNat, opds := [], dst := .v f.vd.toNat, lat := some 4 }
    (fun _ _ _ => zx (f.imm.signExtend 32))) ∧
  (∀ c ∈ integerU, ∀ f : FU, Yields (c.1 f) (formU f (some 4)) (val1 c.2)) ∧
  ∀ f : FF, Yields (.vmad f) { formF f with lat := some 4 } (val3 (fun a b c => a * b + c))

/-- R425, R444: VCMP and VCMPI decide a predicate by their condition, and VSEL selects by one. -/
def Obligations.CompareAndSelectResults : Prop :=
  (∀ (f : FCmp ICond) (s : State) (x : Ctx) (j : Nat) (vs : List (List (Option DWord))),
    Runs s x j (some f.p.toNat) [.v f.va.toNat, .rv f.lm.toNat f.vb.toNat] vs →
      ∃ t v, exec (.vcmp f) s = .next t ∧ Decides v (holdsCond f.cond (wd vs 0) (wd vs 1)) ∧
        Holds (.p f.pd.toNat) (t.team x.team) ((t.team x.team).thread j) v) ∧
  (∀ (f : FCmpI) (s : State) (x : Ctx) (j : Nat) (vs : List (List (Option DWord))),
    Runs s x j (some f.p.toNat) [.v f.va.toNat] vs →
      ∃ t v, exec (.vcmpi f) s = .next t ∧ Decides v (holdsCond f.cond (wd vs 0) (f.imm.signExtend 32)) ∧
        Holds (.p f.pd.toNat) (t.team x.team) ((t.team x.team).thread j) v) ∧
  ∀ f : FSel, Yields (.vsel f)
    { guard := some f.p.toNat, opds := [.v f.va.toNat, .v f.vb.toNat, .p f.ps.toNat], dst := .v f.vd.toNat, lat := some 4 }
    (fun _ _ vs => if sc vs 2 = 1 then zx (wd vs 0) else zx (wd vs 1))

/-! ### Floating-point vector instructions -/

namespace Sys2Proof.Claims

/-- The result of an operation of a format as a word, and as a pair. -/
def fw (r : Nat × BitVec 5) : Word := BitVec.ofNat 32 r.1
def fx (r : Nat × BitVec 5) : Word × BitVec 5 := (fw r, r.2)
def fd (r : Nat × BitVec 5) : DWord × BitVec 5 := (BitVec.ofNat 64 r.1, r.2)

/-- An element-wise operation on BF16 pairs, with the exceptions of both elements (R94). -/
def halves (g : Nat → Nat × BitVec 5) : Word × BitVec 5 := (BitVec.ofNat 32 ((g 0).1 + 2 ^ 16 * (g 16).1), (g 0).2 ||| (g 16).2)
/-- The BF16 element of a word from bit i up. -/
def el (a : Word) (i : Nat) : Nat := natBits a.toNat i 16

/-- FP32 and BF16 operations of format A (R433, R438). -/
def floatA : List ((FA → Instr) × (BitVec 2 → Word → Word → Word × BitVec 5)) :=
  [(.vfadd, fun r a b => fx (fmt32.add r a.toNat b.toNat)), (.vfsub, fun r a b => fx (fmt32.sub r a.toNat b.toNat)),
    (.vfmul, fun r a b => fx (fmt32.mul r a.toNat b.toNat)), (.vfmin, fun _ a b => fx (fmt32.minMax false a.toNat b.toNat)),
    (.vfmax, fun _ a b => fx (fmt32.minMax true a.toNat b.toNat)),
    (.vhadd, fun r a b => halves (fun i => fmtB16.add r (el a i) (el b i))),
    (.vhmul, fun r a b => halves (fun i => fmtB16.mul r (el a i) (el b i)))]

/-- Their compact forms (R116). -/
def floatC : List ((FC → Instr) × (BitVec 2 → Word → Word → Word × BitVec 5)) :=
  [(.vfaddC, fun r a b => fx (fmt32.add r a.toNat b.toNat)), (.vfsubC, fun r a b => fx (fmt32.sub r a.toNat b.toNat)),
    (.vfmulC, fun r a b => fx (fmt32.mul r a.toNat b.toNat)), (.vfmaxC, fun _ a b => fx (fmt32.minMax true a.toNat b.toNat))]

/-- Format F on words (R431, R436, R439). -/
def floatF : List ((FF → Instr) × (BitVec 2 → Word → Word → Word → Word × BitVec 5)) :=
  [(.vfma, fun r a b c => fx (fmt32.fma r false a.toNat b.toNat c.toNat)),
    (.vfnma, fun r a b c => fx (fmt32.fma r true a.toNat b.toNat c.toNat)),
    (.vhfma, fun r a b c => halves (fun i => fmtB16.fma r false (el a i) (el b i) (el c i))),
    (.vdot2, fun r a b c => fx (bf16Step r c.toNat [el a 0, el a 16] [el b 0, el b 16]))]

/-- The floating functions of VUNA (R451): the rounding mode of each. -/
def floatU : List ((FU → Instr) × (BitVec 2 → Word → Word × BitVec 5)) :=
  [(.vfneg, fun _ a => (a ^^^ 0x80000000, 0)), (.vfabs, fun _ a => (a &&& 0x7FFFFFFF, 0)),
    (.vftrunc, fun _ a => fx (fmt32.rint 1 false a.toNat)), (.vffloor, fun _ a => fx (fmt32.rint 2 false a.toNat)),
    (.vfceil, fun _ a => fx (fmt32.rint 3 false a.toNat)), (.vfrint, fun r a => fx (fmt32.rint r true a.toNat))]

/-- VSFU's functions of one operand (R446, R447). -/
def specialU : List ((FU → Instr) × (BitVec 2 → Word → Word × BitVec 5)) :=
  [(.vrcp, fun _ a => rcp32 a), (.vrsq, fun _ a => rsq32 a), (.vsqrt, fun r a => fx (fmt32.sqrt r a.toNat)),
    (.vex2, fun _ a => ex232 a), (.vlg2, fun _ a => lg232 a), (.vsin, fun _ a => trig32 false a),
    (.vcos, fun _ a => trig32 true a), (.vtanh, fun _ a => tanh32 a)]

/-- VSFU's divisions of n by d (R89): they truncate towards zero; by zero the quotient is all ones and the remainder n. -/
def divisions : List ((FU → Instr) × (Word → Word → Word)) :=
  [(.vdivU, fun d n => if d = 0 then 0xFFFFFFFF else BitVec.ofNat 32 (n.toNat / d.toNat)),
    (.vdivS, fun d n => if d = 0 then 0xFFFFFFFF else BitVec.ofInt 32 (n.toInt.tdiv d.toInt)),
    (.vremU, fun d n => if d = 0 then n else BitVec.ofNat 32 (n.toNat % d.toNat)),
    (.vremS, fun d n => if d = 0 then n else BitVec.ofInt 32 (n.toInt.tmod d.toInt))]

/-- The words of the present lanes of a block; zero for an absent one (R107). -/
def blockWords (l : List (Option DWord)) : List Nat := l.map (fun w => (w.getD 0).toNat)
/-- The 8-bit elements of words as signed numbers, summed in products. -/
def dotI8 (a b : List Nat) : Int :=
  let bytes := fun (l : List Nat) => l.flatMap (fun w => (List.range 4).map (fun j => (BitVec.ofNat 8 (w / 256 ^ j)).toInt))
  (List.zipWith (fun x y => x * y) (bytes a) (bytes b)).sum

/-- The operands of VBDOT.T8 and VBDOT.T6 (R422). -/
def formB (f : FBdot) : Form :=
  { guard := none, opds := [.block 0 8 f.va.toNat, .block 0 8 f.vb.toNat, .block 0 2 f.vc.toNat, .v f.vd.toNat],
    dst := .v f.vd.toNat, lat := none }
/-- One block step of them (R103, R422): the thread's accumulator, the blocks' elements, and byte bs of the two lanes' scale
words. -/
def valB (f : FBdot) (k : Tap) : Team → Nat → List (List (Option DWord)) → DWord × BitVec 5 := fun t _ vs =>
  let sb := fun (i : Nat) => natBits ((blockWords (lanesOf vs 2)).getD i 0) (8 * f.bs.toNat) 8
  fd (k.blockStep t.frm (sc vs 3).toNat ((blockWords (lanesOf vs 0)).flatMap k.elems)
    ((blockWords (lanesOf vs 1)).flatMap k.elems) (sb 0) (sb 1))

/-- The form of VCVT (R427): FP64 is held in pairs, and a packed destination's old word is a source. -/
def formV (f : FCvt) : Form :=
  { guard := some f.p.toNat
    opds := [if f.src = .f64 then .v64 f.va.toNat else .v f.va.toNat]
      ++ (if f.dst = .bf16 ∨ f.dst = .t8 ∨ f.dst = .t6 then [.v f.vd.toNat] else [])
    dst := if f.dst = .f64 then .v64 f.vd.toNat else .v f.vd.toNat
    lat := some (if f.src = .f64 ∨ f.dst = .f64 then 8 else 6) }

end Sys2Proof.Claims

/-- R433, R435, R438, R431, R439, R62, R92: the FP32 and BF16 instructions give every thread the operation of the format, rounded once
under the team's FRM, and the exceptions of the group's real threads join the team's pending ones, which reach FFLAGS in the cycle of
the result. -/
def Obligations.FloatWordResults : Prop :=
  (∀ c ∈ floatA, ∀ f : FA, Gives (c.1 f) (formA f 6) (rnd2 c.2)) ∧
  (∀ c ∈ floatC, ∀ f : FC, Gives (c.1 f) (formC f 6) (rnd2 c.2)) ∧
  (∀ c ∈ floatF, ∀ f : FF, Gives (c.1 f) (formF f) (rnd3 c.2)) ∧
  ∀ c ∈ floatU, ∀ f : FU, Gives (c.1 f) (formU f (some 6)) (rnd1 c.2)

/-- R429, R430, R434, R62: the FP64 instructions on pairs, and VFCMP, which writes a predicate, with their exceptions. -/
def Obligations.DoubleAndCompareResults : Prop :=
  (∀ f : FA, Gives (.vdadd f) (formA64 f 8) (fun t _ vs => fd (fmt64.add t.frm (sc vs 0).toNat (sc vs 1).toNat))) ∧
  (∀ f : FA, Gives (.vdmul f) (formA64 f 8) (fun t _ vs => fd (fmt64.mul t.frm (sc vs 0).toNat (sc vs 1).toNat))) ∧
  (∀ f : FF, Gives (.vdfma f)
    { guard := none, opds := [.v64 f.va.toNat, .v64 f.vb.toNat, .v64 f.vc.toNat], dst := .v64 f.vd.toNat, lat := some 8 }
    (fun t _ vs => fd (fmt64.fma t.frm false (sc vs 0).toNat (sc vs 1).toNat (sc vs 2).toNat))) ∧
  ∀ f : FCmp FCond, Gives (.vfcmp f)
    { guard := some f.p.toNat, opds := [.v f.va.toNat, .rv f.lm.toNat f.vb.toNat], dst := .p f.pd.toNat, lat := some 6 }
    (fun _ _ vs => let r := fmt32.cmp f.cond (wd vs 0).toNat (wd vs 1).toNat; (if r.1 then 1 else 0, r.2))

namespace Sys2Proof.Claims

/-- The functions of R447. -/
def roundedOnce : List (Word → Word × BitVec 5) := [rcp32, rsq32, ex232, lg232, trig32 false, trig32 true, tanh32]

/-- What they give at special operands (R447): a function, an operand, the result and the exceptions. -/
def specialPoints : List ((Word → Word × BitVec 5) × Word × Word × BitVec 5) :=
  [(rcp32, 0, 0x7F800000, flagDZ), (rcp32, 0x80000000, 0xFF800000, flagDZ), (rcp32, 0x7F800000, 0, 0),
    (rcp32, 0xFF800000, 0x80000000, 0), (rcp32, 0x00200000, 0x7F800000, flagOF), (rcp32, 0x7F000000, 0x00400000, 0),
    (rsq32, 0, 0x7F800000, flagDZ), (rsq32, 0x80000000, 0xFF800000, flagDZ), (rsq32, 0x7F800000, 0, 0)] ++
  [(ex232, 0, 0x3F800000, 0), (ex232, 0x80000000, 0x3F800000, 0), (ex232, 0x7F800000, 0x7F800000, 0), (ex232, 0xFF800000, 0, 0),
    (ex232, 0xC3150000, 1, 0), (ex232, 0xC3160000, 0, 0), (lg232, 0, 0xFF800000, flagDZ), (lg232, 0x80000000, 0xFF800000, flagDZ),
    (lg232, 0x7F800000, 0x7F800000, 0)] ++
  [(trig32 false, 0, 0, 0), (trig32 false, 0x80000000, 0x80000000, 0), (trig32 false, 0x7F800000, 0x7FC00000, flagNV),
    (trig32 false, 0xFF800000, 0x7FC00000, flagNV), (trig32 true, 0, 0x3F800000, 0), (trig32 true, 0x80000000, 0x3F800000, 0),
    (trig32 true, 0x7F800000, 0x7FC00000, flagNV), (trig32 true, 0xFF800000, 0x7FC00000, flagNV),
    (tanh32, 0x7F800000, 0x3F800000, 0), (tanh32, 0xFF800000, 0xBF800000, 0), (tanh32, 0x39800000, 0x39800000, 0)]

/-- VCVT of element e from one format to another. -/
def cvtOf (src dst : Fmt) (e : BitVec 3) : FCvt := { src := src, dst := dst, e := e, va := 0, vd := 0, p := 0, w := 0 }

/-- VCVT's fixed cases (R427, R428): the operand, the formats, the element, the rounding mode, the result over a destination of zero
and the exceptions. Those to T8 are R428's example. -/
def convertedPoints : List (DWord × Fmt × Fmt × BitVec 3 × BitVec 2 × DWord × BitVec 5) :=
  [(0x3FACCCCD, .f32, .t8, 0, 0, 0x4B, flagNX), (0x3FAE0000, .f32, .t8, 1, 0, 0x4C00, flagNX), (0xC0400000, .f32, .t8, 2, 0, 0xE80000, 0),
    (0x41A00000, .f32, .t8, 3, 0, 0x7F000000, flagOF ||| flagNX), (0x3C000000, .f32, .t8, 0, 0, 0, flagUF ||| flagNX),
    (0xBBA3D70A, .f32, .t8, 1, 0, 0, flagUF ||| flagNX), (0x3F000000, .f32, .t8, 2, 0, 0x200000, 0),
    (0x3F800000, .f32, .t8, 3, 0, 0x40000000, 0)] ++
  [(0x7F800000, .f32, .int, 0, 0, 0x7FFFFFFF, flagNV), (0xFF800000, .f32, .int, 0, 0, 0x80000000, flagNV),
    (0x7FC00000, .f32, .int, 0, 0, 0, flagNV), (0x4F000000, .f32, .int, 0, 0, 0x7FFFFFFF, flagNV),
    (0xCF000000, .f32, .int, 0, 0, 0x80000000, 0), (0x7F800000, .f32, .uint, 0, 0, 0xFFFFFFFF, flagNV),
    (0xBF800000, .f32, .uint, 0, 0, 0, flagNV), (0xBE800000, .f32, .uint, 0, 0, 0, flagNX), (0x80000000, .f32, .uint, 0, 0, 0, 0),
    (0x40200000, .f32, .int, 0, 0, 2, flagNX), (0x40200000, .f32, .int, 0, 3, 3, flagNX)] ++
  [(0x7F800001, .f32, .f64, 0, 0, 0x7FF8000000000000, flagNV), (0x7F800001, .f32, .bf16, 0, 0, 0x7FC0, flagNV),
    (0x80, .t8, .f32, 0, 0, 0x7FC00000, 0), (0x80, .t8, .int, 0, 0, 0, flagNV), (0x20, .t6, .t8, 0, 0, 0x80, 0),
    (0xFFFFFFFF, .int, .f32, 0, 0, 0xBF800000, 0), (0xFFFFFFFF, .uint, .f32, 0, 0, 0x4F800000, flagNX)]

/-- Bits per element and elements per word of a packed format (R427). -/
def packing (f : Fmt) : Option (Nat × Nat) :=
  match f with
  | .bf16 => some (16, 2)
  | .t8 => some (8, 4)
  | .t6 => some (6, 5)
  | _ => none

end Sys2Proof.Claims

/-- R433, R90, R110, R427, R428, R447: special cases and fixed values. FP32 addition and multiplication: a NaN operand, ∞ − ∞ and 0·∞
give 0x7FC0_0000, the last two raising NV, and an exact zero sum of opposite numbers is +0, or −0 under RDN. A number that a format
represents is rounded to its own code, exactly, in every mode. The functions of R447 at NaNs, zeros, infinities, negative numbers,
exact powers and operands too large or too small. VREQ with a scale that is NaN or zero, and with equal scales. VCVT: which bits of a
packed word it reads and writes, and fixed cases. -/
def Obligations.FloatSpecialCases : Prop :=
  ((∀ (r : BitVec 2) (a b : Word), (∃ q, fmt32.unpack a.toNat = .nan q) ∨ (∃ q, fmt32.unpack b.toNat = .nan q) →
    fw (fmt32.add r a.toNat b.toNat) = 0x7FC00000 ∧ fw (fmt32.mul r a.toNat b.toNat) = 0x7FC00000) ∧
  (∀ r : BitVec 2, fmt32.add r 0x7F800000 0xFF800000 = (0x7FC00000, flagNV) ∧
    fmt32.mul r 0 0x7F800000 = (0x7FC00000, flagNV)) ∧
  (∀ (r : BitVec 2) (a : Word) (q : Bool) (m : Nat) (e : Int), fmt32.unpack a.toNat = .fin q m e → m ≠ 0 →
    fmt32.add r a.toNat (a ^^^ 0x80000000).toNat = (if r = 2 then 0x80000000 else 0, 0)) ∧
  ∀ f ∈ [fmt32, fmt64, fmtB16], ∀ (r : BitVec 2) (c : Nat) (q : Bool) (m : Nat) (e : Int),
    c < 2 ^ (f.eb + f.p) → f.unpack c = .fin q m e → m ≠ 0 → f.round r q m e = (c, 0)) ∧
  ((∀ g ∈ roundedOnce, ∀ (a : Word) (q : Bool), fmt32.unpack a.toNat = .nan q → g a = (0x7FC00000, if q then flagNV else 0)) ∧
  (∀ c ∈ specialPoints, c.1 c.2.1 = (c.2.2.1, c.2.2.2)) ∧
  (∀ a : Word, 0x80000000 < a.toNat → a.toNat ≤ 0xFF800000 → rsq32 a = (0x7FC00000, flagNV) ∧ lg232 a = (0x7FC00000, flagNV)) ∧
  (∀ k, 1 ≤ k → k ≤ 253 → rcp32 (BitVec.ofNat 32 (k * 2 ^ 23)) = (BitVec.ofNat 32 ((254 - k) * 2 ^ 23), 0)) ∧
  (∀ k, k < 127 → rsq32 (BitVec.ofNat 32 ((2 * k + 1) * 2 ^ 23)) = (BitVec.ofNat 32 ((190 - k) * 2 ^ 23), 0)) ∧
  (∀ k : Nat, 1 ≤ k → k ≤ 254 → let n := fw (fmt32.ofInt 0 ((k : Int) - 127))
    ex232 n = (BitVec.ofNat 32 (k * 2 ^ 23), 0) ∧ lg232 (BitVec.ofNat 32 (k * 2 ^ 23)) = (n, 0)) ∧
  (∀ a : Word, (0x43000000 ≤ a.toNat → a.toNat < 0x7F800000 → ex232 a = (0x7F800000, flagOF)) ∧
    (0xC3800000 ≤ a.toNat → a.toNat ≤ 0xFF800000 → ex232 a = (0, 0)) ∧ (a.toNat % 2 ^ 31 < 0x39800000 → tanh32 a = (a, 0)))) ∧
  (∀ va vb : Nat, let old := natBits vb 3 5
    let new := natBits vb 11 5
    (old = 31 ∨ new = 31 ∨ new = 0 → reqWord va vb = (match natBits vb 16 2 with
      | 1 => 0x20820820
      | 2 => 0x00820820
      | _ => 0x80808080, flagNV)) ∧
    (va < 2 ^ 32 → reqWord va 0x7878 = (va, if (List.range 4).any (fun j => natBits va (8 * j) 8 == 0x80) then flagNV else 0)) ∧
    (old = 0 → new ≠ 0 → new ≠ 31 → natBits vb 16 2 = 0 → (∀ j, j < 4 → natBits va (8 * j) 8 ≠ 0x80) → reqWord va vb = (0, 0))) ∧
  (∀ c ∈ convertedPoints, convertElem (cvtOf c.2.1 c.2.2.1 c.2.2.2.1) c.2.2.2.2.1 c.1 0 = c.2.2.2.2.2) ∧
  (∀ (f : FCvt) (r : BitVec 2) (a old : DWord) (n m : Nat), packing f.dst = some (n, m) → f.e.toNat < m →
    ∀ i, i < 32 → i < n * f.e.toNat ∨ n * (f.e.toNat + 1) ≤ i →
      (convertElem f r a old).1.getLsbD i = (old.getLsbD i && !(f.dst = .t6 && decide (30 ≤ i)))) ∧
  ∀ (f : FCvt) (r : BitVec 2) (a b old : DWord) (n m : Nat), packing f.src = some (n, m) → f.e.toNat < m →
    natBits a.toNat (n * f.e.toNat) n = natBits b.toNat (n * f.e.toNat) n → convertElem f r a old = convertElem f r b old

/-- R96, R97, R98: the values of the T8, T6 and SX8 codes. A T8 value is exact in BF16, FP32 and FP64, and a T6 value is a T8
value. -/
def Obligations.TaperedCodesDecode : Prop :=
  (∀ x, x < 256 →
    let c : Int := (x % 128 : Nat)
    let n := if c ≤ 0x3F then c else if c ≤ 0x5F then 2 * c - 64 else if c ≤ 0x6F then 8 * c - 640
      else if c ≤ 0x77 then 32 * c - 3328 else 64 * c - 7168
    Tap.t8.decode x = if x = 0x80 then none else some (if 128 ≤ x then -n else n)) ∧
  (∀ x m, Tap.t8.decode x = some m → -960 ≤ m ∧ m ≤ 960 ∧ ∀ f ∈ [fmtB16, fmt32, fmt64], ∀ r : BitVec 2,
    (f.round r (decide (m < 0)) m.natAbs (-6)).2 = 0) ∧
  (∀ x, x < 256 →
    let c : Int := (x % 32 : Nat)
    let n := if c ≤ 15 then c else if c ≤ 23 then 2 * c - 16 else if c ≤ 27 then 8 * c - 160 else 16 * c - 384
    Tap.t6.decode x = if x % 64 = 0x20 then none else some (if 32 ≤ x % 64 then -n else n)) ∧
  (∀ x m, Tap.t6.decode x = some m → -112 ≤ m ∧ m ≤ 112 ∧ ∃ y, Tap.t8.decode y = some (4 * m)) ∧
  (∀ x, x < 256 → sx8 x = if x / 8 = 0 then .zero else if x / 8 = 31 then .nan else .fin (8 + x % 8) (x / 8 - 18)) ∧
  sx8 0x78 = .fin 8 (-3)

/-- R89: integer division never traps and raises nothing: a division by zero gives all ones and the dividend; otherwise the
quotient is truncated towards zero, −2^31 by −1 giving −2^31, and the remainder takes the sign of the dividend. -/
def Obligations.IntegerDivisionResults : Prop :=
  ∀ c ∈ divisions, ∀ f : FU, Gives (c.1 f) (formS f) (rnd2 (fun _ d n => (c.2 d n, 0))) ∧
    ∀ (s : State) (x : Ctx), Ready s x (formS f).guard (formS f).opds →
      ∃ t, exec (c.1 f) s = .next t ∧ ∀ j, (t.team x.team).thread j = (s.team x.team).thread j

/-- R110, R422, R423, R427, R62: VREQ, the block dots and VCVT, with their exceptions. -/
def Obligations.ConversionAndBlockDotResults : Prop :=
  (∀ f : FReq, Gives (.vreq f)
    { guard := none, opds := [.v f.va.toNat, .v f.vb.toNat], dst := .v f.vd.toNat, lat := some 6 }
    (rnd2 (fun _ a b => fx (reqWord a.toNat b.toNat)))) ∧
  (∀ f : FBdot, Gives (.vbdotT8 f) (formB f) (valB f .t8)) ∧
  (∀ f : FBdot, Gives (.vbdotT6 f) (formB f) (valB f .t6)) ∧
  (∀ f : FBdotI, Yields (.vbdotI8 f)
    { guard := none, opds := [.block 0 8 f.va.toNat, .block 0 8 f.vb.toNat, .v f.vd.toNat], dst := .v f.vd.toNat, lat := none }
    (fun _ _ vs => zx (wd vs 2 + BitVec.ofInt 32 (dotI8 (blockWords (lanesOf vs 0)) (blockWords (lanesOf vs 1)))))) ∧
  ∀ f : FCvt, Gives (.vcvt f) (formV f) (fun t _ vs => convertElem f t.frm (sc vs 0) (sc vs 1))

/-- R445 to R447: the special functions and VFDIV arrive as interlocked results, with their exceptions. The series that
evaluate VEX2, VLG2, VSIN, VCOS and VTANH are the model's: assumption 21. -/
def Obligations.SpecialFunctionResults : Prop :=
  (∀ c ∈ specialU, ∀ f : FU, Gives (c.1 f) (formU f none) (rnd1 c.2)) ∧
  ∀ f : FU, Gives (.vfdiv f) (formS f) (rnd2 (fun r d n => fx (fmt32.div r n.toNat d.toNat)))

/-! ### The lane network, index registers and uniform moves -/

namespace Sys2Proof.Claims

/-- The gang-lane mask of the lanes that are present with predicate 1. -/
def maskOf (l : List (Option DWord)) : Nat :=
  ((l.zipIdx.filter (fun c => decide (c.1 = some 1))).map (fun c => 2 ^ c.2)).sum

/-- VREDU of a gang's present lanes by the tree of R111, with its exceptions. -/
def treeOf (op : RedOp) (t : Team) (l : List (Option DWord)) : Word × BitVec 5 :=
  let r := redTree op t.frm (levels t.w) (l.map (fun v => v.map lo32))
  (r.1.getD (redUnit op), r.2)

end Sys2Proof.Claims

/-- R453, R454, R455, R80, R25: quad reads give a lane its partner's word; votes, ballots and reductions cover the gang's present
lanes, and VREDU raises the exceptions of every issued real thread's gang (R454); index registers and the register window, GETV
and VMOVU. -/
def Obligations.LaneNetworkAndMoveResults : Prop :=
  ((∀ f : FQx, Yields (.qxchH f) (formQ f.p.toNat f.vd.toNat (.quadX 1 f.va.toNat)) (val1 id)) ∧
  (∀ f : FQx, Yields (.qxchV f) (formQ f.p.toNat f.vd.toNat (.quadX 2 f.va.toNat)) (val1 id)) ∧
  (∀ f : FQx, Yields (.qxchD f) (formQ f.p.toNat f.vd.toNat (.quadX 3 f.va.toNat)) (val1 id)) ∧
  (∀ f : FQb, Yields (.qbcast f) (formQ f.p.toNat f.vd.toNat (.quadB f.n.toNat f.va.toNat)) (val1 id)) ∧
  (∀ f : FVote, Yields (.vvoteAny f)
    { guard := some f.p.toNat, opds := [.gangP f.ps.toNat], dst := .p f.pd.toNat, lat := some 6 }
    (fun _ _ vs => if (∃ p ∈ lanesOf vs 0, p = some 1) then 1 else 0)) ∧
  (∀ f : FVote, Yields (.vvoteAll f)
    { guard := some f.p.toNat, opds := [.gangP f.ps.toNat], dst := .p f.pd.toNat, lat := some 6 }
    (fun _ _ vs => if (∀ p ∈ lanesOf vs 0, p ≠ some 0) then 1 else 0)) ∧
  (∀ f : FBallot, Yields (.vballot f)
    { guard := some f.p.toNat, opds := [.gangP f.ps.toNat], dst := .v64 f.vd.toNat, lat := some 6 }
    (fun _ _ vs => BitVec.ofNat 64 (maskOf (lanesOf vs 0)))) ∧
  ∀ f : FRedu,
    let F : Form := { guard := some f.p.toNat, opds := [.gangV f.va.toNat], dst := .v f.vd.toNat, lat := none }
    Yields (.vredu f) F (fun t _ vs => zx (treeOf f.op t (lanesOf vs 0)).1) ∧
      Signals (.vredu f) F true (fun t _ vs => (treeOf f.op t (lanesOf vs 0)).2)) ∧
  ((∀ f : FSeti, Yields (.vseti f)
    { guard := some f.p.toNat, opds := [.v f.va.toNat], dst := .ix f.n.toNat, lat := some 4 } (fun _ _ vs => sc vs 0)) ∧
  (∀ f : FMovx, Yields (.vmovx f)
    { guard := some f.p.toNat, opds := [.ix f.n.toNat, .win f.n.toNat], dst := .v f.vd.toNat, lat := some 4 }
    (fun _ _ vs => sc vs 1)) ∧
  (∀ f : FStx, Yields (.vstx f)
    { guard := some f.p.toNat, opds := [.v f.vs.toNat, .ix f.n.toNat], dst := .win f.n.toNat, lat := some 4 }
    (fun _ _ vs => sc vs 0)) ∧
  (∀ f : FGetv, Yields (.getv f) { guard := some f.p.toNat, opds := [], dst := .v f.vd.toNat, lat := some 4 }
    (fun t j _ => BitVec.ofNat 64 (match f.sel with
      | .tid => j
      | .lane => j % t.w
      | .gang => j / t.w
      | .quad => j % t.w / 4
      | .plane => j / t.w % (64 / t.w) * t.w + j % t.w
      | .pawn => if t.t ≤ j then 1 else 0))) ∧
  ∀ f : FMovu, Yields (.vmovu f) { guard := some f.p.toNat, opds := [.s f.sa.toNat], dst := .v f.vd.toNat, lat := some 4 }
    (fun _ _ vs => if f.hi = 1 then zx (hi32 (sc vs 0)) else sc vs 0))

/-! ### What a vector instruction leaves alone, and how it traps -/

namespace Sys2Proof.Claims

/-- The form of every vector instruction. -/
def vform (i : Instr) : Option Form :=
  match i with
  | .mov f => some { guard := some 0, opds := [.v f.s.toNat], dst := .v f.d.toNat, lat := some 4 }
  | .vaddC f | .vsubC f | .vmulC f | .vandC f | .vorC f | .vxorC f | .vshlC f | .vshrUC f | .vshrSC f | .vminSC f
  | .vmaxSC f => some (formC f 4)
  | .vfaddC f | .vfsubC f | .vfmulC f | .vfmaxC f => some (formC f 6)
  | .vadd f | .vsub f | .vmul f | .vmulhS f | .vmulhU f | .vminS f | .vminU f | .vmaxS f | .vmaxU f | .vand f | .vor f
  | .vxor f | .vshl f | .vshrU f | .vshrS f | .vaddSat f => some (formA f 4)
  | .vadd64 f | .vsub64 f => some (formA64 f 4)
  | .vfadd f | .vfsub f | .vfmul f | .vfmin f | .vfmax f | .vhadd f | .vhmul f => some (formA f 6)
  | .vdadd f | .vdmul f => some (formA64 f 8)
  | .vcmp f => some { guard := some f.p.toNat, opds := [.v f.va.toNat, .rv f.lm.toNat f.vb.toNat], dst := .p f.pd.toNat, lat := some 4 }
  | .vfcmp f => some { guard := some f.p.toNat, opds := [.v f.va.toNat, .rv f.lm.toNat f.vb.toNat], dst := .p f.pd.toNat, lat := some 6 }
  | .vsel f => some { guard := some f.p.toNat, opds := [.v f.va.toNat, .v f.vb.toNat, .p f.ps.toNat], dst := .v f.vd.toNat, lat := some 4 }
  | .vaddi f | .vandi f | .vori f | .vxori f => some (formI f)
  | .vshi f => some { guard := some f.p.toNat, opds := [.v f.va.toNat], dst := .v f.vd.toNat, lat := some 4 }
  | .vcmpi f => some { guard := some f.p.toNat, opds := [.v f.va.toNat], dst := .p f.pd.toNat, lat := some 4 }
  | .vmovi f => some { guard := some f.p.toNat, opds := [], dst := .v f.vd.toNat, lat := some 4 }
  | .vmov f | .vnot f | .vneg f | .vabs f | .vclz f | .vpopc f | .vbrev f | .vsextB f | .vsextH f | .vzextB f | .vzextH f =>
    some (formU f (some 4))
  | .vfneg f | .vfabs f | .vffloor f | .vfceil f | .vftrunc f | .vfrint f => some (formU f (some 6))
  | .vrcp f | .vrsq f | .vsqrt f | .vex2 f | .vlg2 f | .vsin f | .vcos f | .vtanh f => some (formU f none)
  | .vdivU f | .vdivS f | .vremU f | .vremS f | .vfdiv f => some (formS f)
  | .vcvt f => some (formV f)
  | .qxchH f => some (formQ f.p.toNat f.vd.toNat (.quadX 1 f.va.toNat))
  | .qxchV f => some (formQ f.p.toNat f.vd.toNat (.quadX 2 f.va.toNat))
  | .qxchD f => some (formQ f.p.toNat f.vd.toNat (.quadX 3 f.va.toNat))
  | .qbcast f => some (formQ f.p.toNat f.vd.toNat (.quadB f.n.toNat f.va.toNat))
  | .vvoteAny f | .vvoteAll f => some { guard := some f.p.toNat, opds := [.gangP f.ps.toNat], dst := .p f.pd.toNat, lat := some 6 }
  | .vballot f => some { guard := some f.p.toNat, opds := [.gangP f.ps.toNat], dst := .v64 f.vd.toNat, lat := some 6 }
  | .vredu f => some { guard := some f.p.toNat, opds := [.gangV f.va.toNat], dst := .v f.vd.toNat, lat := none }
  | .vseti f => some { guard := some f.p.toNat, opds := [.v f.va.toNat], dst := .ix f.n.toNat, lat := some 4 }
  | .vmovx f => some { guard := some f.p.toNat, opds := [.ix f.n.toNat, .win f.n.toNat], dst := .v f.vd.toNat, lat := some 4 }
  | .vstx f => some { guard := some f.p.toNat, opds := [.v f.vs.toNat, .ix f.n.toNat], dst := .win f.n.toNat, lat := some 4 }
  | .getv f => some { guard := some f.p.toNat, opds := [], dst := .v f.vd.toNat, lat := some 4 }
  | .vmovu f => some { guard := some f.p.toNat, opds := [.s f.sa.toNat], dst := .v f.vd.toNat, lat := some 4 }
  | .vfma f | .vfnma f | .vhfma f | .vdot2 f => some (formF f)
  | .vmad f => some { formF f with lat := some 4 }
  | .vdfma f =>
    some { guard := none, opds := [.v64 f.va.toNat, .v64 f.vb.toNat, .v64 f.vc.toNat], dst := .v64 f.vd.toNat, lat := some 8 }
  | .vbdotT8 f | .vbdotT6 f => some (formB f)
  | .vbdotI8 f =>
    some { guard := none, opds := [.block 0 8 f.va.toNat, .block 0 8 f.vb.toNat, .v f.vd.toNat], dst := .v f.vd.toNat, lat := none }
  | .vreq f => some { guard := none, opds := [.v f.va.toNat, .v f.vb.toNat], dst := .v f.vd.toNat, lat := some 6 }
  | _ => none

/-- The v registers that a destination of a thread writes. -/
def Dst.vregs (d : Dst) (t : Team) (y : Thread) : List Nat :=
  match d with
  | .v n => [n]
  | .v64 n => [n, n + 1]
  | .win i => [t.wbase + (y.iget i).toNat]
  | _ => []

/-- Everything outside the teams is as it was. -/
def OutsideTeams (s t : State) : Prop := { t with teams := s.teams } = s

/-- A thread whose registers outside a destination, and whose every other field, are as they were. -/
def ThreadKeeps (d : Dst) (T : Team) (y z : Thread) : Prop :=
  { z with v := y.v, p := y.p, ix := y.ix, bad := y.bad } = y ∧
  (∀ n, n ∉ Dst.vregs d T y → z.vget n = y.vget n) ∧
  (∀ n, (∀ m, d = .p m → n ≠ m) → z.pget n = y.pget n) ∧
  (∀ i, i < 4 → (∀ m, d = .ix m → i ≠ m) → z.iget i = y.iget i)

/-- A team whose fields beside its threads and its results under way are as they were. -/
def TeamKeeps (T U : Team) : Prop :=
  { U with threads := T.threads, marks := T.marks, results := T.results, fpend := T.fpend } = T

end Sys2Proof.Claims

/-- R28, R415, R417: what a vector instruction that traps in no thread leaves alone: everything outside the teams, memory
included; every other team; of its own team every field but the threads' destination registers and the results under way;
the threads outside the group; and those whose guard is 0. The count of free values alone may move, where VREDU reads a lane early. -/
def Obligations.VectorInstructionsChangeOnlyTheirDestination : Prop :=
  ∀ (i : Instr) (F : Form), vform i = some F → ∀ (s : State) (x : Ctx), Ready s x F.guard F.opds → DstOk s x F.guard F.dst →
    ∃ t, exec i s = .next t ∧ OutsideTeams s { t with fresh := s.fresh } ∧ ((∀ f, i ≠ .vredu f) → t.fresh = s.fresh) ∧
      (∀ k, k ≠ x.team → t.team k = s.team k) ∧ TeamKeeps (s.team x.team) (t.team x.team) ∧
      ∀ j, if j ∈ x.group ∧ s.guardOn x F.guard j = true then
          ThreadKeeps F.dst (s.team x.team) ((s.team x.team).thread j) ((t.team x.team).thread j)
        else (t.team x.team).thread j = (s.team x.team).thread j

/-- R289, R280, R296: entry to the user handler: the thread takes the trap's values, keeps its registers and REGIONCNT, and joins
the entry at TRAPVEC in state 4; memory and the other threads are untouched. A trap in a thread that is in a user handler, and any
trap when TRAPVEC is 0, kills the context: it is no longer resident, its entries leave the block table, and its threads exit, but
for those to which the instruction that is issuing has still to issue; here none of its engine commands is under way. -/
def Obligations.TrapEntersTheHandlerOrKills : Prop :=
  (∀ (s : State) (k j c sl : Nat) (i : TrapInfo), (s.team k).state = .resident c sl →
    ((s.team k).thread j).loc ≠ .exited → ((s.team k).thread j).loc ≠ .vacant → ((s.team k).thread j).loc ≠ .dormant →
    ((s.team k).thread j).handler = false → (s.team k).trapVec ≠ 0 →
      let t := s.trapThread k j i
      let y := (s.team k).thread j
      let z := (t.team k).thread j
      z.trapCause = i.cause ∧ z.info0 = i.info0 ∧ z.info1 = i.info1 ∧ z.trapPc = i.pc ∧ z.handler = true ∧
        z.loc = .waits (s.team k).trapVec ∧ z.v = y.v ∧ z.p = y.p ∧ z.ix = y.ix ∧ z.regionCnt = y.regionCnt ∧
        t.mem = s.mem ∧ ∀ m, m ≠ j → (t.team k).thread m = (s.team k).thread m) ∧
  (∀ (s : State) (k j c sl : Nat) (i : TrapInfo), (s.team k).state = .resident c sl →
    ((s.team k).thread j).loc = .pass → (((s.team k).thread j).handler = true ∨ (s.team k).trapVec = 0) →
    s.laterGroups k = [] → (s.team k).susp = [] →
    (∀ cl ∈ s.clusters, cl.2.matrix.table = [] ∧ cl.2.copy.table = []) →
      let t := s.trapThread k j i
      (t.team k).state = .killed c sl ∧ (t.core c).table.all (fun e => e.team != k) = true ∧
        ∀ m, ((s.team k).thread m).loc ≠ .vacant → ((s.team k).threads.find? m).isSome → ((t.team k).thread m).loc = .exited)

/-- R85, R86, R280, R27, R127: where the one thread of a group consumes a poisoned word, or its routing or window index is refused, it does
not complete: it takes the trap, with the entry of R289; consuming poisoned v[n] is RF_UE at the instruction, with the register's
number and the thread; a pawn takes no trap, and its destination receives zero. With WAITCHECK set, an instruction whose operand is
not yet readable does not issue: the thread traps WAIT_SHORT at it, with the operand of the largest shortfall and its producer, and no
register of it changes. -/
def Obligations.OperandsThatTrap : Prop :=
  ((∀ (i : Instr) (F : Form), vform i = some F → ∀ (s : State) (x : Ctx) (j c sl : Nat) (e : TrapInfo),
    s.ctx = some x → x.group = [j] → (s.team x.team).isPawn j = false →
    s.anyEarly x (s.compared x F.guard F.opds) = false → (s.team x.team).consumed (guardRd F.guard j) = none →
    s.guardOn x F.guard j = true → s.consume x j F.opds = .error e →
    (s.team x.team).state = .resident c sl → ((s.team x.team).thread j).loc = .pass →
    ((s.team x.team).thread j).handler = false → (s.team x.team).trapVec ≠ 0 →
      ∃ t, exec i s = .next t ∧ ((t.team x.team).thread j).handler = true ∧ ((t.team x.team).thread j).trapCause = e.cause ∧
        ((t.team x.team).thread j).info0 = e.info0 ∧ ((t.team x.team).thread j).trapPc = e.pc ∧
        ((t.team x.team).thread j).v = ((s.team x.team).thread j).v ∧ t.mem = s.mem) ∧
  (∀ (s : State) (x : Ctx) (j n : Nat), n < 64 → n ∈ ((s.team x.team).thread j).bad →
    s.consume x j [.v n] = .error { cause := causeRfUe, info0 := BitVec.ofNat 64 (n + 2 ^ 16 * j), info1 := 0, pc := x.pc }) ∧
  (∀ (i : Instr) (F : Form), vform i = some F → ∀ (s : State) (x : Ctx) (j : Nat),
    s.ctx = some x → x.group = [j] → (s.team x.team).isPawn j = true → s.anyEarly x (s.compared x F.guard F.opds) = false →
    ((s.team x.team).consumed (guardRd F.guard j) ≠ none ∨
      s.guardOn x F.guard j = true ∧ ∃ e, s.consume x j F.opds = .error e) →
    (∀ n, F.dst = .win n → (((s.team x.team).thread j).iget n).toNat < (s.team x.team).wlen) →
      ∃ t, exec i s = .next t ∧ Lands F t x.team j 0 ∧ t.mem = s.mem ∧
        (∀ k, k ≠ x.team → t.team k = s.team k) ∧ TeamKeeps (s.team x.team) (t.team x.team) ∧
        (t.team x.team).fpend = (s.team x.team).fpend ∧
        ThreadKeeps F.dst (s.team x.team) ((s.team x.team).thread j) ((t.team x.team).thread j))) ∧
  ∀ (i : Instr) (F : Form), vform i = some F → ∀ (s : State) (x : Ctx) (j c sl : Nat) (r : Rd) (m : Mark),
    s.ctx = some x → x.group = [j] → (s.team x.team).isPawn j = false → s.guardOn x F.guard j = true →
    (s.team x.team).waitCheck = true → (s.team x.team).worst x (s.compared x F.guard F.opds j) = some r →
    (s.team x.team).markOf x r = some m → (s.team x.team).state = .resident c sl →
    ((s.team x.team).thread j).loc = .pass → ((s.team x.team).thread j).handler = false → (s.team x.team).trapVec ≠ 0 →
      ∃ t, exec i s = .next t ∧
        let z := (t.team x.team).thread j
        z.handler = true ∧ z.trapCause = causeWaitShort ∧ z.trapPc = x.pc ∧ z.info1 = m.pc ∧
        z.info0 = BitVec.ofNat 64 (slotNumber r.slot + 256 * min 255 (m.avail + r.early - x.cc)) ∧
        z.v = ((s.team x.team).thread j).v ∧ z.p = ((s.team x.team).thread j).p ∧ z.ix = ((s.team x.team).thread j).ix

/-! ### Operands: what an issued thread reads -/

namespace Sys2Proof.Claims

/-- The source gang lane of a routed read by gang lane l in a gang of w lanes (R129), from the fields of the descriptor (R128): the
mode, the scope in bits 5:4, and the parameter in bits 11:6. An IDX routing takes its lane from the reader's register. -/
def sourceLane (d : BitVec 16) (w l index : Nat) : Nat :=
  let whole := d.extractLsb' 4 2 = 1
  let n := if whole then w else 4
  let base := if whole then 0 else 4 * (l / 4)
  let param := (d.extractLsb' 6 6).toNat
  base + (match (d.extractLsb' 0 3).toNat with
    | 1 => (l - base + param) % n
    | 2 => param % n
    | 3 => (l - base) ^^^ (param % n)
    | 4 => index % n
    | _ => n - 1 - (l - base))

/-- A descriptor that makes a routed read trap (R128): MODE 0, 6 or 7, SCOPE 2 or 3, or a bit of 15:12. -/
def badRoute (d : BitVec 16) : Prop :=
  d.extractLsb' 0 3 ∈ [(0 : BitVec 3), 6, 7] ∨ d.extractLsb' 4 2 ∈ [(2 : BitVec 2), 3] ∨ d.extractLsb' 12 4 ≠ 0

/-- The thread at gang lane l of thread j's gang (R42), and whether it is in the issue group. -/
def atLane (t : Team) (j l : Nat) : Nat := j / t.w * t.w + l
def inGroup (t : Team) (x : Ctx) (j l : Nat) : Bool := x.group.contains (atLane t j l)

/-- The source lane of thread j's read through lane map m. -/
def routeOf (t : Team) (j m : Nat) : Nat :=
  let d := t.lmGet m
  sourceLane d t.w (j % t.w) ((t.thread j).vget (d.extractLsb' 6 6).toNat).toNat

/-- v[n] of a thread as a value, or the pair from v[n] up. -/
def ownValue (t : Team) (j n : Nat) (wide : Bool) : DWord := if wide then (t.thread j).v64 n else zx ((t.thread j).vget n)

/-- A read of another lane (R42): its thread's value where it is in the group, else the fill, which is the reader's own value or zero. -/
def laneValue (t : Team) (x : Ctx) (j l n : Nat) (wide fill : Bool) : DWord :=
  if inGroup t x j l then ownValue t (atLane t j l) n wide else if fill then ownValue t j n wide else 0

/-- A read routed through lane map m; m = 0 names no routing (R55, R130). -/
def routedValue (t : Team) (x : Ctx) (j m n : Nat) (wide : Bool) : DWord :=
  if m = 0 then ownValue t j n wide else laneValue t x j (routeOf t j m) n wide ((t.lmGet m).getLsbD 3)

/-- What the lanes from lo up hold, k of them: nothing for a lane whose thread is not in the group. -/
def laneValues (t : Team) (x : Ctx) (j lo k : Nat) (val : Thread → DWord) : List (Option DWord) :=
  (List.range k).map (fun c => if inGroup t x j (lo + c) then some (val (t.thread (atLane t j (lo + c)))) else none)

/-- What an operand gives thread j: v[n] and pairs (R54), routed reads, the quad partner of R453, a predicate, an index register and
the window register it selects (R80), s[n] of its gang, the lanes of its block of eight (R107) and of its gang (R111, R454). -/
def operandValue (t : Team) (x : Ctx) (j : Nat) (o : Opd) : List (Option DWord) :=
  let y := t.thread j
  let l := j % t.w
  match o with
  | .v n => [some (ownValue t j n false)]
  | .v64 n => [some (ownValue t j n true)]
  | .rv m n => [some (routedValue t x j m n false)]
  | .rv64 m n => [some (routedValue t x j m n true)]
  | .quadX k n => [some (laneValue t x j (4 * (l / 4) + ((l % 4) ^^^ k)) n false true)]
  | .quadB k n => [some (laneValue t x j (4 * (l / 4) + k) n false true)]
  | .p n => [some (if y.pget n then 1 else 0)]
  | .ix i => [some ((y.iget i).zeroExtend 64)]
  | .win i => [some (ownValue t j (t.wbase + (y.iget i).toNat) false)]
  | .s n => [some (t.sget (j / t.w) n)]
  | .block lo k n => laneValues t x j (8 * (l / 8) + lo) k (fun z => zx (z.vget n))
  | .gangV n => laneValues t x j 0 t.w (fun z => zx (z.vget n))
  | .gangP n => laneValues t x j 0 t.w (fun z => if z.pget n then 1 else 0)

/-- An operand that names registers there are. -/
def Named (o : Opd) : Prop :=
  match o with
  | .v n | .rv _ n | .block _ _ n | .gangV n => n < 64
  | .v64 n | .rv64 _ n => n < 63
  | .quadX k n | .quadB k n => k < 4 ∧ n < 64
  | .p n | .gangP n => n < 8
  | .ix i | .win i => i < 4
  | .s n => n < 32

/-- A team whose gangs have a width, and whose window lies within the registers (R7, R80). -/
def Shaped (t : Team) : Prop := (t.w = 16 ∨ t.w = 32 ∨ t.w = 64) ∧ t.wbase + t.wlen ≤ 64

/-- One of thread b's v registers from n up is poisoned, one or two of them (R84). -/
def Bad (t : Team) (b n : Nat) (wide : Bool) : Prop := n ∈ (t.thread b).bad ∨ wide = true ∧ n + 1 ∈ (t.thread b).bad

/-- A read through lane map m consumes a poisoned word (R85): the source thread's where it is in the group, and no register for a fill
value; IDX also consumes the reader's index. -/
def BadRoute (t : Team) (x : Ctx) (j m n : Nat) (wide : Bool) : Prop :=
  if m = 0 then Bad t j n wide else
    inGroup t x j (routeOf t j m) = true ∧ Bad t (atLane t j (routeOf t j m)) n wide ∨
      (t.lmGet m).extractLsb' 0 3 = 4 ∧ Bad t j ((t.lmGet m).extractLsb' 6 6).toNat false

/-- An operand of thread j consumes a poisoned word (R85). Predicates share a word, and so do the index registers: 64 and 65 (R84). -/
def Consumes (t : Team) (x : Ctx) (j : Nat) (o : Opd) : Prop :=
  let y := t.thread j
  let l := j % t.w
  let other := fun (m n : Nat) => inGroup t x j m = true ∧ n ∈ (t.thread (atLane t j m)).bad
  match o with
  | .v n => Bad t j n false
  | .v64 n => Bad t j n true
  | .rv m n => BadRoute t x j m n false
  | .rv64 m n => BadRoute t x j m n true
  | .quadX k n => other (4 * (l / 4) + ((l % 4) ^^^ k)) n
  | .quadB k n => other (4 * (l / 4) + k) n
  | .p n => n ≠ 0 ∧ 64 ∈ y.bad
  | .ix _ => 65 ∈ y.bad
  | .win i => t.wbase + (y.iget i).toNat ∈ y.bad
  | .s n => t.spoison (j / t.w) n = true
  | .block lo k n => ∃ c, c < k ∧ other (8 * (l / 8) + lo + c) n
  | .gangV n => ∃ c, c < t.w ∧ other c n
  | .gangP n => n ≠ 0 ∧ ∃ c, c < t.w ∧ other c 64

/-- The trap of an operand that thread j cannot read, whatever its registers hold: LANE_MAP of a bad descriptor (R128), REG_BOUNDS of
an index at or past the window's end (R80). -/
def operandRefused (t : Team) (x : Ctx) (j : Nat) (o : Opd) (e : TrapInfo) : Prop :=
  match o with
  | .rv m _ | .rv64 m _ => m ≠ 0 ∧ badRoute (t.lmGet m) ∧
      e = { cause := causeLaneMap, info0 := BitVec.ofNat 64 ((t.lmGet m).toNat + 2 ^ 16 * m), info1 := 0, pc := x.pc }
  | .win i => t.wlen ≤ ((t.thread j).iget i).toNat ∧
      e = { cause := causeRegBounds, info0 := ((t.thread j).iget i).zeroExtend 64, info1 := 0, pc := x.pc }
  | _ => False

end Sys2Proof.Claims

/-- R42, R55, R80, R85, R107, R111, R128, R129, R130, R453, R454: what every operand gives a thread that an instruction runs in: its
own registers, the routed read by each mode, scope and fill, the quad partner, the lanes of its block and of its gang, its index
register and the window register. Where all registers are readable, an instruction's operands are read in a thread exactly where
no routing and no window index is refused and no poisoned word is consumed, and a refused one traps LANE_MAP or REG_BOUNDS. -/
def Obligations.OperandValues : Prop :=
  (∀ (s : State) (x : Ctx) (j : Nat) (g : Option Nat) (os : List Opd) (vs : List (List (Option DWord))),
    Runs s x j g os vs → Shaped (s.team x.team) → (∀ o ∈ os, Named o) → (∀ i, .win i ∈ os → .ix i ∈ os) →
      vs = os.map (operandValue (s.team x.team) x j)) ∧
  ∀ (s : State) (x : Ctx) (j : Nat) (os : List Opd), Shaped (s.team x.team) → (∀ r, (s.team x.team).short x r = 0) →
    (∀ o ∈ os, Named o) →
      ((∃ vs, s.consume x j os = .ok vs) ↔
        ∀ o ∈ os, (∀ e, ¬operandRefused (s.team x.team) x j o e) ∧ ¬Consumes (s.team x.team) x j o) ∧
      ∀ o e, os = [o] → operandRefused (s.team x.team) x j o e → s.consume x j os = .error e

/-! ### Rounding and block steps -/

namespace Sys2Proof.Claims

/-- The number m·2^e. -/
def dyad (m : Int) (e : Int) : Rat := m * (2 : Rat) ^ e

/-- The magnitude that code c of a format stands for, the sign bit left out (R90): a subnormal counts units of the last place, and each
exponent above doubles them. The code of +∞ stands for the number after the largest. -/
def magOf (f : FFmt) (c : Nat) : Rat :=
  if c < 2 ^ (f.p - 1) then dyad c f.qmin
  else dyad ((c % 2 ^ (f.p - 1) + 2 ^ (f.p - 1) : Nat) : Int) (f.qmin + (c / 2 ^ (f.p - 1) : Nat) - 1)

/-- Does a rounding mode move a number of this sign away from zero, and towards which neighbours (R60, R90): RNE by the midpoint and
an even code, RTZ never, RDN and RUP by the sign? -/
def goesUp (r : BitVec 2) (s : Bool) (below above : Prop) : Prop :=
  (r = 0 ∧ below) ∨ (r = 2 ∧ s = true ∧ above) ∨ (r = 3 ∧ s = false ∧ above)

/-- A number between the magnitudes of codes c and c + 1 goes up to the second. -/
def upFrom (f : FFmt) (r : BitVec 2) (s : Bool) (c : Nat) (x : Rat) : Prop :=
  let mid := (magOf f c + magOf f (c + 1)) / 2
  goesUp r s (mid < x ∨ x = mid ∧ c % 2 = 1) (magOf f c < x)

/-- A number below the normal numbers that rounds to the least of them when exponents are unbounded (R90: tininess is detected after
rounding): there the spacing below the least normal number is half the subnormals'. -/
def reachesNormal (f : FFmt) (r : BitVec 2) (s : Bool) (x : Rat) : Prop :=
  let least := magOf f (2 ^ (f.p - 1))
  goesUp r s (least - dyad 1 (f.qmin - 2) ≤ x) (least - dyad 1 (f.qmin - 1) < x)

/-- What rounding a nonzero magnitude m·2^e of sign s to a format gives (R90, R92): a code's own number exactly and with no flag; between
two numbers, one of them by the mode, with NX, and UF where it is tiny; past the largest, infinity or the largest by the mode, with
OF and NX. -/
def Rounds (f : FFmt) (r : BitVec 2) (s : Bool) (m : Nat) (e : Int) (res : Nat × BitVec 5) : Prop :=
  let x := dyad m e
  (∀ c, c < f.inf → magOf f c ≤ x → x < magOf f (c + 1) →
    (x = magOf f c → res = (f.signed s c, 0)) ∧
    (x ≠ magOf f c → ¬upFrom f r s c x →
      res = (f.signed s c, flagNX ||| (if c < 2 ^ (f.p - 1) then flagUF else 0))) ∧
    (x ≠ magOf f c → upFrom f r s c x → c + 1 < f.inf →
      (c + 1 < 2 ^ (f.p - 1) → res = (f.signed s (c + 1), flagNX ||| flagUF)) ∧
      (c + 1 = 2 ^ (f.p - 1) → (reachesNormal f r s x → res = (f.signed s (c + 1), flagNX)) ∧
        (¬reachesNormal f r s x → res = (f.signed s (c + 1), flagNX ||| flagUF))) ∧
      (2 ^ (f.p - 1) < c + 1 → res = (f.signed s (c + 1), flagNX))) ∧
    (x ≠ magOf f c → upFrom f r s c x → c + 1 = f.inf → res = (f.signed s f.inf, flagOF ||| flagNX))) ∧
  (magOf f f.inf ≤ x →
    (goesUp r s True True → res = (f.signed s f.inf, flagOF ||| flagNX)) ∧
    (¬goesUp r s True True → res = (f.signed s (f.inf - 1), flagOF ||| flagNX)))

/-- What a code of a format with 16 or 32 bits is, by its exponent and fraction; its number where it is finite. -/
def NanCode (f : FFmt) (c : Nat) : Prop := f.inf < c % f.signBit
def InfCode (f : FFmt) (c : Nat) : Prop := c % f.signBit = f.inf
def FinCode (f : FFmt) (c : Nat) : Prop := c % f.signBit < f.inf
def signOf (f : FFmt) (c : Nat) : Bool := decide (f.signBit ≤ c)
def number (f : FFmt) (c : Nat) : Rat := (if signOf f c then -1 else 1) * magOf f (c % f.signBit)

/-- The rounding of T8 and T6 (R108): past the largest value the largest code; else the nearest code, of two as near the one whose bit 0
is clear, and 0 without a sign for zero. -/
def RoundsTap (k : Tap) (s : Bool) (x : Rat) (res : Nat × BitVec 5) : Prop :=
  let n := if k = .t8 then 128 else 32
  let top : Rat := if k = .t8 then 15 else 7
  let y := x * (if k = .t8 then 64 else 16)
  let sign := if s then n else 0
  let mag := fun (c : Nat) => (((k.decode c).getD 0 : Int) : Rat)
  let far := fun (c : Nat) => if mag c ≤ y then y - mag c else mag c - y
  (top < x → res = (sign + n - 1, flagOF ||| flagNX)) ∧
  (x ≤ top → ∃ c, c < n ∧ (∀ c', c' < n → c' ≠ c → far c < far c' ∨ far c = far c' ∧ c % 2 = 0) ∧
    res = (if c = 0 then 0 else sign + c, (if mag c = y then 0 else flagNX) ||| (if c = 0 ∧ x ≠ 0 then flagUF else 0)))

/-- An FP32 accumulator and a finite y added with one rounding (R103, R105): a NaN stays one, with NV if it is signalling; an infinity
stays; an exact zero sum is +0, or −0 under RDN, but that +0 and a zero y give +0 in every mode. -/
def Accumulates (r : BitVec 2) (acc : Nat) (y : Rat) (res : Nat × BitVec 5) : Prop :=
  (NanCode fmt32 acc → res = (0x7FC00000, if acc.testBit 22 then 0 else flagNV)) ∧ (InfCode fmt32 acc → res = (acc, 0)) ∧
  (FinCode fmt32 acc →
    (number fmt32 acc + y = 0 → res = (if r = 2 ∧ acc ≠ 0 then 0x80000000 else 0, 0)) ∧
    (number fmt32 acc + y ≠ 0 → ∃ (s : Bool) (m : Nat) (e : Int), m ≠ 0 ∧
      (if s then -1 else 1) * dyad m e = number fmt32 acc + y ∧ Rounds fmt32 r s m e res))

/-- An invalid product of BF16 elements (R105): of a NaN, or of an infinity and a zero; and an infinite one of sign s. -/
def BadProduct (p : Nat × Nat) : Prop :=
  NanCode fmtB16 p.1 ∨ NanCode fmtB16 p.2 ∨ (InfCode fmtB16 p.1 ∧ p.2 % 2 ^ 15 = 0) ∨ (p.1 % 2 ^ 15 = 0 ∧ InfCode fmtB16 p.2)
def InfProduct (s : Bool) (p : Nat × Nat) : Prop :=
  (InfCode fmtB16 p.1 ∨ InfCode fmtB16 p.2) ∧ xor (signOf fmtB16 p.1) (signOf fmtB16 p.2) = s

/-- A product of finite scales, and the exponent of a product of elements (R98, R103). -/
def gridOf (k : Tap) : Int := if k = .t8 then -12 else -8

/-- A node of VREDU's tree (R111, R455). -/
def nodeOf (op : RedOp) (r : BitVec 2) (a b : Word) : Word × BitVec 5 :=
  match op with
  | .add => (a + b, 0)
  | .and => (a &&& b, 0)
  | .or => (a ||| b, 0)
  | .xor => (a ^^^ b, 0)
  | .minS => (if a.toInt ≤ b.toInt then a else b, 0)
  | .maxS => (if a.toInt ≤ b.toInt then b else a, 0)
  | .minU => (if a.toNat ≤ b.toNat then a else b, 0)
  | .maxU => (if a.toNat ≤ b.toNat then b else a, 0)
  | .fadd => fx (fmt32.add r a.toNat b.toNat)
  | .fmin => fx (fmt32.minMax false a.toNat b.toNat)
  | .fmax => fx (fmt32.minMax true a.toNat b.toNat)

/-- Two halves of a tree joined: an absent one stands aside, with no rounding and no flag (R111). -/
def joined (op : RedOp) (r : BitVec 2) (a b : Option Word × BitVec 5) : Option Word × BitVec 5 :=
  match a.1, b.1 with
  | some u, some v => (some (nodeOf op r u v).1, a.2 ||| b.2 ||| (nodeOf op r u v).2)
  | none, v => (v, a.2 ||| b.2)
  | u, none => (u, a.2 ||| b.2)

end Sys2Proof.Claims

/-- R90, R92, R108: in FP32, FP64 and BF16 a nonzero exact value rounds to the neighbour that the mode selects, with NX, OF and UF, UF only for
a result that is both inexact and tiny after rounding; a code's number is that of its fields; and T8 and T6 take the nearest
code, of two as near the one whose bit 0 is clear. R105, R431: the BF16 block sum is
exact, over products of which an invalid one or two infinities of opposite signs give the canonical NaN with NV and an infinite one
its infinity, and one rounding adds it. R103: the block step of T8 and T6. R111: the tree of VREDU, half by half. -/
def Obligations.RoundingAndBlockSteps : Prop :=
  (∀ f ∈ [fmt32, fmt64, fmtB16], (∀ (r : BitVec 2) (s : Bool) (m : Nat) (e : Int), m ≠ 0 → Rounds f r s m e (f.round r s m e)) ∧
    ∀ c, c < 2 * f.signBit → FinCode f c → ∃ (m : Nat) (e : Int), f.unpack c = .fin (signOf f c) m e ∧
      dyad m e = magOf f (c % f.signBit)) ∧
  (∀ (k : Tap) (s : Bool) (m : Nat) (e : Int), RoundsTap k s (dyad m e) (k.roundDyadic s m e)) ∧
  (∀ (r : BitVec 2) (acc : Nat) (a b : List Nat), acc < 2 ^ 32 → a.length = b.length → (∀ c ∈ a ++ b, c < 2 ^ 16) →
    let ps := a.zip b
    let res := bf16Step r acc a b
    ((∃ p ∈ ps, BadProduct p) → res = (0x7FC00000, flagNV)) ∧
    ((∀ p ∈ ps, ¬BadProduct p) →
      ((∃ p ∈ ps, InfProduct true p) → (∃ p ∈ ps, InfProduct false p) → res = (0x7FC00000, flagNV)) ∧
      (∀ s, (∃ p ∈ ps, InfProduct s p) → (∀ p ∈ ps, ¬InfProduct (!s) p) →
        (NanCode fmt32 acc → res = (0x7FC00000, if acc.testBit 22 then 0 else flagNV)) ∧
        (InfCode fmt32 acc → signOf fmt32 acc ≠ s → res = (0x7FC00000, flagNV)) ∧
        (¬NanCode fmt32 acc → (InfCode fmt32 acc → signOf fmt32 acc = s) → res = (fmt32.signed s fmt32.inf, 0))) ∧
      ((∀ p ∈ ps, ¬InfProduct true p ∧ ¬InfProduct false p) →
        Accumulates r acc ((ps.map (fun p => number fmtB16 p.1 * number fmtB16 p.2)).sum) res))) ∧
  (∀ (k : Tap) (r : BitVec 2) (acc : Nat) (a b : List Nat) (sa sb : Nat), acc < 2 ^ 32 → a.length = b.length →
    let res := k.blockStep r acc a b sa sb
    ((∃ c ∈ a ++ b, k.decode c = none) ∨ sx8 sa = .nan ∨ sx8 sb = .nan → res = (0x7FC00000, flagNV)) ∧
    ((∀ c ∈ a ++ b, k.decode c ≠ none) → sx8 sa ≠ .nan → sx8 sb ≠ .nan →
      (sx8 sa = .zero ∨ sx8 sb = .zero → Accumulates r acc 0 res) ∧
      ∀ m1 e1 m2 e2, sx8 sa = .fin m1 e1 → sx8 sb = .fin m2 e2 →
        let x := ((a.zip b).map (fun p => (k.decode p.1).getD 0 * (k.decode p.2).getD 0)).sum
        Accumulates r acc (dyad (x * m1 * m2) (e1 + e2 + gridOf k)) res)) ∧
  ∀ (op : RedOp) (r : BitVec 2), (∀ v, redTree op r 0 [v] = (v, 0)) ∧
    (∀ (n : Nat) (l h : List (Option Word)), l.length = 2 ^ n → h.length = 2 ^ n →
      redTree op r (n + 1) (l ++ h) = joined op r (redTree op r n l) (redTree op r n h)) ∧
    ∀ w, w = 16 ∨ w = 32 ∨ w = 64 → 2 ^ levels w = w

/-! ### Uniform instructions and special registers -/

namespace Sys2Proof.Claims

/-- The s registers that an instruction reads for a thread's gang; s0 is no register (R55). -/
def gangReads (srcs : List Nat) (t : Team) (j : Nat) : List Rd :=
  srcs.flatMap (fun n => if n == 0 then [] else [{ owner := t.gangOf j, slot := sSlot n, early := 0 }])

/-- Nothing stops the issue of an instruction that acts per gang: in the context x, the s registers that it reads are
readable (R44, R127) and hold no poison (R85). -/
def Uniform (s : State) (x : Ctx) (srcs : List Nat) : Prop :=
  s.ctx = some x ∧ s.anyEarly x (gangReads srcs (s.team x.team)) = false ∧
    ∀ g ∈ x.gangs (s.team x.team), ∀ n ∈ srcs, (s.team x.team).spoison g n = false

/-- The same, for a group of one gang, which has a real thread. -/
def OneGang (s : State) (x : Ctx) (g : Nat) (srcs : List Nat) : Prop :=
  Uniform s x srcs ∧ x.gangs (s.team x.team) = [g] ∧ x.realGangs (s.team x.team) = [g]

/-- UOP's functions (R414): shifts use b[5:0]. -/
def uniformS : List ((FS → Instr) × (DWord → DWord → DWord)) :=
  [(.uadd, fun a b => a + b), (.usub, fun a b => a - b), (.umul, fun a b => a * b),
    (.umulhU, fun a b => BitVec.ofNat 64 (a.toNat * b.toNat / 2 ^ 64)), (.uand, fun a b => a &&& b),
    (.uor, fun a b => a ||| b), (.uxor, fun a b => a ^^^ b), (.ushl, fun a b => a <<< (b.toNat % 64)),
    (.ushrU, fun a b => a >>> (b.toNat % 64)), (.ushrS, fun a b => a.sshiftRight (b.toNat % 64)),
    (.uminS, fun a b => if a.toInt ≤ b.toInt then a else b), (.uminU, fun a b => if a.toNat ≤ b.toNat then a else b),
    (.umaxS, fun a b => if a.toInt ≤ b.toInt then b else a), (.umaxU, fun a b => if a.toNat ≤ b.toNat then b else a),
    (.usltS, fun a b => if a.toInt < b.toInt then 1 else 0), (.usltU, fun a b => if a.toNat < b.toNat then 1 else 0),
    (.useq, fun a b => if a = b then 1 else 0)]

/-- s[n] of a gang holds a value; s0 reads 0 (R55). -/
def SHolds (t : Team) (g n : Nat) (a : DWord) : Prop := t.sget g n = if n = 0 then 0 else a

/-- FFLAGS as an issue in a cycle sees it: with the exceptions of the results written by then (R62). -/
def flagsAt (t : Team) (cc : Nat) : BitVec 5 :=
  t.fflags ||| ((t.fpend.filter (fun f => decide (f.1 ≤ cc))).foldl (fun a f => a ||| f.2) 0)

/-- The special registers of team scope and wider with their values (R60). -/
def teamRegisters (s : State) (x : Ctx) : List (Nat × DWord) :=
  let t := s.team x.team
  [(0x00, t.teamId.zeroExtend 64), (0x01, t.leagueId.zeroExtend 64), (0x02, BitVec.ofNat 64 t.leaguePos),
    (0x03, t.gridTeams.zeroExtend 64), (0x04, BitVec.ofNat 64 t.t), (0x05, BitVec.ofNat 64 t.w),
    (0x06, BitVec.ofNat 64 ((t.t + t.w - 1) / t.w)), (0x07, BitVec.ofNat 64 x.cc),
    (0x08, BitVec.ofNat 64 (s.part.wall / 882)), (0x09, t.frm.zeroExtend 64), (0x0A, (flagsAt t x.cc).zeroExtend 64),
    (0x0B, t.trapVec), (0x11, if t.waitCheck then 1 else 0), (0x12, t.btimeout.zeroExtend 64), (0x13, s.part.capVa),
    (0x14, t.ctxid)]

/-- The special registers of thread scope: whether they are 64 bits wide, and their values (R60). -/
def threadRegisters : List (Nat × Bool × (Thread → DWord)) :=
  [(0x0C, false, fun y => y.trapCause.zeroExtend 64), (0x0D, true, fun y => y.info0), (0x0E, true, fun y => y.info1),
    (0x0F, true, fun y => y.trapPc), (0x10, false, fun y => y.regionCnt.zeroExtend 64)]

/-- A team after the write of a value's low bits to a special register of team scope, of its width (R61); of FFLAGS, the exceptions of
results written by then are gone. -/
def TeamSet (n : Nat) (a : DWord) (t u : Team) : Prop :=
  match n with
  | 0x09 => u = { t with frm := a.extractLsb' 0 2 }
  | 0x0A => u = { t with fflags := a.extractLsb' 0 5, fpend := u.fpend }
  | 0x0B => u = { t with trapVec := a }
  | 0x11 => u = { t with waitCheck := a.getLsbD 0 }
  | 0x12 => u = { t with btimeout := a.extractLsb' 0 32 }
  | _ => False

/-- The same for a register of thread scope, with the others of the thread as they were. -/
def ThreadSet (n : Nat) (a : DWord) (y z : Thread) : Prop :=
  match n with
  | 0x0C => z = { y with trapCause := a.extractLsb' 0 8 }
  | 0x0D => z = { y with info0 := a }
  | 0x0E => z = { y with info1 := a }
  | 0x0F => z = { y with trapPc := a }
  | _ => False

/-- v[32·IDX4[0] + SA], or its pair, as GETS and SETS name it (R374). -/
def specDst (f : FSpec) (wide : Bool) : Dst :=
  if wide then .v64 (32 * f.hi.toNat + f.sa.toNat) else .v (32 * f.hi.toNat + f.sa.toNat)
def specOpd (f : FSpec) (wide : Bool) : Opd :=
  if wide then .v64 (32 * f.hi.toNat + f.sa.toNat) else .v (32 * f.hi.toNat + f.sa.toNat)

/-- A program-log record of value a by gang g on channel c (R392) at physical address p. -/
def LogRecorded (m : Memory) (p : Nat) (s : State) (t : Team) (a : DWord) (c g : Nat) : Prop :=
  m.readNat p 8 = a.toNat ∧ m.readNat (p + 8) 8 = s.part.wall / 882 % 2 ^ 64 ∧ m.readNat (p + 16) 8 = t.ctxid.toNat ∧
    m.readNat (p + 24) 4 = t.teamId.toNat ∧ m.readNat (p + 28) 1 = c ∧ m.readNat (p + 29) 1 = g % 256 ∧
    m.readNat (p + 30) 2 = 0

end Sys2Proof.Claims

/-- R414, R413, R55, R28: every UOP and UADDI gives s[SD] of each gang of the group its function of the gang's operands; a write
to s0 is ignored. They, and GETS of team scope, leave alone everything outside the teams, every other team, and of their own
every field but its s registers, of which all but s[SD] of the group's gangs keep their values. -/
def Obligations.UniformResultsAndFrame : Prop :=
  ((∀ c ∈ uniformS, ∀ (f : FS) (s : State) (x : Ctx) (g : Nat), Uniform s x [f.sa.toNat, f.sb.toNat] →
    g ∈ x.gangs (s.team x.team) →
      ∃ t, exec (c.1 f) s = .next t ∧ SHolds (t.team x.team) g f.sd.toNat
        (c.2 ((s.team x.team).sget g f.sa.toNat) ((s.team x.team).sget g f.sb.toNat))) ∧
  ∀ (f : FSi) (s : State) (x : Ctx) (g : Nat), Uniform s x [f.sa.toNat] → g ∈ x.gangs (s.team x.team) →
    ∃ t, exec (.uaddi f) s = .next t ∧ SHolds (t.team x.team) g f.sd.toNat
      ((s.team x.team).sget g f.sa.toNat + f.imm.signExtend 64)) ∧
  (∀ (i : Instr) (srcs : List Nat) (sd : BitVec 5),
    ((∃ c ∈ uniformS, ∃ f : FS, i = c.1 f ∧ srcs = [f.sa.toNat, f.sb.toNat] ∧ sd = f.sd) ∨
      (∃ f : FSi, i = .uaddi f ∧ srcs = [f.sa.toNat] ∧ sd = f.sd) ∨
      (∃ f : FSpec, i = .gets f ∧ f.vk = 0 ∧ (Instr.gets f).illForm = none ∧ srcs = [] ∧ sd = f.sa)) →
    ∀ (s : State) (x : Ctx), Uniform s x srcs →
      ∃ t, exec i s = .next t ∧ OutsideTeams s t ∧ (∀ k, k ≠ x.team → t.team k = s.team k) ∧
        { t.team x.team with s := (s.team x.team).s, sbad := (s.team x.team).sbad, marks := (s.team x.team).marks }
          = s.team x.team ∧
        ∀ g n, n < 32 → ¬(g ∈ x.gangs (s.team x.team) ∧ n = sd.toNat) → (t.team x.team).sget g n = (s.team x.team).sget g n)

/-- R60, R375, R62: GETS gives s[SA] of each gang a special register of team scope or wider, and v[SA] or its pair of each
thread one of thread scope. -/
def Obligations.SpecialRegisterReads : Prop :=
  (∀ (f : FSpec) (s : State) (x : Ctx) (g : Nat), f.vk = 0 → Uniform s x [] → g ∈ x.gangs (s.team x.team) →
    ∀ e ∈ teamRegisters s x, e.1 = f.num.toNat →
      ∃ t, exec (.gets f) s = .next t ∧ SHolds (t.team x.team) g f.sa.toNat e.2) ∧
  ∀ f : FSpec, f.vk = 1 → (Instr.gets f).illForm = none → ∀ e ∈ threadRegisters, e.1 = f.num.toNat →
    Yields (.gets f) { guard := none, opds := [], dst := specDst f e.2.1, lat := some 4 }
      (fun t j _ => e.2.2 (t.thread j))

/-- R61, R62, R396: SETS writes the low bits of s[SA] to a special register of team scope, the highest gang's value remaining,
and of v[SA] to one of thread scope, which outside a user handler is ignored, whatever v[SA] holds. -/
def Obligations.SpecialRegisterWrites : Prop :=
  (∀ (f : FSpec) (s : State) (x : Ctx) (g : Nat), f.vk = 0 → (Instr.sets f).illForm = none → Uniform s x [f.sa.toNat] →
    (x.realGangs (s.team x.team)).getLast? = some g →
      ∃ t, exec (.sets f) s = .next t ∧ OutsideTeams s t ∧ (∀ k, k ≠ x.team → t.team k = s.team k) ∧
        TeamSet f.num.toNat ((s.team x.team).sget g f.sa.toNat) (s.team x.team) (t.team x.team)) ∧
  (∀ (f : FSpec) (s : State) (x : Ctx) (j : Nat) (vs : List (List (Option DWord))), f.vk = 1 →
    (Instr.sets f).illForm = none → Runs s x j none [specOpd f (f.num.toNat != 0x0C)] vs →
      ∃ t, exec (.sets f) s = .next t ∧ OutsideTeams s t ∧
        if ((s.team x.team).thread j).handler = true then
          ThreadSet f.num.toNat (sc vs 0) ((s.team x.team).thread j) ((t.team x.team).thread j)
        else (t.team x.team).thread j = (s.team x.team).thread j) ∧
  ∀ (f : FSpec) (s : State) (x : Ctx), f.vk = 1 → (Instr.sets f).illForm = none → s.ctx = some x →
    (∀ j ∈ x.group, ((s.team x.team).thread j).handler = false) → exec (.sets f) s = .next s

/-- R385, R392, R393: LMAP sets lm[m] of the team, the highest gang's value remaining; PLOG on a disabled channel does nothing; on
an enabled one it writes its record to the die's ring, or counts it in OVF where the ring has no room; and it never traps, whatever
its register holds. -/
def Obligations.LaneMapAndProgramLog : Prop :=
  (∀ (f : FLmap) (s : State) (x : Ctx) (g : Nat), Uniform s x [f.sa.toNat] → (x.realGangs (s.team x.team)).getLast? = some g →
    ∃ t, exec (.lmap f) s = .next t ∧ OutsideTeams s t ∧
      (t.team x.team).lmGet f.m.toNat = ((s.team x.team).sget g f.sa.toNat).extractLsb' 0 16 ∧
      (∀ m, m ≠ f.m.toNat → (t.team x.team).lmGet m = (s.team x.team).lmGet m) ∧
      { t.team x.team with lm := (s.team x.team).lm } = s.team x.team) ∧
  (∀ (f : FKs) (s : State) (x : Ctx), s.ctx = some x → (s.die (coreDie x.core)).plogMask.getLsbD f.idx.toNat = false →
    ∃ t, exec (.plog f) s = .next t ∧ { t with fresh := s.fresh } = s) ∧
  ∀ (f : FKs) (s : State) (x : Ctx) (g : Nat), s.ctx = some x → x.realGangs (s.team x.team) = [g] →
    (s.die (coreDie x.core)).plogMask.getLsbD f.idx.toNat = true →
      let r := (s.die (coreDie x.core)).pl
      ∃ t a, exec (.plog f) s = .next t ∧ t.teams = s.teams ∧ (Uniform s x [f.sa.toNat] → a = (s.team x.team).sget g f.sa.toNat) ∧
        let q := (t.die (coreDie x.core)).pl
        if r.configured = true ∧ r.full = false then
          q = { r with tail := r.tail + 1 } ∧
            LogRecorded t.mem (r.base.toNat + 32 * (r.tail.toNat % 2 ^ r.log2n)) s (s.team x.team) a f.idx.toNat g
        else q = { r with ovf := r.ovf + 1 } ∧ t.mem = s.mem

/-! ### Global memory -/

namespace Sys2Proof.Claims

/-- Real thread j is the whole group of the context x and runs the instruction with these operand values; what traps of it or
ends of it ends for no other thread. -/
def Solo (s : State) (x : Ctx) (j : Nat) (g : Option Nat) (os : List Opd) (vs : List (List (Option DWord))) : Prop :=
  Runs s x j g os vs ∧ x.group = [j] ∧ (s.team x.team).isPawn j = false

/-- The scopes whose releases and acquires reach beyond the core (R187). -/
def Wide (sc : Scope) : Prop := sc ≠ .gang ∧ sc ≠ .team

/-- Nothing waits for a line to be written: no monitor is armed, and no hart waits in XLJWAIT. -/
def Quiet (s : State) : Prop :=
  (∀ e ∈ s.teams, ∀ y ∈ e.2.threads, y.2.mon = none) ∧ (∀ h ∈ s.harts, h.2.jwait = none) ∧
    ∀ e ∈ s.slices, e.2.monitors = []

/-- The teams are as they were, but for the note that threads of team k have completed an irrevocable instruction (R283). -/
def TeamsKeep (s t : State) (k : Nat) (js : List Nat) : Prop :=
  (∀ m, m ≠ k → t.team m = s.team m) ∧ { t.team k with threads := (s.team k).threads } = s.team k ∧
    (∀ i, i ∉ js → (t.team k).thread i = (s.team k).thread i) ∧
    ∀ i ∈ js, { (t.team k).thread i with irrev := ((s.team k).thread i).irrev } = (s.team k).thread i

/-- Memory is as it was, but for the zero-line flags of lines that the L2 has installed (R152, R153). -/
def MemKeeps (m n : Memory) : Prop := { n with zline := m.zline } = m

/-- What a load of 2^sz bytes of value n gives its register (R383). -/
def loaded (sz : BitVec 2) (sx : BitVec 1) (n : Nat) : DWord :=
  if sx = 1 ∧ sz.toNat < 2 then zx ((BitVec.ofNat (8 * 2 ^ sz.toNat) n).signExtend 32) else BitVec.ofNat 64 n

/-- A register, or the pair that starts at it. -/
def vdst (wide : Bool) (n : Nat) : Dst := if wide then .v64 n else .v n

/-- A global access: its guard, its operands of which the first is the address, its scope, size in bytes and kind, and whether
it is irrevocable. -/
structure GAccess where
  guard : Nat
  opds : List Opd
  sc : Scope
  size : Nat
  acc : Access
  irrev : Bool

/-- The global accesses of format M (R350, R382, R398, R352, R390). -/
def accessOf (i : Instr) : Option GAccess :=
  match i with
  | .ld f => some { guard := f.p.toNat, opds := [.v64 f.va.toNat], sc := f.sc, size := 2 ^ f.sz.toNat, acc := .read, irrev := false }
  | .st f => some { guard := f.p.toNat, opds := [.v64 f.va.toNat, if f.sz = 3 then .v64 f.vd.toNat else .v f.vd.toNat],
                    sc := f.sc, size := 2 ^ f.sz.toNat, acc := .write, irrev := f.rel = 1 }
  | .atom f => some { guard := f.p.toNat, opds := atomOpds f.op (f.wide = 1) f.va.toNat f.vd.toNat, sc := f.sc,
                      size := if f.wide = 1 then 8 else 4, acc := .atom, irrev := true }
  | .nmred f => some { guard := f.p.toNat, opds := [.v64 f.va.toNat, if f.wide = 1 then .v64 f.vd.toNat else .v f.vd.toNat],
                       sc := f.sc, size := if f.wide = 1 then 8 else 4, acc := .write, irrev := true }
  | _ => none

/-- Pawn j is the whole group of the context x and runs the instruction with these operand values. -/
def SoloPawn (s : State) (x : Ctx) (j : Nat) (g : Option Nat) (os : List Opd) (vs : List (List (Option DWord))) : Prop :=
  Runs s x j g os vs ∧ x.group = [j] ∧ (s.team x.team).isPawn j = true

/-- What a pawn issues without an effect (R27): its stores, near-memory updates, fences, arrivals and signatures, with the guard and
the operands of each. -/
def mute (s : State) (x : Ctx) (i : Instr) : Option (Option Nat × List Opd) :=
  match i with
  | .st f => some (some f.p.toNat, [.v64 f.va.toNat, if f.sz = 3 then .v64 f.vd.toNat else .v f.vd.toNat])
  | .nmred f => some (some f.p.toNat, [.v64 f.va.toNat, if f.wide = 1 then .v64 f.vd.toNat else .v f.vd.toNat])
  | .tst f => some (some f.p.toNat,
      [.v f.va.toNat, if s.tileWide x f = true ∧ f.vd.toNat % 2 = 0 then .v64 f.vd.toNat else .v f.vd.toNat])
  | .fence _ | .barv _ | .ksign _ => some (none, [])
  | _ => none

/-- A trap of the thread is one that its handler takes (R289). -/
def Handled (s : State) (k j : Nat) : Prop :=
  (∃ c sl, (s.team k).state = .resident c sl) ∧ ((s.team k).thread j).loc = .pass ∧
    ((s.team k).thread j).handler = false ∧ (s.team k).trapVec ≠ 0

/-- The thread has trapped: its trap registers hold the values, it is in its handler, and memory is as it was (R280, R281). -/
def Trapped (s t : State) (k j : Nat) (cause : BitVec 8) (info0 pc : DWord) : Prop :=
  let z := (t.team k).thread j
  z.handler = true ∧ z.trapCause = cause ∧ z.info0 = info0 ∧ z.trapPc = pc ∧ z.loc = .waits (s.team k).trapVec ∧
    z.v = ((s.team k).thread j).v ∧ t.mem = s.mem

/-- A near-memory update's step on values of its width (R169). -/
def nmStep {n : Nat} (op : NmOp) (old a : BitVec n) : BitVec n :=
  match op with
  | .add => old + a
  | .maxS => if old.toInt < a.toInt then a else old
  | .minS => if a.toInt < old.toInt then a else old
  | .maxU => if old.toNat < a.toNat then a else old
  | .minU => if a.toNat < old.toNat then a else old
  | .fadd => BitVec.ofNat n (fmt32.add 0 old.toNat a.toNat).1
  | .fmax => BitVec.ofNat n (fmt32.minMax true old.toNat a.toNat).1
  | .fmin => BitVec.ofNat n (fmt32.minMax false old.toNat a.toNat).1

/-- Memory after a near-memory update (R169, R249). -/
def updated (m : Memory) (r : NmReq) : Memory :=
  let n := if r.wide = true then 8 else 4
  let old := m.readNat r.pa n
  m.write r.pa (toBytes n (if r.wide = true then (nmStep r.op (BitVec.ofNat 64 old) r.v).toNat
    else (nmStep r.op (BitVec.ofNat 32 old) (lo32 r.v)).toNat))

/-- An update of the physical function's memory, of a width that its operation has (R390). -/
def PlainUpdate (r : NmReq) : Prop := r.vmid = 0 ∧ (r.op = .fadd ∨ r.op = .fmax ∨ r.op = .fmin → r.wide = false)

end Sys2Proof.Claims

/-- R383, R384: LD brings the bytes at its address, little-endian and extended to its register, as a load's reply: from memory
where the L1 has not the line and the core has no store or atomic under way, and from the L1 where it has the line and the
access may be served there. -/
def Obligations.LoadResults : Prop :=
  ∀ (f : FLd) (s s1 : State) (x : Ctx) (j : Nat) (vs : List (List (Option DWord))) (pa : Nat) (nc : Bool),
    Solo s x j (some f.p.toNat) [.v64 f.va.toNat] vs →
    s.checked x f.sc (sc vs 0) (2 ^ f.sz.toNat) .read = (.ok pa nc, s1) → (s1.core x.core).atq = [] →
      let arrives := fun (n : Nat) => ∃ t r, exec (.ld f) s = .next t ∧
        (t.team x.team).results = (s.team x.team).results ++ [r] ∧ r.load = true ∧
        Brings (vdst (f.sz = 3) f.vd.toNat) j r (loaded f.sz f.sx n) ∧
        (∀ i, { (t.team x.team).thread i with seen := ((s.team x.team).thread i).seen } = (s.team x.team).thread i) ∧
        MemKeeps s1.mem t.mem
      ((s1.core x.core).stq = [] → (s1.core x.core).l1.find? (fun l => l.line == pa / 128) = none →
        s1.mem.poisoned pa (2 ^ f.sz.toNat) = false → arrives (s1.mem.readNat pa (2 ^ f.sz.toNat))) ∧
      ∀ l, (s1.core x.core).l1.find? (fun l => l.line == pa / 128) = some l → l.bad = [] → f.hint ≠ .bypass → nc = false →
        f.acq = 0 → ¬Wide f.sc → arrives (fieldAt l.bytes (pa % 128) (2 ^ f.sz.toNat))

/-- R398, R399, R185, R187: ST puts its bytes at the end of the core's stores under way, marked as a release where it is one or
follows a fence; no memory and no register changes yet, and the core's own view of the bytes is the stored ones. -/
def Obligations.StoreResults : Prop :=
  ∀ (f : FSt) (s s1 : State) (x : Ctx) (j : Nat) (vs : List (List (Option DWord))) (pa : Nat) (nc : Bool),
    Solo s x j (some f.p.toNat) [.v64 f.va.toNat, if f.sz = 3 then .v64 f.vd.toNat else .v f.vd.toNat] vs →
    s.checked x f.sc (sc vs 0) (2 ^ f.sz.toNat) .write = (.ok pa nc, s1) → (f.rel = 1 → x.last = true) →
      ∃ t st, exec (.st f) s = .next t ∧ (t.core x.core).stq = (s1.core x.core).stq ++ [st] ∧ st.pa = pa ∧
        st.bytes = toBytes (2 ^ f.sz.toNat) (sc vs 1).toNat ∧ st.vmid = (s.team x.team).vmid ∧
        (st.rel = true ↔ (f.rel = 1 ∧ Wide f.sc) ∨ ((s.team x.team).thread j).fenced = true) ∧
        MemKeeps s1.mem t.mem ∧ TeamsKeep s t x.team [j] ∧
        (t.homeView x.core pa (2 ^ f.sz.toNat)).bytes = toBytes (2 ^ f.sz.toNat) (sc vs 1).toNat

/-- R354, R189, R391, R249: ATOM and NMRED, the last instructions of their blocks, are sent to the home of their location with
their operands; ATOM drops the L1's copy of the line, NMRED at CLUSTER or wider; memory does not change yet. -/
def Obligations.AtomicsAreSentToTheirHomes : Prop :=
  (∀ (f : FRmw AtomOp) (s s1 : State) (x : Ctx) (j : Nat) (vs : List (List (Option DWord))) (pa : Nat) (nc : Bool),
    Solo s x j (some f.p.toNat) (atomOpds f.op (f.wide = 1) f.va.toNat f.vd.toNat) vs → x.last = true →
    s.checked x f.sc (sc vs 0) (if f.wide = 1 then 8 else 4) .atom = (.ok pa nc, s1) →
      ∃ t r, exec (.atom f) s = .next t ∧ (t.core x.core).atq = (s1.core x.core).atq ++ [r] ∧ r.team = x.team ∧ r.tid = j ∧
        r.op = f.op ∧ r.wide = decide (f.wide = 1) ∧ r.pa = pa ∧ r.a = sc vs 1 ∧ (f.op = .cas → r.b = sc vs 2) ∧
        r.vd = f.vd.toNat ∧ r.sc = f.sc ∧ r.pc = x.pc ∧ r.rel = ((s.team x.team).thread j).fenced ∧ t.mem = s1.mem ∧ TeamsKeep s t x.team [j] ∧
        (t.core x.core).l1.find? (fun l => l.line == pa / 128) = none) ∧
  ∀ (f : FRmw NmOp) (s s1 : State) (x : Ctx) (j : Nat) (vs : List (List (Option DWord))) (pa : Nat) (nc : Bool),
    Solo s x j (some f.p.toNat) [.v64 f.va.toNat, if f.wide = 1 then .v64 f.vd.toNat else .v f.vd.toNat] vs → x.last = true →
    s.checked x f.sc (sc vs 0) (if f.wide = 1 then 8 else 4) .write = (.ok pa nc, s1) →
      ∃ t, exec (.nmred f) s = .next t ∧
        (t.core x.core).nmq = (s1.core x.core).nmq ++
          [{ team := x.team, tid := j, op := f.op, wide := decide (f.wide = 1), pa := pa, v := sc vs 1,
             vmid := (s.team x.team).vmid,
             after := if ((s.team x.team).thread j).nmFenced then (s1.core x.core).mseq else 0 }] ∧
        t.mem = s1.mem ∧ TeamsKeep s t x.team [j] ∧
        (Wide f.sc → (t.core x.core).l1.find? (fun l => l.line == pa / 128) = none)

/-- R383, R198, R147, R173, R287: a global access is checked in this order: a scope that the policy denies traps SCOPE_DENIED,
an address that is no multiple of the access's size MISALIGNED, and one that is not canonical ACCESS; the access has no other
effect. A translation fault of an access parks its thread at its region entry, with the address and the instruction in its
information registers, and takes an entry of the die's fault table, whose KIND is for an ATOM that of a read and a write, for an NMRED
that of a write (assumption 40); here the table is empty. R27: a pawn's stores, updates,
fences, arrivals and signatures have no effect and never trap, its atomics reply zero without one, and its load that would trap
or fault brings zero. -/
def Obligations.AccessesTrapAndFault : Prop :=
  (∀ (i : Instr) (a : GAccess), accessOf i = some a → ∀ (s : State) (x : Ctx) (j : Nat) (vs : List (List (Option DWord))),
    Solo s x j (some a.guard) a.opds vs → Handled s x.team j → (a.irrev = true → x.last = true) →
      let va := sc vs 0
      let denied := s.scopeDenied (s.team x.team).vmid a.sc
      (denied = true → ∃ t, exec i s = .next t ∧ Trapped s t x.team j 0x0E (BitVec.ofNat 64 (scopeCode a.sc)) x.pc) ∧
      (denied = false → va.toNat % a.size ≠ 0 → ∃ t, exec i s = .next t ∧ Trapped s t x.team j 0x05 va x.pc) ∧
      (denied = false → va.toNat % a.size = 0 → canonical va = false →
        ∃ t, exec i s = .next t ∧ Trapped s t x.team j 0x07 va x.pc)) ∧
  (∀ (i : Instr) (a : GAccess), accessOf i = some a →
    ∀ (s s1 : State) (x : Ctx) (j cause : Nat) (vs : List (List (Option DWord))),
    Solo s x j (some a.guard) a.opds vs → Handled s x.team j → ((s.team x.team).thread j).trapPc ≠ 0 →
    (a.irrev = true → x.last = true) →
    s.checked x a.sc (sc vs 0) a.size a.acc = (.stop (.park (sc vs 0) a.acc cause), s1) →
    (s1.die (coreDie x.core)).faults = [] →
      ∃ t e, exec i s = .next t ∧ (t.die (coreDie x.core)).faults = [(0, e)] ∧ e.page = pageOf (sc vs 0) ∧
        e.asid = (s.team x.team).asid ∧ e.vmid = (s.team x.team).vmid ∧ e.kind = kindOf a.acc false ∧ e.cause = cause ∧
        e.waiters = [.thread x.team j] ∧
        let z := (t.team x.team).thread j
        z.loc = .parked ∧ z.info0 = sc vs 0 ∧ z.info1 = x.pc ∧ z.handler = false ∧ z.v = ((s.team x.team).thread j).v) ∧
  (∀ (i : Instr) (s : State) (x : Ctx) (j : Nat) (m : Option Nat × List Opd) (vs : List (List (Option DWord))),
    mute s x i = some m → SoloPawn s x j m.1 m.2 vs →
      ∃ t, exec i s = .next t ∧ t.mem = s.mem ∧ t.cores = s.cores ∧ TeamsKeep s t x.team [j]) ∧
  (∀ (i : Instr) (s : State) (x : Ctx) (j : Nat) (g : Option Nat) (os : List Opd) (d : Dst) (vs : List (List (Option DWord))),
    (∃ f, i = .atom f ∧ g = some f.p.toNat ∧ os = atomOpds f.op (f.wide = 1) f.va.toNat f.vd.toNat ∧ d = vdst (f.wide = 1) f.vd.toNat) ∨
      (∃ f, i = .tatom f ∧ g = none ∧ os = [.v f.va.toNat, .v f.vd.toNat] ∧ d = .v f.vd.toNat) →
    SoloPawn s x j g os vs →
      ∃ t r, exec i s = .next t ∧ t.mem = s.mem ∧ t.cores = s.cores ∧
        (t.team x.team).results = (s.team x.team).results ++ [r] ∧ Brings d j r 0 ∧
        TeamsKeep s { t with teams := t.teams.set x.team { t.team x.team with results := (s.team x.team).results } } x.team [j]) ∧
  (∀ (f : FLd) (s s1 : State) (x : Ctx) (j : Nat) (o : LaneOut) (vs : List (List (Option DWord))),
    SoloPawn s x j (some f.p.toNat) [.v64 f.va.toNat] vs →
    s.checked x f.sc (sc vs 0) (2 ^ f.sz.toNat) .read = (.stop o, s1) →
      ∃ t r, exec (.ld f) s = .next t ∧ t.mem = s1.mem ∧ (t.team x.team).results = (s1.team x.team).results ++ [r] ∧
        Brings (vdst (f.sz = 3) f.vd.toNat) j r 0 ∧ (t.team x.team).thread j = (s1.team x.team).thread j)

/-- R285: an irrevocable instruction that is not last in its block, a NOP after it apart, traps ILLEGAL_REGION in every issued
real thread; here in a group of one thread. -/
def Obligations.IrrevocableInstructionsMustBeLast : Prop :=
  (∀ (i : Instr) (a : GAccess), accessOf i = some a → a.irrev = true → ∀ (s : State) (x : Ctx) (j : Nat),
    s.ctx = some x → x.group = [j] → (s.team x.team).isPawn j = false → x.last = false → Handled s x.team j →
      ∃ t, exec i s = .next t ∧ Trapped s t x.team j 0x02 1 x.pc) ∧
  ∀ i : Instr, ((∃ f, i = .barv f) ∨ (∃ f, i = .ksign f) ∨ (∃ f, i = .syscall f) ∨ (∃ f, i = .tatom f) ∨ (∃ f, i = .xstat f) ∨
      (∃ f, i = .mlds f) ∨ (∃ f, i = .mstrm f) ∨ (∃ f, i = .mdrn f) ∨ (∃ f, i = .mzacc f) ∨ (∃ f, i = .cpy f) ∨ (∃ f, i = .cpym f) ∨
      (∃ f, i = .cpyz f) ∨ (∃ f, i = .dgst f) ∨ (∃ f : FT, i = .tst f ∧ f.peer = 1) ∨ ∃ f, i = .tqpush f) →
    ∀ (s : State) (x : Ctx) (j : Nat), s.ctx = some x → x.group = [j] → (s.team x.team).isPawn j = false → x.last = false →
      Handled s x.team j → ∃ t, exec i s = .next t ∧ Trapped s t x.team j 0x02 1 x.pc

/-- R181, R188, R249: FENCE ACQ drops the L1 at CLUSTER or wider, and the thread's later stores follow those under way that its
loads have read; REL makes the thread's later stores follow its earlier ones at every scope, and so do AR and NM, which at CLUSTER
or wider also perform the core's stores under way; NM first performs the thread's near-memory updates, in their order, and drops
the L1 at every scope. -/
def Obligations.FenceResults : Prop :=
  ∀ (f : FFence) (s : State) (x : Ctx) (j : Nat), Solo s x j none [] [] → (s.team x.team).onCore = some x.core →
    s.scopeDenied (s.team x.team).vmid f.sc = false →
      let y := (s.team x.team).thread j
      let mine := fun (r : NmReq) => r.team == x.team && r.tid == j
      let updates := if f.kind = .nm then (s.core x.core).nmq.filter mine else []
      let plain := f.kind = .nm → Quiet s ∧ s.mem.bad = [] ∧ s.mem.lost = [] ∧ ∀ r ∈ updates, PlainUpdate r ∧ (r.after = 0 ∨
        (s.core x.core).stq = [] ∧ (s.core x.core).arrivals = [] ∧ (s.core x.core).sigs = [])
      let others := if f.kind = .nm then (s.core x.core).nmq.filter (fun r => !mine r) else (s.core x.core).nmq
      (f.kind = .acq → ∃ t, exec (.fence f) s = .next t ∧ t.mem = s.mem ∧
        (Wide f.sc → (t.core x.core).l1 = []) ∧ (¬Wide f.sc → (t.core x.core).l1 = (s.core x.core).l1) ∧
        (t.core x.core).stq = (s.core x.core).stq ∧
        (t.team x.team).thread j = { y with after := max y.seen y.after } ∧
        ∀ k, k ≠ x.team → t.team k = s.team k) ∧
      (¬Wide f.sc → f.kind = .ar ∨ f.kind = .nm → plain → ∃ t, exec (.fence f) s = .next t ∧
        ((t.team x.team).thread j).fenced = true ∧ (f.kind = .nm → ((t.team x.team).thread j).nmFenced = true) ∧
        (t.core x.core).stq = (s.core x.core).stq ∧ (t.core x.core).nmq = others ∧
        t.mem = updates.foldl updated s.mem ∧ (t.core x.core).l1 = if f.kind = .nm then [] else (s.core x.core).l1) ∧
      (f.kind = .rel → ∃ t, exec (.fence f) s = .next t ∧ ((t.team x.team).thread j).fenced = true ∧
        t.mem = s.mem ∧ t.cores = s.cores) ∧
      (Wide f.sc → f.kind = .ar ∨ f.kind = .nm → plain → Quiet s → (s.core x.core).atq = [] → (s.core x.core).arrivals = [] →
        (s.core x.core).sigs = [] → (∀ st ∈ (s.core x.core).stq, st.vmid = 0) →
          ∃ t, exec (.fence f) s = .next t ∧ ((t.team x.team).thread j).fenced = true ∧
            (f.kind = .nm → ((t.team x.team).thread j).nmFenced = true) ∧ (t.core x.core).stq = [] ∧
            (t.core x.core).nmq = others ∧ (t.core x.core).l1 = [] ∧
            t.mem = (s.core x.core).stq.foldl (fun m st => m.write st.pa st.bytes) (updates.foldl updated s.mem))

/-! ### Page walks and homes -/

namespace Sys2Proof.Claims

/-- Bits lo to lo + n − 1 of an entry. -/
def pteBits (e lo n : Nat) : Nat := e / 2 ^ lo % 2 ^ n

/-- An entry that points to the next table: V set, and R, W, X, U, A, D and bits 63:54 zero. -/
def pointsOn (e : Nat) : Bool :=
  pteBits e 0 4 == 1 && pteBits e 4 1 == 0 && pteBits e 6 2 == 0 && pteBits e 54 10 == 0

/-- The leaves of R170's table at a level, by log2 of their 4 KiB pages: 4 KiB, 64 KiB, 2 MiB, 1 GiB and 16 GiB; no other entry is one,
nor one that is not valid, writable but not readable, or with a reserved bit or PBMT 3. -/
def leafOrder (level e : Nat) : Option Nat :=
  let p := pteBits e 10 44
  if pteBits e 0 1 = 0 ∨ (pteBits e 1 1 = 0 ∧ pteBits e 2 1 = 1) ∨ pteBits e 1 3 = 0 ∨ pteBits e 54 7 ≠ 0 ∨ pteBits e 61 2 = 3 then none
  else match level, pteBits e 63 1 with
    | 0, 0 => some 0
    | 0, _ => if p % 16 = 8 then some 4 else none
    | 1, 0 => if p % 2 ^ 9 = 0 then some 9 else none
    | 2, 0 => if p % 2 ^ 18 = 0 then some 18 else none
    | 2, _ => if p % 2 ^ 18 = 0 ∧ p / 2 ^ 18 % 16 = 8 then some 22 else none
    | _, _ => none

/-- What a descent through a page table comes to: a leaf, at a level, with its entry's address and the entry, and its order; no
leaf; an entry that cannot be read; or a 16 GiB leaf whose region's sixteen entries are not alike, of which R170 leaves one to be used. -/
inductive Sought where
  | leaf (level a e order : Nat)
  | noLeaf
  | away
  | mixed
  deriving DecidableEq, Repr

/-- The sixteen entries of a 16 GiB region are alike and sound. -/
def alike (m : Memory) (a : Nat) : Bool :=
  (List.range 16).all (fun i => let b := a - a % 128 + 8 * i
    m.readNat b 8 == m.readNat a 8 && !m.poisoned b 8)

/-- The descent of Sv57 through n levels from a table's frame (R170): nine bits of the page number select an entry, eleven in the root
of Sv57x4; `find` gives where an entry stands. -/
def seek (m : Memory) (find : Nat → Option Nat) (wide : Bool) (vpn : Nat) : Nat → Nat → Sought
  | 0, _ => .noLeaf
  | n + 1, base =>
    match find (4096 * base + 8 * (vpn / 2 ^ (9 * n) % (if wide = true ∧ n = 4 then 2 ^ 11 else 2 ^ 9))) with
    | none => .away
    | some a =>
      let e := m.readNat a 8
      if m.poisoned a 8 then .away
      else if pointsOn e then seek m find wide vpn n (pteBits e 10 44)
      else match leafOrder n e with
        | none => .noLeaf
        | some o => if o = 22 ∧ alike m a = false then .mixed else .leaf n a e o

/-- An entry that is read where it stands. -/
def direct (reach : Reach) (a : Nat) : Option Nat := if reach a = none then some a else none

/-- The frame of an address's 4 KiB page in a leaf, the permissions that an access needs (R149), and the address. -/
def frameOf (e o vpn : Nat) : Nat := pteBits e 10 44 / 2 ^ o * 2 ^ o + vpn % 2 ^ o
def permits (e : Nat) (acc : Access) : Prop :=
  pteBits e 4 1 = 1 ∧ match acc with
    | .read => pteBits e 1 1 = 1
    | .write => pteBits e 2 1 = 1
    | .exec => pteBits e 3 1 = 1
    | .atom => pteBits e 1 1 = 1 ∧ pteBits e 2 1 = 1

/-- The tables of an address space (R148): the first stage's, and the second's, whose root takes four frames. -/
def firstIn (sp : Space) (m : Memory) (find : Nat → Option Nat) (va : DWord) : Sought :=
  seek m find false (va.toNat / 4096 % 2 ^ 45) 5 (sp.satp.extractLsb' 0 44).toNat
def secondIn (sp : Space) (m : Memory) (reach : Reach) (gpa : Nat) : Sought :=
  seek m (direct reach) true (gpa / 4096) 5 ((sp.hgatp.extractLsb' 0 44).toNat / 4 * 4)

/-- Where an entry of the first stage stands under the second: in a page that may be read and whose A is set. -/
def guestEntry (sp : Space) (m : Memory) (reach : Reach) (gpa : Nat) : Option Nat :=
  match secondIn sp m reach gpa with
  | .leaf _ _ f o => if pteBits f 1 1 = 1 ∧ pteBits f 4 1 = 1 ∧ pteBits f 6 1 = 1
      then direct reach (4096 * frameOf f o (gpa / 4096) + gpa % 4096) else none
  | _ => none

/-- The memory holds the bytes that it held but for entries that lie at some addresses. -/
def SameBut (m t : Memory) (l : List Nat) : Prop := ∀ b, (∀ a ∈ l, b < a ∨ a + 8 ≤ b) → t.get b = m.get b

/-- The entry of a leaf, or of a 16 GiB leaf one of its sixteen, at b: A set, and D too for a write (R170). -/
def Marked (t : Memory) (a e o b : Nat) (acc : Access) : Prop :=
  (o ≠ 22 → b = a) ∧ b / 128 = a / 128 ∧
    t.readNat b 8 = e ||| 2 ^ 6 ||| (if acc = .write ∨ acc = .atom then 2 ^ 7 else 0)

/-- A walk that ends with no translation: memory keeps every byte. -/
def Ends (w : Walked) (m : Memory) (t : Tr) : Prop := w.tr = t ∧ w.entry = none ∧ SameBut m w.mem []

/-- A walk that succeeds: the address, and an entry that a TLB keeps for the page and that serves the access (R171). -/
def Succeeds (w : Walked) (sp : Space) (va : DWord) (acc : Access) (pa o pbmt : Nat) : Prop :=
  w.tr = .ok pa pbmt ∧ w.refusedBy = none ∧ ∃ t, w.entry = some t ∧ t.serves sp va acc = true ∧ t.order = o ∧ t.pa va = pa

end Sys2Proof.Claims

/-- R147, R149, R170, R171, R313: the page walk. Of one stage: the levels, the leaves of R170's table and no others, the address that each
gives, ACCESS outside partition memory or under PBMT 2, the permissions of R149, and A and D set in the leaf and no other byte; a
failed walk leaves every byte. Of a second stage alone and of both. The causes are 1 for no leaf, 2 for a permission and 3 for
the second stage; what makes an entry a pointer or refused, the widened root and the order of the checks are the Sv57 format
and readings of it, assumptions 17 and 27. A TLB that has an entry serves without a walk. R313: the home of an address, and that
each granule has one. -/
def Obligations.PageWalks : Prop :=
  (∀ (s : State) (d : Nat) (sp : Space) (m : Memory) (va : DWord) (acc : Access),
    let lim := s.memEnd
    let reach := s.walkReach d
    let w := walk lim reach sp m va acc
    let off := va.toNat % 4096
    let vpn := va.toNat / 4096 % 2 ^ 45
    (sp.satp.extractLsb' 60 4 = 10 → sp.hgatp.extractLsb' 60 4 = 0 →
      (firstIn sp m (direct reach) va = .noLeaf → Ends w m (.fault 1)) ∧
      (firstIn sp m (direct reach) va = .away → Ends w m .access) ∧
      ∀ n a e o, firstIn sp m (direct reach) va = .leaf n a e o →
        let pa := 4096 * frameOf e o vpn + off
        (lim ≤ pa ∨ pteBits e 61 2 = 2 → Ends w m .access) ∧
        (pa < lim → pteBits e 61 2 ≠ 2 →
          (¬permits e acc → Ends w m (.fault 2)) ∧
          (permits e acc → Succeeds w sp va acc pa o (pteBits e 61 2) ∧
            ∃ b, Marked w.mem a e o b acc ∧ SameBut m w.mem [b]))) ∧
    (sp.satp.extractLsb' 60 4 = 0 → sp.hgatp.extractLsb' 60 4 = 10 →
      (secondIn sp m reach va.toNat = .noLeaf → Ends w m (.fault 3)) ∧
      (secondIn sp m reach va.toNat = .away → Ends w m .access) ∧
      ∀ n a e o, secondIn sp m reach va.toNat = .leaf n a e o →
        let pa := 4096 * frameOf e o (va.toNat / 4096) + off
        (¬permits e acc → Ends w m (.fault 3)) ∧
        (permits e acc → (lim ≤ pa ∨ pteBits e 61 2 = 2 → Ends w m .access) ∧
          (pa < lim → pteBits e 61 2 ≠ 2 → Succeeds w sp va acc pa 0 (pteBits e 61 2) ∧
            ∃ b, Marked w.mem a e o b acc ∧ SameBut m w.mem [b]))) ∧
    (sp.satp.extractLsb' 60 4 = 10 → sp.hgatp.extractLsb' 60 4 = 10 →
      (firstIn sp m (guestEntry sp m reach) va = .noLeaf → Ends w m (.fault 1)) ∧
      (∀ n a e o, firstIn sp m (guestEntry sp m reach) va = .leaf n a e o →
        let gpa := 4096 * frameOf e o vpn + off
        (secondIn sp m reach gpa = .noLeaf → Ends w m (.fault 3)) ∧
        (secondIn sp m reach gpa = .away → Ends w m .access) ∧
        ∀ k b f q, secondIn sp m reach gpa = .leaf k b f q →
          let pa := 4096 * frameOf f q (gpa / 4096) + off
          let pbmt := if pteBits e 61 2 ≠ 0 then pteBits e 61 2 else pteBits f 61 2
          (¬permits f acc → Ends w m (.fault 3)) ∧
          (permits f acc → (lim ≤ pa ∨ pbmt = 2 → Ends w m .access) ∧
            (pa < lim → pbmt ≠ 2 →
              (¬permits e acc → Ends w m (.fault 2)) ∧
              (permits e acc → Succeeds w sp va acc pa (min o q) pbmt ∧
                ∃ c d, Marked w.mem a e o c acc ∧ Marked w.mem b f q d acc ∧ SameBut m w.mem [c, d])))) ∧
      (secondIn sp m reach (4096 * (sp.satp.extractLsb' 0 44).toNat + 8 * (vpn / 2 ^ 36)) = .noLeaf → Ends w m (.fault 3))) ∧
    (sp.satp.extractLsb' 60 4 = 0 → sp.hgatp.extractLsb' 60 4 = 0 →
      (lim ≤ va.toNat → Ends w m .access) ∧ (va.toNat < lim → Succeeds w sp va acc va.toNat 0 0 ∧ SameBut m w.mem []))) ∧
  (∀ (s : State) (c : Nat) (sp : Space) (va : DWord) (acc : Access),
    let serves := fun (t : TlbEntry) => t.serves sp va acc
    let w := walk s.memEnd (s.walkReach (coreDie c)) sp s.mem va acc
    (∀ t, (s.core c).tlb.find? serves = some t → (s.translate c sp va acc).1 = t.gives s.memEnd va ∧ (s.translate c sp va acc).2 = s) ∧
    ((s.core c).tlb.find? serves = none →
      (∀ t, (s.die (coreDie c)).tlb.find? serves = some t →
        (s.translate c sp va acc).1 = t.gives s.memEnd va ∧ (s.translate c sp va acc).2.mem = s.mem) ∧
      ((s.die (coreDie c)).tlb.find? serves = none →
        (s.translate c sp va acc).1 = w.tr ∧ (s.translate c sp va acc).2.mem = w.mem))) ∧
  (∀ n pa : Nat, 0 < n → let h := homeOf 16 n pa
    let q := pa / 256 / n
    h = ((pa / 256 % n + q / 16) % n, q % 16, pa / 128 % 2) ∧ h.1 < n ∧ granuleOf 16 n h.1 q = pa / 256) ∧
  (∀ n i q : Nat, i < n → granuleOf 16 n i q / n = q ∧ (homeOf 16 n (256 * granuleOf 16 n i q)).1 = i) ∧
  homeOf 16 6 0x1234567880 = (5, 4, 1)

/-! ### Tiles -/

namespace Sys2Proof.Claims

/-- Team k's gang g is to receive a value in s[n] as the team's youngest pending reply (R45). -/
def Replies (s t : State) (k g n : Nat) (a : DWord) : Prop :=
  ∃ r, (t.team k).results = (s.team k).results ++ [r] ∧ r.load = false ∧ (g, n, a) ∈ r.ss

/-- A shape descriptor that TALLOC accepts at a level (R155). -/
def ShapeOk (lv : Level) (d : List Byte) : Prop :=
  fieldAt d 0 2 ≠ 0 ∧ fieldAt d 2 2 ≠ 0 ∧ (fieldAt d 4 1 = 4 ∨ fieldAt d 4 1 = 8) ∧ fieldAt d 5 3 = 0 ∧ fieldAt d 0x18 8 = 0 ∧
    match lv with
    | .scr => True
    | .ring => 2 ≤ fieldAt d 0 2 ∧ fieldAt d 0 2 ≤ 64 ∧ fieldAt d 4 1 = 4
    | .gwin => fieldAt d 8 8 % fieldAt d 4 1 = 0 ∧ fieldAt d 0x10 4 % fieldAt d 4 1 = 0 ∧ fieldAt d 0x14 4 % fieldAt d 4 1 = 0

/-- 4 KiB units of scratchpad that a shape takes at a level (R156). -/
def unitsOf (lv : Level) (d : List Byte) : Nat :=
  if lv = .gwin then 0 else (fieldAt d 0 2 * fieldAt d 2 2 * fieldAt d 4 1 + 4095) / 4096

/-- The global address of element i of a window (R161). -/
def windowAt (h : Handle) (i : Nat) : DWord :=
  h.base + BitVec.ofInt 64 ((i / h.cols : Nat) * h.rstride.toInt + (i % h.cols : Nat) * h.cstride.toInt)

/-- A run of u units from unit lo up is free in the core's scratchpad. -/
def RunFree (s : State) (c lo u : Nat) : Prop :=
  lo + u ≤ (s.core c).scrUnits ∧ ∀ r ∈ s.unitsUsed c, r.1 + r.2 ≤ lo ∨ lo + u ≤ r.1

end Sys2Proof.Claims

/-- R407 to R409, R168, R161, R403, R404: TLD brings an element of a scratchpad tile, in its destination when the tile is the
team's own and as a reply when it is a peer's; TST stores one and leaves the others alone; through a global window they load and
store at the element's global address as LD and ST at TEAM scope do; TATOM replies with the old element and stores the new one. -/
def Obligations.TileAccessResults : Prop :=
  (∀ (f : FT) (s : State) (x : Ctx) (j k : Nat) (h : Handle) (vs : List (List (Option DWord))),
    Solo s x j (some f.p.toNat) [.v f.va.toNat] vs → s.tileOf x f = .ok (k, h) → h.level ≠ .gwin →
    (h.wide = true → f.vd.toNat % 2 = 0) → (wd vs 0).toNat < h.rows * h.cols → h.poisoned (wd vs 0).toNat = false →
      ∃ t, exec (.tld f) s = .next t ∧ t.mem = s.mem ∧
        Lands { guard := some f.p.toNat, opds := [.v f.va.toNat], dst := vdst h.wide f.vd.toNat,
                lat := if f.peer = 1 then none else some 8 } t x.team j (h.elem (wd vs 0).toNat)) ∧
  (∀ (f : FT) (s : State) (x : Ctx) (j k : Nat) (h : Handle) (vs : List (List (Option DWord))),
    Solo s x j (some f.p.toNat) [.v f.va.toNat, if h.wide = true then .v64 f.vd.toNat else .v f.vd.toNat] vs →
    s.tileOf x f = .ok (k, h) → h.level ≠ .gwin → (h.wide = true → f.vd.toNat % 2 = 0) →
    (wd vs 0).toNat < h.rows * h.cols → (f.peer = 1 → x.last = true) →
      ∃ t h', exec (.tst f) s = .next t ∧
        (((s.team x.team).thread j).fenced = false → ((s.team x.team).thread j).after = 0 → t.mem = s.mem) ∧
        (t.team k).handle? f.h.toNat = some h' ∧
        h'.elem (wd vs 0).toNat = (if h.wide = true then sc vs 1 else zx (wd vs 1)) ∧
        (∀ m, m ≠ (wd vs 0).toNat → h'.elem m = h.elem m) ∧ { h' with data := h.data, bad := h.bad } = h) ∧
  (∀ (f : FT) (s s1 : State) (x : Ctx) (j k pa : Nat) (nc : Bool) (h : Handle) (vs : List (List (Option DWord))),
    s.tileOf x f = .ok (k, h) → h.level = .gwin → f.peer = 0 → (h.wide = true → f.vd.toNat % 2 = 0) →
    (wd vs 0).toNat < h.rows * h.cols →
      let a := windowAt h (wd vs 0).toNat
      let n := if h.wide = true then 8 else 4
      (Solo s x j (some f.p.toNat) [.v f.va.toNat] vs → s.checked x .team a n .read = (.ok pa nc, s1) →
        (s1.core x.core).atq = [] →
          let arrives := fun (v : Nat) => ∃ t r, exec (.tld f) s = .next t ∧ MemKeeps s1.mem t.mem ∧
            (t.team x.team).results = (s.team x.team).results ++ [r] ∧ r.load = true ∧
            Brings (vdst h.wide f.vd.toNat) j r (BitVec.ofNat 64 v)
          ((s1.core x.core).stq = [] → (s1.core x.core).l1.find? (fun l => l.line == pa / 128) = none →
            s1.mem.poisoned pa n = false → arrives (s1.mem.readNat pa n)) ∧
          ∀ l, (s1.core x.core).l1.find? (fun l => l.line == pa / 128) = some l → l.bad = [] → nc = false →
            arrives (fieldAt l.bytes (pa % 128) n)) ∧
      (Solo s x j (some f.p.toNat) [.v f.va.toNat, if h.wide = true then .v64 f.vd.toNat else .v f.vd.toNat] vs →
        s.checked x .team a n .write = (.ok pa nc, s1) →
          ∃ t st, exec (.tst f) s = .next t ∧ (t.core x.core).stq = (s1.core x.core).stq ++ [st] ∧ st.pa = pa ∧
            st.bytes = toBytes n (sc vs 1).toNat ∧ st.vmid = (s.team x.team).vmid ∧
            (st.rel = true ↔ ((s.team x.team).thread j).fenced = true) ∧ MemKeeps s1.mem t.mem ∧ TeamsKeep s t x.team [])) ∧
  ∀ (f : FTatom) (s : State) (x : Ctx) (j k : Nat) (h : Handle) (vs : List (List (Option DWord))),
    Solo s x j none [.v f.va.toNat, .v f.vd.toNat] vs → s.resolve x (f.peer = 1) f.core.toNat f.h.toNat = .ok (k, h) →
    h.level = .scr → h.wide = false → (wd vs 0).toNat < h.rows * h.cols → h.poisoned (wd vs 0).toNat = false →
    x.last = true →
      let old := lo32 (h.elem (wd vs 0).toNat)
      let a := wd vs 1
      ∃ t r h', exec (.tatom f) s = .next t ∧ (t.team x.team).results = (s.team x.team).results ++ [r] ∧
        (j, f.vd.toNat, old) ∈ r.vs ∧ (t.team k).handle? f.h.toNat = some h' ∧
        h'.elem (wd vs 0).toNat = zx (match f.op with
          | .add => old + a
          | .minS => if a.toInt < old.toInt then a else old
          | .maxS => if old.toInt < a.toInt then a else old
          | .minU => if a.toNat < old.toNat then a else old
          | .and => old &&& a
          | .or => old ||| a
          | .xor => old ^^^ a
          | .xchg => a) ∧
        ∀ m, m ≠ (wd vs 0).toNat → h'.elem m = h.elem m

/-- R401, R402, R155, R156, R405, R406, R164, R165, R394: TALLOC gives a free handle the tile of its shape, all zero, in units of the
scratchpad that no other tile occupies, wherever a run of them is free; TFREE frees a handle that no command names; TINFO replies with
a handle's shape and ring state. RGET takes the slot at the head of its side when it is FREE for a producer and FILLED for a consumer,
replies with its index and moves the head on; otherwise the pass waits. RPUT gives a slot that its side holds; any other traps
TILE_HANDLE with reason 10. -/
def Obligations.TileHandleAndRingResults : Prop :=
  ((∀ (f : FTalloc) (s s1 : State) (x : Ctx) (g : Nat) (d : List Byte), OneGang s x g [f.sb.toNat] →
    (s.team x.team).handle? f.h.toNat = none → ((s.team x.team).sget g f.sb.toNat).toNat % 8 = 0 →
    s.loadDWords x (x.ofGang (s.team x.team) g) ((s.team x.team).sget g f.sb.toNat) 4 = (.ok d, s1) → ShapeOk f.level d →
    s1.tilesUsed x.core < 128 →
    ((s1.team x.team).h.map (fun e => e.2.units)).foldl (· + ·) 0 + unitsOf f.level d ≤ (s1.team x.team).tsUnits →
    (∃ lo, RunFree s1 x.core lo (unitsOf f.level d)) →
      ∃ t h, exec (.talloc f) s = .next t ∧ (t.team x.team).handle? f.h.toNat = some h ∧ h.level = f.level ∧
        h.rows = fieldAt d 0 2 ∧ h.cols = fieldAt d 2 2 ∧ (h.wide = true ↔ fieldAt d 4 1 = 8) ∧ (∀ i, h.elem i = 0) ∧
        (f.level ≠ .gwin → RunFree s1 x.core h.unit (unitsOf f.level d)) ∧ (∀ i, h.slot i = .free) ∧ h.phead = 0 ∧
        h.chead = 0 ∧ (f.level = .gwin → h.base = BitVec.ofNat 64 (fieldAt d 8 8)) ∧ t.mem = s1.mem ∧
        ∀ n, n ≠ f.h.toNat → (t.team x.team).handle? n = (s1.team x.team).handle? n) ∧
  (∀ (f : FTfree) (s : State) (x : Ctx) (g : Nat), OneGang s x g [] → Tab.sortedFrom 0 (s.team x.team).h = true →
    ((s.team x.team).handle? f.h.toNat).isSome = true → s.handleBusy x.team f.h.toNat = false →
      ∃ t, exec (.tfree f) s = .next t ∧ OutsideTeams s t ∧ (t.team x.team).handle? f.h.toNat = none ∧
        (∀ n, n ≠ f.h.toNat → (t.team x.team).handle? n = (s.team x.team).handle? n) ∧
        { t.team x.team with h := (s.team x.team).h } = s.team x.team) ∧
  ∀ (f : FTinfo) (s : State) (x : Ctx) (g : Nat) (h : Handle), OneGang s x g [] →
    (s.team x.team).handle? f.h.toNat = some h → h.rows < 2 ^ 16 → h.cols < 2 ^ 16 →
    (h.level = .ring → h.rows ≤ 64 ∧ h.phead < 64 ∧ h.chead < 64) →
      ∃ t a, exec (.tinfo f) s = .next t ∧ Replies s t x.team g f.sb.toNat a ∧ a.extractLsb' 0 16 = BitVec.ofNat 16 h.rows ∧
        a.extractLsb' 16 16 = BitVec.ofNat 16 h.cols ∧ a.extractLsb' 32 2 = BitVec.ofNat 2 (levelCode h.level) ∧
        a.extractLsb' 34 1 = 0 ∧ (a.getLsbD 35 = h.wide) ∧ a.extractLsb' 36 2 = 0 ∧
        if h.level = .ring then
          a.extractLsb' 38 6 = BitVec.ofNat 6 h.chead ∧ a.extractLsb' 44 6 = BitVec.ofNat 6 h.phead ∧
            a.extractLsb' 50 7 = BitVec.ofNat 7 ((List.range h.rows).countP (fun i => h.slot i = .filled)) ∧
            a.extractLsb' 57 7 = BitVec.ofNat 7 ((List.range h.rows).countP (fun i => h.slot i = .free))
        else a.extractLsb' 38 26 = 0) ∧
  (∀ (f : FRing) (s : State) (x : Ctx) (g : Nat) (h : Handle), s.ctx = some x → x.realGangs (s.team x.team) = [g] →
    (s.team x.team).handle? f.h.toNat = some h → h.level = .ring →
      let head := if f.cons = 1 then h.chead else h.phead
      let want : SlotState := if f.cons = 1 then .filled else .free
      (h.slot head = want → ∃ t h', exec (.rget f) s = .next t ∧ Replies s t x.team g f.sb.toNat (BitVec.ofNat 64 head) ∧
        (t.team x.team).handle? f.h.toNat = some h' ∧ h'.slot head = (if f.cons = 1 then .taken else .reserved) ∧
        (∀ i, i ≠ head → h'.slot i = h.slot i) ∧
        (if f.cons = 1 then h'.chead = (h.chead + 1) % h.rows ∧ h'.phead = h.phead
          else h'.phead = (h.phead + 1) % h.rows ∧ h'.chead = h.chead)) ∧
      (h.slot head ≠ want → ∃ t, exec (.rget f) s = .next t ∧ t.teams = s.teams ∧
        ∀ p ∈ (t.core x.core).passes, p.team = x.team → ∃ w, p.wait = some (.rget (decide (f.cons = 1)) f.h.toNat f.sb.toNat [w] x.cc) ∧
          w.gang = g)) ∧
  ∀ (f : FRing) (s : State) (x : Ctx) (g : Nat) (h : Handle), OneGang s x g [f.sb.toNat] →
    (s.team x.team).handle? f.h.toNat = some h → h.level = .ring →
      let i := ((s.team x.team).sget g f.sb.toNat).toNat
      let mine : SlotState := if f.cons = 1 then .taken else .reserved
      (i < h.rows → h.slot i = mine → ∃ t h', exec (.rput f) s = .next t ∧ OutsideTeams s t ∧
        (t.team x.team).handle? f.h.toNat = some h' ∧ h'.slot i = (if f.cons = 1 then .free else .filled) ∧
        (∀ m, m ≠ i → h'.slot m = h.slot m) ∧ h'.phead = h.phead ∧ h'.chead = h.chead) ∧
      (∀ j, ¬(i < h.rows ∧ h.slot i = mine) → x.group = [j] → Handled s x.team j → ∃ t, exec (.rput f) s = .next t ∧
        Trapped s t x.team j 0x08 (BitVec.ofNat 64 (10 + 256 * f.h.toNat)) x.pc)

/-! ### Barrier objects, convergence registers, monitors and calls -/

namespace Sys2Proof.Claims

/-- b[n] of team k is held in a barrier file, no arrival and no signature is on its way from the core, and no thread waits on
such an object. -/
def Still (s : State) (c k n : Nat) : Prop :=
  (s.core c).arrivals = [] ∧ (s.core c).sigs = [] ∧ (s.team (s.barrierOwner k n)).clean = false ∧ (s.team (s.barrierOwner k n)).state ≠ .away ∧
    ∀ e ∈ s.teams, ∀ y ∈ e.2.threads, ∀ ph sc r, y.2.loc ≠ .held (.barrier n ph sc) r

/-- The record of an object in the barrier file of a team (R57, R67). -/
def objectOf (s : State) (o n : Nat) : Barrier := Tab.get Barrier.empty (s.team o).b n

/-- The completion step of R351 after a change of ARRIVED or PEND. -/
def Completed (b : Barrier) : Barrier :=
  if b.arrived = b.expect ∧ b.pend = 0 then { b with phase := !b.phase, arrived := 0 } else b

/-- A blocking instruction has completed at once for the thread (R46, R283): it goes on in its pass with the next instruction
as its region entry. -/
def CompletedAtOnce (s t : State) (x : Ctx) (j : Nat) : Prop :=
  let y := (s.team x.team).thread j
  let z := (t.team x.team).thread j
  z.loc = y.loc ∧ z.v = y.v ∧ ∀ a, x.next = some a → y.handler = false → z.trapPc = a ∧ z.regionCnt = y.regionCnt + 1

/-- The thread is held in a blocking instruction and has left its pass (R46); one that a trap of an earlier group's has ended
stays ended (R296). -/
def HeldIn (s t : State) (x : Ctx) (j : Nat) (h : Hold) : Prop :=
  let z := (t.team x.team).thread j
  z.loc = (if ((s.team x.team).thread j).loc = .exited then .exited else .held h x.resume) ∧ z.v = ((s.team x.team).thread j).v ∧ t.mem = s.mem

/-- A trap of each real thread of the group is one that its handler takes; and all of them have trapped (R120, R280). -/
def AllHandled (s : State) (x : Ctx) : Prop :=
  x.group.Nodup ∧ ∀ j ∈ x.group, (s.team x.team).isPawn j = false → Handled s x.team j
def AllTrapped (s t : State) (x : Ctx) (cause : BitVec 8) (info0 : DWord) : Prop :=
  ∀ j ∈ x.group, (s.team x.team).isPawn j = false → Trapped s t x.team j cause info0 x.pc

/-- TRAPINFO0 of CONVERGENCE (R211). -/
def convInfo (reason n : Nat) (code : BitVec 8) : DWord := BitVec.ofNat 64 (reason + 2 ^ 8 * n + 2 ^ 16 * code.toNat)

end Sys2Proof.Claims

/-- R359, R360, R358, R351, R363, R56: BINIT opens an object with its EXPECT and PEND, and traps where EXPECT is not 1 to 8,192; BEXP
adds to PEND and applies the completion step, and is discarded at an object in an error phase; BSTAT replies with the object's
fields; on an uninitialised object both trap. -/
def Obligations.BarrierObjectResults : Prop :=
  (∀ (f : FKss) (s : State) (x : Ctx) (g : Nat), OneGang s x g [f.sa.toNat, f.sb.toNat] →
    Still s x.core x.team f.idx.toNat →
      let e := ((s.team x.team).sget g f.sa.toNat).toNat
      let b := s.barrier x.team f.idx.toNat
      1 ≤ e → e ≤ 8192 → ∃ t, exec (.binit f) s = .next t ∧
        objectOf t (s.barrierOwner x.team f.idx.toNat) f.idx.toNat =
          { pend := (s.team x.team).sget g f.sb.toNat, err := 0, state := 1,
            phase := if b.state = 0 then false else b.phase, arrived := 0, expect := e }) ∧
  (∀ (f : FKss) (s : State) (x : Ctx) (g : Nat), OneGang s x g [f.sa.toNat, f.sb.toNat] → AllHandled s x →
    let e := ((s.team x.team).sget g f.sa.toNat).toNat
    e = 0 ∨ 8192 < e → ∃ t, exec (.binit f) s = .next t ∧ AllTrapped s t x 0x01 (x.word.zeroExtend 64) ∧
      (t.team (s.barrierOwner x.team f.idx.toNat)).b = (s.team (s.barrierOwner x.team f.idx.toNat)).b) ∧
  (∀ (f : FKs) (s : State) (x : Ctx) (g : Nat), OneGang s x g [f.sa.toNat] → Still s x.core x.team f.idx.toNat →
      let b := s.barrier x.team f.idx.toNat
      b.state = 1 → ∃ t, exec (.bexp f) s = .next t ∧
        objectOf t (s.barrierOwner x.team f.idx.toNat) f.idx.toNat = Completed { b with pend := b.pend + (s.team x.team).sget g f.sa.toNat }) ∧
  (∀ (f : FKs) (s : State) (x : Ctx) (g : Nat), OneGang s x g [f.sa.toNat] → Still s x.core x.team f.idx.toNat →
      let b := s.barrier x.team f.idx.toNat
      (b.state = 2 → ∃ t, exec (.bexp f) s = .next t ∧ t.teams = s.teams ∧ t.mem = s.mem) ∧
      (b.state = 0 → AllHandled s x → ∃ t, exec (.bexp f) s = .next t ∧ AllTrapped s t x 0x01 (x.word.zeroExtend 64))) ∧
  (∀ (f : FKs) (s : State) (x : Ctx) (g : Nat), OneGang s x g [] → Still s x.core x.team f.idx.toNat →
      (s.barrier x.team f.idx.toNat).state = 0 → AllHandled s x →
        ∃ t, exec (.bstat f) s = .next t ∧ AllTrapped s t x 0x01 (x.word.zeroExtend 64)) ∧
  ∀ (f : FKs) (s : State) (x : Ctx) (g : Nat), OneGang s x g [] → Still s x.core x.team f.idx.toNat →
      let b := s.barrier x.team f.idx.toNat
      b.state ≠ 0 → b.expect < 2 ^ 14 → b.arrived < 2 ^ 14 → ∃ t a, exec (.bstat f) s = .next t ∧
        Replies s t x.team g f.sa.toNat a ∧ a.extractLsb' 0 14 = BitVec.ofNat 14 b.expect ∧ a.extractLsb' 14 2 = 0 ∧
        a.extractLsb' 16 14 = BitVec.ofNat 14 b.arrived ∧ a.extractLsb' 30 2 = 0 ∧ a.getLsbD 32 = b.phase ∧
        a.extractLsb' 33 2 = b.state ∧ a.extractLsb' 35 5 = 0 ∧ a.extractLsb' 40 8 = b.err ∧
        (a.extractLsb' 48 16).toInt = max (-32768) (min 32767 b.pend.toInt)

/-- R357, R364, R366: BARV, last in its block, sends an arrival; BWAIT completes at once at a boundary, holds its thread for the
phase otherwise, and traps ENGINE_ERROR in an error phase. -/
def Obligations.BarrierArrivalAndWaitResults : Prop :=
  (∀ (f : FKsc) (s : State) (x : Ctx) (j : Nat), Solo s x j none [] [] → x.last = true →
    s.scopeDenied (s.team x.team).vmid f.sc = false → (s.barrier x.team f.idx.toNat).state ≠ 0 →
      ∃ t a, exec (.barv f) s = .next t ∧ (t.core x.core).arrivals = (s.core x.core).arrivals ++ [a] ∧ a.team = x.team ∧
        a.tid = j ∧ a.b = f.idx.toNat ∧ (a.rel = true ↔ Wide f.sc) ∧ TeamsKeep s t x.team [j] ∧ t.mem = s.mem) ∧
  ∀ (f : FKsc) (s : State) (x : Ctx) (j : Nat), Solo s x j none [] [] → s.scopeDenied (s.team x.team).vmid f.sc = false →
    (s.core x.core).arrivals = [] → (s.core x.core).sigs = [] → (s.team x.team).onCore = some x.core →
      let b := s.barrier x.team f.idx.toNat
      (b.state = 1 → b.arrived = 0 → b.pend = 0 → ∃ t, exec (.bwait f) s = .next t ∧ CompletedAtOnce s t x j ∧
        (Wide f.sc → (t.core x.core).l1 = []) ∧ t.mem = s.mem) ∧
      (b.state = 1 → ¬(b.arrived = 0 ∧ b.pend = 0) → ∃ t, exec (.bwait f) s = .next t ∧
        HeldIn s t x j (.barrier f.idx.toNat b.phase f.sc)) ∧
      (b.state = 2 → Handled s x.team j → ∃ t, exec (.bwait f) s = .next t ∧
        Trapped s t x.team j 0x0F (BitVec.ofNat 64 (b.err.toNat + 256 * f.idx.toNat)) x.pc)

/-- R377, R379, R210, R211: KARM arms an unarmed register with its descriptor's address and its count; KSIGN, last in its block,
sends one signature for its thread. CONVERGENCE traps: of either where ERR is set, which clears it, with the recorded code; of KARM
where the register is not UNARMED or the count is not 1 to 2,048; of KSIGN where it is not ARMED or has all its signatures. -/
def Obligations.ConvergenceRegisterResults : Prop :=
  (∀ (f : FKss) (s : State) (x : Ctx) (g : Nat), OneGang s x g [f.sa.toNat, f.sb.toNat] → (s.core x.core).arrivals = [] →
    (s.core x.core).sigs = [] →
    ((s.team x.team).conv f.idx.toNat).err = false → ((s.team x.team).conv f.idx.toNat).state = 0 →
      let e := ((s.team x.team).sget g f.sb.toNat).toNat
      1 ≤ e → e ≤ 2048 → ∃ t, exec (.karm f) s = .next t ∧ OutsideTeams s t ∧
        (t.team x.team).conv f.idx.toNat =
          { (s.team x.team).conv f.idx.toNat with desc := (s.team x.team).sget g f.sa.toNat, expect := e, signed := 0, state := 1 } ∧
        (∀ n, n ≠ f.idx.toNat → (t.team x.team).conv n = (s.team x.team).conv n) ∧
        { t.team x.team with k := (s.team x.team).k } = s.team x.team) ∧
  (∀ (f : FKss) (s : State) (x : Ctx) (g : Nat), OneGang s x g [f.sa.toNat, f.sb.toNat] → (s.core x.core).arrivals = [] →
    (s.core x.core).sigs = [] → AllHandled s x →
      let n := f.idx.toNat
      let v := (s.team x.team).conv n
      let e := ((s.team x.team).sget g f.sb.toNat).toNat
      let traps := fun (reason : Nat) (code : BitVec 8) (w : Conv) =>
        ∃ t, exec (.karm f) s = .next t ∧ AllTrapped s t x 0x14 (convInfo reason n code) ∧ (t.team x.team).conv n = w
      (v.err = true → traps 4 v.errCode { v with err := false }) ∧
      (v.err = false → v.state ≠ 0 → traps 2 0 v) ∧
      (v.err = false → v.state = 0 → e = 0 ∨ 2048 < e → traps 3 0 v)) ∧
  (∀ (f : FKsc) (s : State) (x : Ctx) (j : Nat), Solo s x j none [] [] → x.last = true → Handled s x.team j →
    s.scopeDenied (s.team x.team).vmid f.sc = false →
      let n := f.idx.toNat
      let v := (s.team x.team).conv n
      let traps := fun (reason : Nat) (code : BitVec 8) (w : Conv) =>
        ∃ t, exec (.ksign f) s = .next t ∧ Trapped s t x.team j 0x14 (convInfo reason n code) x.pc ∧ (t.team x.team).conv n = w
      (v.err = true → traps 4 v.errCode { v with err := false }) ∧
      (v.err = false → v.state ≠ 1 ∨ v.expect ≤ v.signed + (s.core x.core).pendingSigs x.team n → traps 1 0 v)) ∧
  ∀ (f : FKsc) (s : State) (x : Ctx) (j : Nat), Solo s x j none [] [] → x.last = true →
    s.scopeDenied (s.team x.team).vmid f.sc = false →
      let v := (s.team x.team).conv f.idx.toNat
      v.err = false → v.state = 1 → v.signed + (s.core x.core).pendingSigs x.team f.idx.toNat < v.expect →
        ∃ t g, exec (.ksign f) s = .next t ∧ (t.core x.core).sigs = (s.core x.core).sigs ++ [g] ∧ g.team = x.team ∧
          g.tid = j ∧ g.k = f.idx.toNat ∧ g.frm = (s.team x.team).frm ∧ (g.rel = true ↔ Wide f.sc) ∧ TeamsKeep s t x.team [j] ∧
          t.mem = s.mem

/-- R292, R293, R298, R461, R116: MARM sends an arming of the line that its address names; MWAIT completes at once when nothing
is armed or the line was written, and holds its thread otherwise; SYSCALL holds it in the gather, YIELD until its pass has
issued its last instruction; NOP does nothing. -/
def Obligations.WaitingInstructionResults : Prop :=
  (∀ (f : FMarm) (s s1 : State) (x : Ctx) (j : Nat) (vs : List (List (Option DWord))) (pa : Nat) (nc : Bool),
    Solo s x j none [.s f.sa.toNat] vs → s.checked x f.sc (sc vs 0) 4 .read = (.ok pa nc, s1) →
      ∃ t, exec (.marm f) s = .next t ∧ (t.core x.core).arms = (s1.core x.core).arms ++
        [{ team := x.team, tid := j, mon := { va := sc vs 0, line := pa / 128, sc := f.sc, written := false } }] ∧
        t.teams = s.teams ∧ t.mem = s1.mem) ∧
  (∀ (f : FKsa) (s : State) (x : Ctx) (j : Nat) (vs : List (List (Option DWord))), Solo s x j none [.s f.sa.toNat] vs →
    (s.core x.core).arms = [] →
      let timeout := if f.sa = 0 then (s.team x.team).btimeout.toNat else (wd vs 0).toNat
      (((s.team x.team).thread j).mon = none → ∃ t, exec (.mwait f) s = .next t ∧ CompletedAtOnce s t x j ∧ t.mem = s.mem) ∧
      (∀ m, ((s.team x.team).thread j).mon = some m → m.written = true → ∃ t, exec (.mwait f) s = .next t ∧
        CompletedAtOnce s t x j ∧ ((t.team x.team).thread j).mon = none ∧ t.mem = s.mem) ∧
      ∀ m, ((s.team x.team).thread j).mon = some m → m.written = false → ∃ t, exec (.mwait f) s = .next t ∧
        HeldIn s t x j (.monitor (if timeout = 0 then none else some (x.cc + timeout)) timeout) ∧
        ((t.team x.team).thread j).mon = some m) ∧
  (∀ (f : FKsa) (s : State) (x : Ctx) (j : Nat), Solo s x j none [] [] → x.last = true →
    ∃ t, exec (.syscall f) s = .next t ∧ HeldIn s t x j (.gather f.sa.toNat)) ∧
  (∀ (w : BitVec 2) (s : State) (x : Ctx) (j : Nat), Solo s x j none [] [] →
    ∃ t, exec (.yield w) s = .next t ∧ HeldIn s t x j .yielded) ∧
  ∀ s : State, exec .nop s = .next s

/-- R291, R281, R290: TRAP and BRK trap USER_TRAP and BRK with their code; HRET returns a thread from its handler to TRAPPC, and
outside a handler traps ILLEGAL_OP. -/
def Obligations.TrapInstructionsAndHandlerReturn : Prop :=
  (∀ (f : FCode) (s : State) (x : Ctx) (j : Nat), Solo s x j none [] [] → Handled s x.team j →
    (∃ t, exec (.trap f) s = .next t ∧ Trapped s t x.team j 0x10 (f.code.zeroExtend 64) x.pc) ∧
    ∃ t, exec (.brk f) s = .next t ∧ Trapped s t x.team j 0x11 (f.code.zeroExtend 64) x.pc) ∧
  ∀ (w : BitVec 2) (s : State) (x : Ctx) (j : Nat), s.ctx = some x → x.group = [j] → (s.team x.team).isPawn j = false →
    ((s.team x.team).thread j).loc = .pass →
      let y := (s.team x.team).thread j
      (y.handler = true → y.trapPc.toNat % 2 = 0 → canonical y.trapPc = true → ∃ t, exec (.hret w) s = .next t ∧
        let z := (t.team x.team).thread j
        z = { y with handler := false, loc := .waits y.trapPc } ∧ t.mem = s.mem) ∧
      (Handled s x.team j → ∃ t, exec (.hret w) s = .next t ∧ Trapped s t x.team j 0x01 (x.word.zeroExtend 64) x.pc)

/-! ### Posting to the engines, and task queues -/

namespace Sys2Proof.Claims

/-- The posting functions of format X with their function codes (R205, R232, R369). -/
def posts : List ((FX → Instr) × Nat) :=
  [(.cpy, 0x08), (.cpym, 0x09), (.cpyz, 0x0A), (.mlds, 0x10), (.mstrm, 0x11), (.mdrn, 0x12), (.mzacc, 0x13), (.dgst, 0x30)]

/-- An entry of 64 bytes of a list of bytes. -/
def entryOf (bs : List Byte) (i : Nat) : List Byte × List Nat := ((bs.drop (64 * i)).take 64, [])

end Sys2Proof.Claims

/-- R205, R207, R232, R233, R369, R388, R381, R27, R460: an engine instruction, last in its block, posts its gang's request and waits in
its pass for acceptance; DGST outside a system team traps ILLEGAL_OP; a group of pawns posts nothing, with these as with TQPUSH, TQPOP
and XSTAT, and keeps every s register. XSTAT, last in its block, replies to query code 0 with the free entries of the cluster's two
tables and the number of the team's commands, to query code 1 with the state of its weights, its accumulator tiles and the promotion
buffer, and to any other with all ones. -/
def Obligations.EnginePostsAndStatus : Prop :=
  ((∀ c ∈ posts, ∀ (f : FX) (s : State) (x : Ctx) (g : Nat), OneGang s x g [f.sa.toNat, f.sb.toNat] → x.last = true →
    (c.2 = 0x30 → (s.team x.team).sys = true) → (∀ p ∈ (s.core x.core).passes, p.team = x.team → p.wait = none) →
      ∃ t, exec (c.1 f) s = .next t ∧ TeamsKeep s t x.team x.group ∧ t.mem = s.mem ∧ t.clusters = s.clusters ∧
        ∀ p ∈ (t.core x.core).passes, p.team = x.team → ∃ w, p.wait =
            some (.post c.2 (decide (f.re = 1)) f.sd.toNat [w] x.cc) ∧ w.gang = g ∧
          w.tids = x.ofGang (s.team x.team) g ∧ w.a = (s.team x.team).sget g f.sa.toNat ∧
          w.b = (s.team x.team).sget g f.sb.toNat) ∧
  (∀ (f : FX) (s : State) (x : Ctx) (g j : Nat), OneGang s x g [f.sa.toNat, f.sb.toNat] → x.last = true → x.group = [j] →
    (s.team x.team).sys = false → Handled s x.team j →
      ∃ t, exec (.dgst f) s = .next t ∧ Trapped s t x.team j 0x01 (x.word.zeroExtend 64) x.pc) ∧
  ∀ (i : Instr) (sa sb : Nat) (s : State) (x : Ctx),
    (∃ c ∈ posts, ∃ f, i = c.1 f ∧ sa = f.sa.toNat ∧ sb = f.sb.toNat) ∨ (∃ f, i = .tqpush f ∧ sa = f.sa.toNat ∧ sb = f.sb.toNat) ∨
      (∃ f, i = .tqpop f ∧ sa = f.sa.toNat ∧ sb = f.sb.toNat) ∨ (∃ f, i = .xstat f ∧ sa = f.sa.toNat ∧ sb = 0) →
    s.ctx = some x → s.anyEarly x (gangReads [sa, sb] (s.team x.team)) = false → (∀ m ∈ x.group, (s.team x.team).isPawn m = true) →
      ∃ t, exec i s = .next t ∧ t.mem = s.mem ∧ t.clusters = s.clusters ∧ t.slices = s.slices ∧ t.cores = s.cores ∧
        TeamsKeep s t x.team x.group) ∧
  ∀ (f : FXstat) (s : State) (x : Ctx) (g : Nat), OneGang s x g [f.sa.toNat] → x.last = true →
    let cl := s.cluster (x.core / 4)
    let code := (s.team x.team).sget g f.sa.toNat
    (code = 0 → cl.matrix.table.length ≤ 16 → cl.copy.table.length ≤ 32 → s.commandCount x.team ≤ 32 →
      ∃ t a, exec (.xstat f) s = .next t ∧ Replies s t x.team g f.sd.toNat a ∧ t.mem = s.mem ∧
        (a.extractLsb' 16 5).toNat = 16 - cl.matrix.table.length ∧ (a.extractLsb' 8 6).toNat = 32 - cl.copy.table.length ∧
        (a.extractLsb' 0 6).toNat = s.commandCount x.team ∧ a.extractLsb' 6 2 = 0 ∧ a.extractLsb' 14 2 = 0 ∧
        a.extractLsb' 21 43 = 0) ∧
    (code = 1 → (cl.matrix.promosOf (s.team x.team)).length ≤ 1024 →
      ∃ t a, exec (.xstat f) s = .next t ∧ Replies s t x.team g f.sd.toNat a ∧ t.mem = s.mem ∧
        (∀ n, n < 8 → (a.getLsbD n = true ↔ (s.team x.team).accA = some n ∨ (s.team x.team).accB = some n)) ∧
        (a.getLsbD 8 = true ↔ cl.matrix.ramp ≠ 0 ∧ s.ccNow < cl.matrix.rampAt + 256) ∧
        (a.getLsbD 9 = true ↔ ∃ p, cl.matrix.active = some p ∧ p.team = x.team ∧
          some p.seq = (s.team x.team).curW.map Weights.seq) ∧
        (a.getLsbD 10 = true ↔ ∃ p, cl.matrix.shadow = some p ∧ p.team = x.team ∧ ∃ w ∈ (s.team x.team).penW, w.seq = p.seq) ∧
        (a.extractLsb' 16 11).toNat = (cl.matrix.promosOf (s.team x.team)).length ∧ a.extractLsb' 11 5 = 0 ∧
        a.extractLsb' 27 37 = 0) ∧
    (2 ≤ code.toNat → ∃ t, exec (.xstat f) s = .next t ∧ Replies s t x.team g f.sd.toNat (BitVec.allOnes 64) ∧ t.mem = s.mem)

namespace Sys2Proof.Claims

/-- The lowest-numbered reason for which a selector is refused, 0 for none (R253, R257). -/
def reasonOf (s : State) (T : Team) (sel : DWord) (pop : Bool) : Nat :=
  let q := s.queue (sel.toNat % 2 ^ 16)
  if 64 * s.nsl ≤ sel.toNat % 2 ^ 16 ∨ q.en = false then 1
  else if q.asid ≠ T.asid ∨ q.vmid ≠ T.vmid then 2
  else if pop = true ∧ q.bound = true then 3
  else if sel.extractLsb' 24 40 ≠ 0 ∨ sel.getLsbD 22 = true ∨ (pop = false ∧ sel.getLsbD 23 = true) ∨
      32 < (sel.extractLsb' 16 6).toNat then 4
  else 0

end Sys2Proof.Claims

/-- R254, R255, R257, R410, R411: TQPUSH to a queue whose chip has room puts its entries there in order and replies with their
number; TQPOP of one entry takes the oldest from the chip and stores it, replies with 0 from an empty queue where NB is set, and
otherwise holds its threads; a selector that is refused traps ACCESS for either, with the reason, the queue and the selector in its
information registers. -/
def Obligations.TaskQueueInstructionResults : Prop :=
  (∀ (f : FX) (s s1 : State) (x : Ctx) (g : Nat) (bs : List Byte), OneGang s x g [f.sa.toNat, f.sb.toNat] → x.last = true →
    (s.core x.core).stq = [] → (s.core x.core).atq = [] → (s.core x.core).arrivals = [] → (s.core x.core).sigs = [] →
      let sel := (s.team x.team).sget g f.sa.toNat
      let a := (s.team x.team).sget g f.sb.toNat
      let q := s.queue (selQ sel)
      s.queueRefuse sel (s.team x.team).asid (s.team x.team).vmid false = none → a.toNat % 64 = 0 →
      s.loadDWords x (x.ofGang (s.team x.team) g) a (8 * selCount sel) = (.ok bs, s1) → q.pushes = [] → q.pops = [] → q.inRing = 0 →
      q.chip.length + selCount sel ≤ q.share →
        ∃ t, exec (.tqpush f) s = .next t ∧ t.mem = s1.mem ∧
          (t.queue (selQ sel)).chip = q.chip ++ (List.range (selCount sel)).map (entryOf bs) ∧
          (t.queue (selQ sel)).inRing = 0 ∧
          (f.re = 1 → Replies s t x.team g f.sd.toNat (BitVec.ofNat 64 (selCount sel)))) ∧
  (∀ (i : Instr) (pop : Bool) (sa sb : Nat) (s : State) (x : Ctx) (g j : Nat),
    (∃ f, i = .tqpush f ∧ pop = false ∧ sa = f.sa.toNat ∧ sb = f.sb.toNat ∧ x.last = true) ∨
      (∃ f, i = .tqpop f ∧ pop = true ∧ sa = f.sa.toNat ∧ sb = f.sb.toNat) →
    OneGang s x g [sa, sb] → x.group = [j] → Handled s x.team j →
      let sel := (s.team x.team).sget g sa
      let r := reasonOf s (s.team x.team) sel pop
      r ≠ 0 → ∃ t, exec i s = .next t ∧ ((t.team x.team).thread j).info1 = sel ∧
        Trapped s t x.team j 0x07 (BitVec.ofNat 64 (r + 2 ^ 16 * (sel.toNat % 2 ^ 16))) x.pc) ∧
  ∀ (f : FXr) (s : State) (x : Ctx) (g j : Nat), OneGang s x g [f.sa.toNat, f.sb.toNat] → x.group = [j] →
      let sel := (s.team x.team).sget g f.sa.toNat
      let a := (s.team x.team).sget g f.sb.toNat
      let q := s.queue (selQ sel)
      s.queueRefuse sel (s.team x.team).asid (s.team x.team).vmid true = none → a.toNat % 64 = 0 →
      (selCount sel = 0 → ∃ t, exec (.tqpop f) s = .next t ∧ Replies s t x.team g f.sd.toNat 0 ∧ CompletedAtOnce s t x j) ∧
      (∀ s1 pa e r, selCount sel = 1 → s.probeWrite x.core x.team x.pc a 1 = (.ok [pa], s1) → q.chip = (e, []) :: r →
        e.length = 64 → q.inRing = 0 → q.pops = [] → q.pushes = [] → Quiet s → (s.core x.core).stq = [] →
        (s.team x.team).vmid = 0 →
          ∃ t, exec (.tqpop f) s = .next t ∧ Replies s t x.team g f.sd.toNat 1 ∧ t.mem = s1.mem.write pa e ∧
            (t.queue (selQ sel)).chip = r ∧ CompletedAtOnce s t x j) ∧
      (∀ s1 pas, selCount sel ≠ 0 → s.probeWrite x.core x.team x.pc a (selCount sel) = (.ok pas, s1) → q.chip = [] →
        q.inRing = 0 →
          (selNb sel = true → ∃ t, exec (.tqpop f) s = .next t ∧ Replies s t x.team g f.sd.toNat 0 ∧ CompletedAtOnce s t x j) ∧
          (selNb sel = false → ∃ t, exec (.tqpop f) s = .next t ∧
            ((t.team x.team).thread j).loc = (if ((s.team x.team).thread j).loc = .exited then .exited
              else .held (.pop (selQ sel) (selCount sel) a f.sd.toNat) x.resume) ∧
            (t.queue (selQ sel)).pops = q.pops ++
              [{ team := x.team, gang := g, tids := [j], count := selCount sel, dst := a, sd := f.sd.toNat }]))

/-! ### Host harts -/

namespace Sys2Proof.Claims

/-- The hart's instruction has completed with a result in rd (R258): the next instruction's address, and rd alone changed. -/
def HartDone (s t : State) (n : Nat) (rd : BitVec 5) (v : DWord) : Prop :=
  (t.hart n).pc = (s.hart n).pc + 4 ∧ (t.hart n).exc = none ∧ (t.hart n).get rd.toNat = (if rd = 0 then 0 else v) ∧
    ∀ r, r ≠ rd.toNat → (t.hart n).get r = (s.hart n).get r

/-- The hart's instruction has raised an exception, and has had no other effect. -/
def HartRaised (s t : State) (n : Nat) (e : HartExc) : Prop := t = s.setHart n { s.hart n with exc := some e }

/-- a0 to a7, x10 to x17 of a hart (R259). -/
def launchArgs (h : Hart) : List DWord := (List.range 8).map (fun i => h.get (10 + i))

/-- The refusals of R261 that a launch's fields decide, in their order, with their codes; none where the launch is entered when
its table and memory have room. -/
def refusalOf (h : Hart) : Option Int :=
  let a := launchArgs h
  if h.bare = true then some (-3)
  else if launchFieldsOk a = false then some (-1)
  else if (argAt a 3).getLsbD 56 = true ∧ h.priv ≠ .m ∧ h.priv ≠ .s then some (-6)
  else if launchAddrsOk a = false then some (-2)
  else none

end Sys2Proof.Claims

/-- R259, R261, R262, R459: XLSPAWN answers the first refusal that applies, −5 where the slice's launch table is full, and else
enters the launch and answers its index; here the launch is not co-dependent. -/
def Obligations.LaunchInstructionResults : Prop :=
  ∀ (rd : BitVec 5) (s : State) (n : Nat), s.turn = .hart n →
    let h := s.hart n
    let a := launchArgs h
    let l := (s.slice (n / 4)).launches.freeKey 0
    (∀ v, refusalOf h = some v → ∃ t, exec (.xlspawn rd) s = .next t ∧ HartDone s t n rd (BitVec.ofInt 64 v) ∧
      t.slices = s.slices) ∧
    (refusalOf h = none → 64 ≤ l → ∃ t, exec (.xlspawn rd) s = .next t ∧ HartDone s t n rd (BitVec.ofInt 64 (-5)) ∧
      t.slices = s.slices) ∧
    (refusalOf h = none → l < 64 → (argAt a 3).getLsbD 50 = false → ∃ t e, exec (.xlspawn rd) s = .next t ∧
      HartDone s t n rd (BitVec.ofNat 64 l) ∧ t.launch? (n / 4) l = some e ∧ e.a = a ∧ e.satp = h.space.satp ∧
      e.asid = h.space.asid ∧ e.vmid = h.space.vmid ∧ e.bound = 0 ∧ e.retired = 0 ∧ e.seq = s.nextSeq ∧
      (e.depMet = true ↔ argAt a 6 = 0) ∧ t.mem = s.mem)

/-- R265, R457, R267, R458: XLJWAIT in M-mode answers a counter that has reached its target and waits on one that has not, and
its end answers the counter; XLQPUSH answers the number of entries pushed, or the refused selector's reason. -/
def Obligations.JoinAndPushInstructionResults : Prop :=
  (∀ (rd rs1 rs2 : BitVec 5) (s : State) (n : Nat), s.turn = .hart n → (s.hart n).priv = .m →
    let va := (s.hart n).get rs1.toNat
    let v := s.mem.readNat va.toNat 8
    (va.toNat % 8 ≠ 0 → ∃ t, exec (.xljwait rd rs1 rs2) s = .next t ∧ HartRaised s t n (.loadMisaligned va)) ∧
    (va.toNat % 8 = 0 → va.toNat < s.memEnd → va.toNat < 2 ^ 40 → s.mem.poisoned va.toNat 8 = false →
      (((s.hart n).get rs2.toNat).toNat ≤ v → ∃ t, exec (.xljwait rd rs1 rs2) s = .next t ∧
        HartDone s t n rd (BitVec.ofNat 64 v) ∧ MemKeeps s.mem t.mem) ∧
      (v < ((s.hart n).get rs2.toNat).toNat → ∃ t j, exec (.xljwait rd rs1 rs2) s = .next t ∧ (t.hart n).jwait = some j ∧
        j.rd = rd.toNat ∧ j.pa = va.toNat ∧ (t.hart n).pc = (s.hart n).pc ∧ (t.hart n).x = (s.hart n).x ∧
        MemKeeps s.mem t.mem))) ∧
  (∀ (n : Nat) (s : State) (j : JWait) (rd : BitVec 5), (s.hart n).jwait = some j → j.rd = rd.toNat →
    (j.pa < 2 ^ 40 → s.mem.poisoned j.pa 8 = false →
      (∃ t, exec (.xljwaitTimeout n) s = .next t ∧ HartDone s t n rd (BitVec.ofNat 64 (s.mem.readNat j.pa 8)) ∧
        (t.hart n).jwait = none) ∧
      ∃ t, exec (.interruptPending n) s = .next t ∧ HartDone s t n rd (BitVec.ofNat 64 (s.mem.readNat j.pa 8)) ∧
        (t.hart n).jwait = none) ∧
    (2 ^ 40 ≤ j.pa → ∃ t, exec (.interruptPending n) s = .next t ∧ HartDone s t n rd (s.controlRead (j.pa - 2 ^ 40)) ∧
      (t.hart n).jwait = none)) ∧
  ∀ (rd rs1 rs2 : BitVec 5) (s : State) (n : Nat), s.turn = .hart n →
    let h := s.hart n
    let sel := h.get rs1.toNat
    let va := h.get rs2.toNat
    let q := s.queue (selQ sel)
    (∀ r, s.queueRefuse sel h.space.asid h.space.vmid false = some r → ∃ t, exec (.xlqpush rd rs1 rs2) s = .next t ∧
      HartDone s t n rd (BitVec.ofInt 64 (-(r : Int)))) ∧
    (∀ l s1 s2 bs, s.queueRefuse sel h.space.asid h.space.vmid false = none → q.pushes = [] → q.pops = [] → q.inRing = 0 →
      selCount sel ≠ 0 → q.chip.length + selCount sel ≤ q.share → va.toNat % 64 = 0 →
      s.hartPieces n .read ((List.range (selCount sel)).map (fun i => (va + BitVec.ofNat 64 (64 * i), 64))) = (.ok l, s1) →
      s1.readPieces l = (some bs, s2) →
        ∃ t, exec (.xlqpush rd rs1 rs2) s = .next t ∧ HartDone s t n rd (BitVec.ofNat 64 (selCount sel)) ∧
          (t.queue (selQ sel)).chip = q.chip ++ (List.range (selCount sel)).map (entryOf bs) ∧ t.mem = s2.mem)

/-! ### What a core and the homes of its accesses do of themselves -/

namespace Sys2Proof.Claims

/-- An atomic's step on values of its width (R353, R354): the new value, none where a comparison fails. -/
def atomStep {n : Nat} (op : AtomOp) (old a b : BitVec n) : Option (BitVec n) :=
  match op with
  | .add => some (old + a)
  | .and => some (old &&& a)
  | .or => some (old ||| a)
  | .xor => some (old ^^^ a)
  | .minS => some (if a.toInt < old.toInt then a else old)
  | .maxS => some (if old.toInt < a.toInt then a else old)
  | .minU => some (if a.toNat < old.toNat then a else old)
  | .maxU => some (if old.toNat < a.toNat then a else old)
  | .xchg => some a
  | .cas => if old = a then some b else none
  | .fadd => some (BitVec.ofNat n (fmt32.add 0 old.toNat a.toNat).1)

/-- No arrival and no signature of the core issued before a place in its order. -/
def IssuedFirst (k : Core) (n : Nat) : Prop := (∀ a ∈ k.arrivals, n ≤ a.seq) ∧ ∀ g ∈ k.sigs, n ≤ g.seq

/-- The successor of a block for a thread (R30), by KIND: FALL 0, SPLIT 1, CALL 2, RET 3, JMPS 4 and JMPV 6. -/
def nextOf (t : Team) (j : Nat) (p : Pass) : Option DWord :=
  let x := t.thread j
  match (p.w1.extractLsb' 0 3).toNat with
  | 0 => some (hdrFall p.hdr p.w0)
  | 1 => some (if x.pget (p.w1.extractLsb' 3 2).toNat = p.w1.getLsbD 5 then hdrFall p.hdr p.w0 else hdrTarget p.hdr p.w1)
  | 2 => some (hdrTarget p.hdr p.w1)
  | 3 => some (x.v64 62)
  | 4 => some (t.sget (j / t.w) (p.w1.extractLsb' 6 5).toNat)
  | 6 => some (x.v64 (2 * (p.w1.extractLsb' 6 5).toNat))
  | _ => none

/-- The slot of the poisoned register that it reads, if one is (R85, R86, R282): 64 a predicate, 127 an s register. -/
def spoiltFor (t : Team) (j : Nat) (p : Pass) : Option Nat :=
  let x := t.thread j
  let pair := fun (n : Nat) => if n ∈ x.bad then some n else if n + 1 ∈ x.bad then some (n + 1) else none
  match (p.w1.extractLsb' 0 3).toNat with
  | 1 => if p.w1.extractLsb' 3 2 ≠ 0 ∧ 64 ∈ x.bad then some 64 else none
  | 3 => pair 62
  | 4 => if t.spoison (j / t.w) (p.w1.extractLsb' 6 5).toNat = true then some 127 else none
  | 6 => pair (2 * (p.w1.extractLsb' 6 5).toNat)
  | _ => none

/-- No engine command of the machine is under way. -/
def NoCommands (s : State) : Prop := ∀ cl ∈ s.clusters, cl.2.matrix.table = [] ∧ cl.2.copy.table = []

end Sys2Proof.Claims

/-- R45, R62, R384: the oldest result of a team is written by RESULT_WRITEBACK, a load's by LOAD_REPLY: its words go to their
registers and its exceptions into FFLAGS, in no earlier cycle than one in which a write of those registers has become readable (R126). -/
def Obligations.ResultsAreWritten : Prop :=
  ∀ (s : State) (k : Nat) (r : Result) (rest : List Result), (s.team k).results = r :: rest →
    r.vs.Pairwise (fun a b => a.1 ≠ b.1 ∨ a.2.1 ≠ b.2.1) → r.ss.Pairwise (fun a b => a.1 ≠ b.1 ∨ a.2.1 ≠ b.2.1) →
    (∀ v ∈ r.ss, v.2.1 < 32) →
      ∃ t, exec (if r.load = true then .loadReply k else .resultWriteback k) s = .next t ∧
        (match (s.team k).onCore with
          | some c => { t with teams := s.teams, cores := s.cores, part := s.part } = s ∧
              (∀ m ∈ (s.team k).marks, r.writes m = true → m.avail ≤ (t.core c).cc + 1) ∧
              ((∀ m ∈ (s.team k).marks, r.writes m = true → m.avail ≤ (s.core c).cc + 1) → (t.core c).cc = (s.core c).cc)
          | none => OutsideTeams s t) ∧
        (∀ m ∈ (t.team k).marks, r.writes m = false) ∧ (t.team k).results = rest ∧ (∀ v ∈ r.vs, v.2.1 < 64 → ((t.team k).thread v.1).vget v.2.1 = v.2.2) ∧
        (∀ v ∈ r.ss, SHolds (t.team k) v.1 v.2.1 v.2.2) ∧ (t.team k).fflags = (s.team k).fflags ||| r.flags

/-- R180, R186, R189, R354, R169, R249: the oldest store of a core changes memory at its home, one that follows others when no arrival
or signature is before it; an atomic reads and changes its location in one step and replies with the old value; a near-memory update
changes its location, after the stores that a FENCE.NM puts before it. -/
def Obligations.AccessesArePerformedAtTheirHomes : Prop :=
  (∀ (s : State) (c : Nat) (st : Store) (rest : List Store), (s.core c).stq = st :: rest → Quiet s → st.vmid = 0 →
    (st.rel = true ∨ st.after ≠ 0 → (s.core c).arrivals = [] ∧ (s.core c).sigs = []) →
    ∃ t, exec (.storePerformedAtHome c 0) s = .next t ∧ t.mem = s.mem.write st.pa st.bytes ∧ (t.core c).stq = rest ∧
      t.teams = s.teams ∧ (s.mem.wf = true → t.mem.read st.pa st.bytes.length = st.bytes ∧
        ∀ a, a < st.pa ∨ st.pa + st.bytes.length ≤ a → t.mem.get a = s.mem.get a)) ∧
  (∀ (s : State) (c : Nat) (r : AtomReq), (s.core c).atq = [r] → (s.core c).stq = [] →
    (s.core c).arrivals = [] → (s.core c).sigs = [] → Quiet s → (s.team r.team).vmid = 0 →
    s.mem.poisoned r.pa (if r.wide = true then 8 else 4) = false → (r.op = .fadd → r.wide = false) →
      let n := if r.wide = true then 8 else 4
      let old := s.mem.readNat r.pa n
      ∃ t q, exec (.atomAtHome c 0) s = .next t ∧ (t.core c).atq = [] ∧
        (match (if r.wide = true then (atomStep r.op (BitVec.ofNat 64 old) r.a r.b).map BitVec.toNat
            else (atomStep r.op (BitVec.ofNat 32 old) (lo32 r.a) (lo32 r.b)).map BitVec.toNat) with
          | some v => t.mem = s.mem.write r.pa (toBytes n v)
          | none => MemKeeps s.mem t.mem) ∧
        (t.team r.team).results = (s.team r.team).results ++ [q] ∧
        Brings (vdst r.wide r.vd) r.tid q (BitVec.ofNat 64 old) ∧ (Wide r.sc → (t.core c).l1 = [])) ∧
  ∀ (s : State) (c : Nat) (r : NmReq), (s.core c).nmq = [r] → Quiet s → PlainUpdate r →
    s.mem.poisoned r.pa (if r.wide = true then 8 else 4) = false →
      (r.after = 0 → ∃ t, exec (.nmredUpdatePerformed c 0) s = .next t ∧ (t.core c).nmq = [] ∧ t.teams = s.teams ∧
        (t.core c).stq = (s.core c).stq ∧ t.mem = updated s.mem r) ∧
      ((s.core c).arrivals = [] → (s.core c).sigs = [] → (∀ st ∈ (s.core c).stq, st.vmid = 0 ∧ st.seq < r.after) →
        ∃ t, exec (.nmredUpdatePerformed c 0) s = .next t ∧ (t.core c).nmq = [] ∧ t.teams = s.teams ∧ (t.core c).stq = [] ∧
          t.mem = updated ((s.core c).stq.foldl (fun m st => m.write st.pa st.bytes) s.mem) r)

/-- R351, R357, R364, R210, R379, R292: an arrival is counted and completes the phase as its last; a thread that waits for the
phase then goes on after its BWAIT; a signature is counted and the last one makes the register post; an arming arms. -/
def Obligations.ArrivalsSignaturesAndArmingsArrive : Prop :=
  (∀ (s : State) (c : Nat) (a : Arrival) (rest : List Arrival), (s.core c).arrivals = a :: rest → a.rel = false →
    IssuedFirst (s.core c) a.seq →
    (s.team (s.barrierOwner a.team a.b)).clean = false →
      let o := s.barrierOwner a.team a.b
      let b := s.barrier a.team a.b
      b.state = 1 → b.arrived ≠ b.expect →
        ((∀ e ∈ s.teams, ∀ y ∈ e.2.threads, ∀ ph sc r, y.2.loc ≠ .held (.barrier a.b ph sc) r) →
          ∃ t, exec (.barrierArrival c) s = .next t ∧ objectOf t o a.b = Completed { b with arrived := b.arrived + 1 } ∧
            (t.core c).arrivals = rest ∧ ((s.team o).state ≠ .away → t.mem = s.mem))) ∧
  (∀ (s : State) (c k j n cc sl q : Nat) (r : Resume) (sc : Scope) (next : DWord), n < 12 →
    (s.core c).arrivals = [{ team := k, tid := j, b := n, rel := false, seq := q }] → IssuedFirst (s.core c) q →
    (s.team k).clean = false →
    (s.team k).state = .resident cc sl → s.barrierWaiters k n = [(k, j)] →
    ((s.team k).thread j).loc = .held (.barrier n (s.barrier k n).phase sc) r → r.next = some next →
    ((s.team k).thread j).handler = false → (s.barrier k n).state = 1 → (s.barrier k n).pend = 0 →
    (s.barrier k n).arrived + 1 = (s.barrier k n).expect →
      ∃ t, exec (.barrierArrival c) s = .next t ∧
        objectOf t k n = { s.barrier k n with arrived := 0, phase := !(s.barrier k n).phase } ∧
        ((t.team k).thread j).loc = .waits next ∧ ((t.team k).thread j).trapPc = next) ∧
  (∀ (s : State) (c : Nat) (g : Sig) (rest : List Sig), (s.core c).sigs = g :: rest → g.rel = false →
    IssuedFirst (s.core c) g.seq →
      let v := (s.team g.team).conv g.k
      v.state = 1 → v.signed < v.expect → ∃ t, exec (.ksignSignature c) s = .next t ∧ (t.core c).sigs = rest ∧
        if v.signed + 1 = v.expect then
          (t.team g.team).conv g.k = { v with state := 2, frmp := g.frm, signed := 0 } ∧
            (t.cluster (c / 4)).matrix.posting = (s.cluster (c / 4)).matrix.posting ++ [(g.team, g.k)]
        else (t.team g.team).conv g.k = { v with signed := v.signed + 1 } ∧ t.clusters = s.clusters) ∧
  ∀ (s : State) (c : Nat) (a : Arming) (rest : List Arming), (s.core c).arms = a :: rest →
    ∃ t, exec (.monitorArming c) s = .next t ∧ (t.core c).arms = rest ∧ t.mem = s.mem ∧
      (t.team a.team).thread a.tid = { (s.team a.team).thread a.tid with mon := some a.mon }

/-- R293, R294, R165, R207, R233, R295, R296: the waits that a timeout ends: a thread in MWAIT traps MWAIT_TIMEOUT and is
disarmed; a team of a monitor table becomes bindable; a gang that waits in RGET, or in a post with RE, receives all ones; and a
context whose watch counter runs out is killed. -/
def Obligations.TimeoutsEndTheirWaits : Prop :=
  (∀ (s : State) (k j c sl d timeout : Nat) (r : Resume) (m : Monitor), (s.team k).state = .resident c sl →
    ((s.team k).thread j).loc = .held (.monitor (some d) timeout) r → ((s.team k).thread j).mon = some m →
    ((s.team k).thread j).handler = false → (s.team k).trapVec ≠ 0 →
      ∃ t, exec (.mwaitTimeout k j) s = .next t ∧ d ≤ (t.core c).cc ∧ t.mem = s.mem ∧
        let z := (t.team k).thread j
        z.handler = true ∧ z.trapCause = 0x0A ∧ z.info0 = m.va ∧ z.info1 = BitVec.ofNat 64 timeout ∧ z.trapPc = r.pc ∧
          z.mon = none ∧ z.loc = .waits (s.team k).trapVec) ∧
  (∀ (s : State) (i k n w : Nat) (ls : List Nat), (s.slice i).monitors = [{ team := k, lines := ls, left := some n, since := w }] →
    ∃ t, exec (.monitorTableTimeout i k) s = .next t ∧ (t.team k).bindable = true ∧
      (t.slice i).monitors = [{ team := k, lines := ls, left := none, since := w }] ∧ t.mem = s.mem) ∧
  (∀ (s : State) (c h sb since : Nat) (cons : Bool) (p : Pass) (g : GangWait), (s.core c).passes = [p] →
    p.wait = some (.rget cons h sb [g] since) →
      ∃ t, exec (.rgetWaitTimeout c) s = .next t ∧ Replies s t p.team g.gang sb (BitVec.allOnes 64) ∧
        (t.core c).passes = [{ p with wait := none }] ∧ since + 1024 ≤ (t.core c).cc) ∧
  (∀ (s : State) (c fn sd since : Nat) (p : Pass) (g : GangWait), (s.core c).passes = [p] →
    p.wait = some (.post fn true sd [g] since) →
      ∃ t, exec (.enginePostTimeout c) s = .next t ∧ Replies s t p.team g.gang sd (BitVec.allOnes 64) ∧
        (t.core c).passes = [{ p with wait := none }] ∧ since + 1024 ≤ (t.core c).cc) ∧
  ∀ (s : State) (k c sl n j : Nat), (s.team k).state = .resident c sl → s.watchLeft k = [(n, j)] → NoCommands s →
    (s.team k).susp = [] →
      ∃ t, exec (.stalemateWatchdog k) s = .next t ∧ (t.team k).state = .killed c sl ∧
        (t.core c).table.all (fun e => e.team != k) = true

/-- R34, R35, R283, R73, R84, R30, R282, R85, R37, R171: the team whose pass is selected starts it where its block can be fetched; a
register line that is missing arrives; a thread of an ended pass joins its successor, of every KIND, or exits, or traps: MISALIGNED,
ILLEGAL_OP for KIND 7, or RF_UE for a poisoned register that the successor reads; an idle team's entries age; and a page walk leaves
its entry in the TLBs. -/
def Obligations.PassesStartAndEnd : Prop :=
  (∀ (s s1 : State) (c k : Nat) (p q : Pass), (s.core c).passes.length < 4 → s.halted = false →
    s.resident c = [k] → (s.team k).leaving = none → (s.team k).sel = some p → p.team = k →
    (s.core c).passes.any (fun e => e.team == k) = false → s.fetchBlock c p = (.ok q, s1) → q.off < q.body.length →
      ∃ t r, exec (.passStart c) s = .next t ∧ (t.core c).passes = (s.core c).passes ++ [r] ∧
        { r with start := 0 } = { q with start := 0 } ∧ (t.team k).sel = none ∧ t.mem = s1.mem ∧
        ∀ j ∈ q.groups.flatten, ((t.team k).thread j).handler = false → hdrRegion q.w0 = true → q.addr = q.hdr →
          ((t.team k).thread j).trapPc = q.hdr) ∧
  (∀ (s : State) (c k b n : Nat), (s.team k).onCore = some c → n < 66 → b < (s.team k).gangs * ((s.team k).w / 16) →
    (s.core c).hasLine k b n = false → (s.core c).lines.length < (s.core c).lineCount →
    s.mem.poisoned ((s.team k).lineAddr b n) 64 = false →
      ∃ t, exec (.registerLineFetch c k b n) s = .next t ∧ t.teams = s.teams ∧ MemKeeps s.mem t.mem ∧
        (t.core c).lines = (s.core c).lines ++ [{ team := k, q := b, n := n, dirty := false }]) ∧
  (∀ (s : State) (c k j sl : Nat) (p q : Pass), (s.core c).passes = [] → (s.core c).ended = [p] → p.team = k →
    p.groups = [[j]] → s.passReady c p = true → (s.team k).state = .resident c sl → s.resident c = [k] →
    (s.team k).isPawn j = false → (s.team k).sel = some q → ((s.team k).thread j).loc = .pass →
      ∃ t, exec (.successorEvaluation c) s = .next t ∧ (t.core c).ended = [] ∧ t.mem = s.mem ∧
        let x := (s.team k).thread j
        let y := (t.team k).thread j
        (∀ a, nextOf (s.team k) j p = some a → spoiltFor (s.team k) j p = none →
          (a.toNat % 4 = 0 → y.loc = .waits a ∧ y.trapPc = (if x.irrev = true ∧ x.handler = false then a else x.trapPc) ∧
            (p.w1.extractLsb' 0 3 = 2 → y.v64 62 = hdrFall p.hdr p.w0) ∧ (p.w1.extractLsb' 0 3 ≠ 2 → y.v = x.v)) ∧
          (a.toNat % 4 ≠ 0 → Handled s k j →
            y.handler = true ∧ y.trapCause = 0x05 ∧ y.info0 = a ∧ y.info1 = 0 ∧ y.trapPc = p.hdr ∧ y.loc = .waits (s.team k).trapVec)) ∧
        (p.w1.extractLsb' 0 3 = 7 → Handled s k j → Trapped s t k j 0x01 (p.w1.zeroExtend 64) p.hdr) ∧
        (∀ n, spoiltFor (s.team k) j p = some n → Handled s k j → Trapped s t k j 0x0C (BitVec.ofNat 64 (n + 2 ^ 16 * j)) p.hdr) ∧
        (p.w1.extractLsb' 0 3 = 5 → y.loc = .exited)) ∧
  (∀ (s : State) (c k n : Nat), (s.team k).onCore = some c → (∀ p ∈ (s.core c).passes, p.team ≠ k) → s.ageLeft c k = some n →
    ∃ t, exec (.entryAgeTick c k) s = .next t ∧ t.mem = s.mem ∧ (t.core c).cc = (s.core c).cc + n ∧
      let mine := fun (l : List Entry) => l.filter (fun e => e.team == k)
      let older := fun (e : Entry) => { e with age := min 256 (e.age + (e.idle + n) / 256), idle := (e.idle + n) % 256 }
      mine (t.core c).table = (mine (s.core c).table).map older ∧ mine (t.team k).spill = (mine (s.team k).spill).map older) ∧
  ∀ (s : State) (c k pa pbmt : Nat) (va : DWord) (acc : Access) (e : TlbEntry) (m : Memory),
    (s.core c).tlb = [] → (s.die (coreDie c)).tlb = [] →
    walk s.memEnd (s.walkReach (coreDie c)) (s.team k).space s.mem va acc = { tr := .ok pa pbmt, entry := some e, mem := m, refusedBy := none } →
      ∃ t, exec (.pageWalkComplete c k va acc) s = .next t ∧ t.mem = m ∧ (t.die (coreDie c)).tlb = [e] ∧ t.teams = s.teams

/-! ### The engines -/

namespace Sys2Proof.Claims

/-- The exact total of an INT8 element that its word, its promotion entry and its carry-tile word hold together (R225). -/
def totalOf (x : Promoter) (a row col : Nat) (e : Word) : Word :=
  let c : BitVec 4 := match x.promo.find? (fun q => q.acc == a && q.row == row && q.col == col) with
    | some q => q.carry
    | none => 0
  let w : Word := match x.carry with
    | some h => Tab.get 0 h.data (row * 512 + col)
    | none => 0
  (e.extractLsb' 0 28).signExtend 32 + (((e.extractLsb' 28 4).zeroExtend 32 + c.signExtend 32 + w) <<< 28)

/-- No element has two promotion entries (R224). -/
def OneEach (x : Promoter) : Prop :=
  x.promo.Pairwise (fun p q => ¬(p.acc = q.acc ∧ p.row = q.row ∧ p.col = q.col))

/-- Barrier object n of team k is in its own barrier file, open, and no thread waits on it. -/
def OpenObject (s : State) (k n : Nat) : Prop :=
  (s.team (s.barrierOwner k n)).clean = false ∧ (s.team (s.barrierOwner k n)).state ≠ .away ∧ (s.barrier k n).state = 1 ∧
    ∀ e ∈ s.teams, ∀ y ∈ e.2.threads, ∀ ph sc r, y.2.loc ≠ .held (.barrier n ph sc) r

/-- The object after an arrival (R351): one beyond EXPECT is discarded. -/
def Arrived (b : Barrier) : Barrier := if b.arrived = b.expect then b else Completed { b with arrived := b.arrived + 1 }

/-- The object of a completion word: bits 3:0. -/
def objOf (cw : DWord) : Nat := cw.toNat % 16

/-! #### What a pass computes -/

/-- Words of a slice by mode, 0 INT8, 1 T8, 2 T6 and 3 BF16 (R202): of weights, of metadata, of scales and of a stream row. -/
def weightWords (b : Nat) : Nat := [64, 64, 96, 128].getD (b % 4) 0
def metaWords (b : Nat) : Nat := [16, 16, 30, 16].getD (b % 4) 0
def scaleWords (b : Nat) : Nat := [0, 2, 3, 0].getD (b % 4) 0 * (if natBit b 2 then 2 else 1)
def streamWords (b : Nat) : Nat := weightWords b * (if natBit b 2 then 2 else 1)

/-- Slice `slice` of q words of a tile's row (R202). -/
def sliceOf (h : Handle) (row slice q : Nat) : List Word :=
  (List.range q).map (fun i => Tab.get 0 h.data (row * h.cols + slice * q + i))

/-- Element n of packed words (R94, R99, R100). -/
def elemAt (b : Nat) (ws : List Word) (n : Nat) : Nat :=
  match b % 4 with
  | 2 => natBits (ws.getD (n / 5) 0).toNat (6 * (n % 5)) 6
  | 3 => natBits (ws.getD (n / 2) 0).toNat (16 * (n % 2)) 16
  | _ => natBits (ws.getD (n / 4) 0).toNat (8 * (n % 4)) 8

/-- The elements of block j of a stream row that meet weights, with them (R201, R202): all of them, or in sparse mode two of each group
of four, at the positions that the group's nibble gives. -/
def metPairs (b : Nat) (xs ws md : List Word) (j : Nat) : List (Nat × Nat) :=
  let len := if b % 4 = 2 then 40 else 32
  if natBit b 2 = false then (List.range len).map (fun k => (elemAt b xs (len * j + k), elemAt b ws (len * j + k)))
  else (List.range (len / 4)).flatMap (fun k =>
    let g := len / 4 * j + k
    let nib := natBits (md.getD (g / 8) 0).toNat (4 * (g % 8)) 4
    [(elemAt b xs (4 * g + nib % 4), elemAt b ws (2 * g)), (elemAt b xs (4 * g + nib / 4), elemAt b ws (2 * g + 1))])

/-- Blocks of a slice (R201), and the scale byte of a block, 0x78 where there are none (R104). -/
def blocksOf (b : Nat) : Nat := [8, 8, 12, 8].getD (b % 4) 0 * (if natBit b 2 then 2 else 1)
def scaleByte (b : Nat) (ss : List Word) (j : Nat) : Nat :=
  if natBit b 3 then natBits (ss.getD (j / 4) 0).toNat (8 * (j % 4)) 8 else 0x78

/-- An element after the blocks of a floating pass in ascending K (R104, R219), with the exceptions of its steps. -/
def passElem (b : Nat) (r : BitVec 2) (xs sa : List Word) (p : PlaneCol) (e : Word) : Nat × BitVec 5 :=
  (List.range (blocksOf b)).foldl (fun (a : Nat × BitVec 5) j =>
    let ps := metPairs b xs p.w p.m j
    let o := if b % 4 = 3 then bf16Step r a.1 (ps.map Prod.fst) (ps.map Prod.snd)
      else (if b % 4 = 1 then Tap.t8 else Tap.t6).blockStep r a.1 (ps.map Prod.fst) (ps.map Prod.snd) (scaleByte b sa j) (scaleByte b p.s j)
    (o.1, a.2 ||| o.2)) (e.toNat, 0)

/-- What an INT8 pass adds to an element (R101, R219). -/
def passSum (b : Nat) (xs : List Word) (p : PlaneCol) : Int :=
  ((List.range (blocksOf b)).map (fun j =>
    ((metPairs b xs p.w p.m j).map (fun c => (BitVec.ofNat 8 c.1).toInt * (BitVec.ofNat 8 c.2).toInt)).sum)).sum

/-- An operand tile of the scratchpad, without poison. -/
def Sound (t : Team) (n : Nat) (h : Handle) : Prop := t.handle? n = some h ∧ h.level ≠ .gwin ∧ h.bad = []

/-- The plane that an MSTRM streams through (R200, R215): the active one, which holds its team's current weights, or with SWAP the
shadow one, which holds the pending weights that it is paired with; of its format. -/
def Streams (s : State) (cl : Nat) (r : MatReq) (d : List Byte) (p : Plane) : Prop :=
  let m := (s.cluster cl).matrix
  p.team = r.team ∧ p.fmt = BitVec.ofNat 8 (fieldAt d 0x10 1) ∧ p.cols.length ≤ 512 ∧
    (∀ c ∈ p.cols, c.w.length = weightWords (fieldAt d 0x10 1)) ∧
    ((r.swaps = false ∧ m.active = some p ∧ ∃ w, (s.team r.team).curW = some w ∧ w.seq = p.seq ∧
        BitVec.ofNat 8 (fieldAt w.bytes 0 1) = p.fmt) ∨
      (r.swaps = true ∧ m.shadow = some p ∧ ∃ w, (s.team r.team).pending r = some w ∧ w.seq = p.seq))

/-- A request that waits at the head of a free engine, its rows to come, with the accumulator tiles sound. -/
def AtGrant (s : State) (cl i : Nat) (r : MatReq) (d : List Byte) (fn : Nat) : Prop :=
  (s.cluster cl).matrix.table = [(i, r)] ∧ r.fn = fn ∧ r.state = .waiting ∧ r.desc = some d ∧ r.err = none ∧ r.row = 0 ∧
    (s.cluster cl).matrix.accBad = [] ∧ Tab.sortedFrom 0 (s.cluster cl).matrix.acc = true

/-- Scales only in the modes that have them (R217). -/
def ScalesOk (d : List Byte) : Prop := natBit (fieldAt d 0x10 1) 3 = true → fieldAt d 0x10 1 % 4 = 1 ∨ fieldAt d 0x10 1 % 4 = 2

/-- Element (row, col) of accumulator tile a. -/
def elemOf (m : Matrix) (a row col : Nat) : Word := Tab.get 0 m.acc ((a * 128 + row) * 512 + col)

/-- A drained element (R220): the total or the FP32 element t times MUL, in the destination's format: FP32 0, BF16 1, T8 2, T6 3, INT32 4,
which takes t as it is. -/
def Drains (f : Nat) (r : BitVec 2) (int : Bool) (t mul : Word) (res : Nat × BitVec 5) : Prop :=
  let nan := int = false ∧ NanCode fmt32 t.toNat ∨ NanCode fmt32 mul.toNat
  let loud := int = false ∧ NanCode fmt32 t.toNat ∧ t.getLsbD 22 = false ∨ NanCode fmt32 mul.toNat ∧ mul.getLsbD 22 = false
  let inf := int = false ∧ InfCode fmt32 t.toNat ∨ InfCode fmt32 mul.toNat
  let zero := (if int then t = 0 else t.toNat % 2 ^ 31 = 0) ∨ mul.toNat % 2 ^ 31 = 0
  let sg := xor (if int then decide (t.toInt < 0) else signOf fmt32 t.toNat) (signOf fmt32 mul.toNat)
  let x : Rat := (if int then (t.toInt.natAbs : Rat) else magOf fmt32 (t.toNat % 2 ^ 31)) * magOf fmt32 (mul.toNat % 2 ^ 31)
  (f = 4 → res = (t.toNat, 0)) ∧
  (∀ g, (f = 0 ∧ g = fmt32 ∨ f = 1 ∧ g = fmtB16) →
    (nan → ((loud → res = (g.nan, flagNV)) ∧ (¬loud → res = (g.nan, 0)))) ∧
    (¬nan → inf → zero → res = (g.nan, flagNV)) ∧ (¬nan → inf → ¬zero → res = (g.signed sg g.inf, 0)) ∧
    (¬nan → ¬inf → zero → res = (g.signed sg 0, 0)) ∧
    (¬nan → ¬inf → ¬zero → ∃ (m : Nat) (e : Int), m ≠ 0 ∧ dyad m e = x ∧ Rounds g r sg m e res)) ∧
  ∀ k, (f = 2 ∧ k = .t8 ∨ f = 3 ∧ k = .t6) →
    (nan ∨ inf → res = (if k = .t8 then 0x80 else 0x20, flagNV)) ∧ (¬nan → ¬inf → RoundsTap k sg x res)

/-- Elements of a destination format in a word, and word j of a row of n elements (R94, R99, R220): positions past the last hold zero. -/
def perWordOf (f : Nat) : Nat := [1, 2, 4, 5, 1].getD f 1
def packedWord (f : Nat) (val : Nat → Nat) (n j : Nat) : Word :=
  let k := perWordOf f
  BitVec.ofNat 32 (((List.range k).map (fun q => (if k * j + q < n then val (k * j + q) else 0) * 2 ^ ([32, 16, 8, 6, 32].getD f 0 * q))).sum)

/-! #### What a chunk moves -/

/-- A copy alone in its cluster's table, in a state whose teams are listed once, at the start of a chunk that it has not begun. -/
def AtChunk (s : State) (cl i : Nat) (r : CopyCmd) (d : List Byte) : Prop :=
  (s.cluster cl).copy.table = [(i, r)] ∧ r.desc = some d ∧ r.err = none ∧ r.buf = [] ∧ r.off % 512 = 0 ∧ r.off < copyLen d ∧
    copyLen d % 4 = 0 ∧ Tab.sortedFrom 0 s.teams = true

/-- Where the chunk ends, and its words (R237). -/
def chunkStop (r : CopyCmd) (d : List Byte) : Nat := min (copyLen d) (r.off + 512)
def chunkWords (r : CopyCmd) (d : List Byte) : Nat := (chunkStop r d - r.off) / 4

/-- A place of a word: in memory, or word w of tile n of team j's scratchpad. -/
inductive Place where
  | mem (pa : Nat)
  | tile (j n w : Nat)
  deriving DecidableEq, Repr

/-- A tile's word, and the word at a place. -/
def tileAt (s : State) (j n w : Nat) : Option Word := ((s.team j).handle? n).map (fun h => Tab.get 0 h.data w)
def wordAt (s : State) : Place → Option Word
  | .mem pa => some (BitVec.ofNat 32 (s.mem.readNat pa 4))
  | .tile j n w => tileAt s j n w

/-- No two of the bytes are the same. -/
def Place.apart : Place → Place → Prop
  | .mem a, .mem b => a + 4 ≤ b ∨ b + 4 ≤ a
  | p, q => p ≠ q

/-- Word w of tile n of team j: in its scratchpad, or while the team is off its core in its save area (R241). -/
def placeOf (s : State) (j n w : Nat) : Place :=
  if (s.team j).state = .away then .mem ((s.team j).saveAddr n + 4 * w) else .tile j n w

/-- The handle record of a ring operand whose team is off its core, into whose image its slots' states go. -/
def InRecord (s : State) (k : Nat) (op : List Byte) (b : Nat) : Prop :=
  opKind op = 2 ∧ ∃ j, s.operandTeam k op = some j ∧ (s.team j).state = .away ∧
    (s.team j).handleAddr (opHandle op) ≤ b ∧ b < (s.team j).handleAddr (opHandle op) + 32

/-- A word of memory beside those records. -/
def Spared (s : State) (k : Nat) (d : List Byte) : Place → Prop
  | .mem pa => ∀ b, pa ≤ b → b < pa + 4 → ¬InRecord s k (srcOp d) b ∧ ¬InRecord s k (dstOp d) b
  | .tile _ _ _ => True

/-- The die's TLB has the translation of an address. -/
def Served (s : State) (cl k : Nat) (va : DWord) (acc : Access) (pa : Nat) : Prop :=
  canonical va = true ∧ ∃ e b, (s.die (clusterDie cl)).tlb.find? (fun t => t.serves (s.team k).space va acc) = some e ∧
    e.gives s.memEnd va = .ok pa b

/-- The slot of a ring that a copy offset stands in (R239): the one that the command holds or else the next, and so on in turn. -/
def ringHead (h : Handle) (cons : Bool) : Nat := if cons then h.chead else h.phead
def slotOf (h : Handle) (cons : Bool) (held : Option Nat) (off o : Nat) : Nat :=
  (held.getD (ringHead h cons) + (o / h.slotBytes - off / h.slotBytes)) % h.rows

/-- A ring has the slots that a chunk needs beside the one that the command holds (R239): of a source FILLED, of a destination FREE. -/
def RingAt (h : Handle) (cons : Bool) (held : Option Nat) (off stop : Nat) : Prop :=
  0 < h.slotBytes ∧ ringHead h cons < h.rows ∧ (stop - 1) / h.slotBytes - off / h.slotBytes < h.rows ∧
    (match held with
      | none => off % h.slotBytes = 0
      | some i => off % h.slotBytes ≠ 0 ∧ i < h.rows ∧ ringHead h cons = (i + 1) % h.rows) ∧
    ∀ o, off ≤ o → o < stop → (held = none ∨ o / h.slotBytes ≠ off / h.slotBytes) →
      h.slot (slotOf h cons held off o) = if cons then .filled else .free

/-- What the chunk leaves of the ring (R239): each slot whose last byte is moved FREE or FILLED, the last one held if bytes of it are
still to come, the others as they were. -/
def RingGoes (h h' : Handle) (cons : Bool) (held held' : Option Nat) (off stop : Nat) : Prop :=
  let last := slotOf h cons held off (stop - 1)
  (∀ o, off ≤ o → o < stop → (o / h.slotBytes + 1) * h.slotBytes ≤ stop →
    h'.slot (slotOf h cons held off o) = if cons then .free else .filled) ∧
  (stop % h.slotBytes ≠ 0 → (held = none ∨ (stop - 1) / h.slotBytes ≠ off / h.slotBytes) →
    h'.slot last = if cons then .taken else .reserved) ∧
  (∀ q, (∀ o, off ≤ o → o < stop → slotOf h cons held off o ≠ q) → h'.slot q = h.slot q) ∧
  ringHead h' cons = (last + 1) % h.rows ∧ ringHead h' (!cons) = ringHead h (!cons) ∧
  held' = if stop % h.slotBytes = 0 then none else some last

/-- Where the word at copy offset o of an operand lies (R235, R239, R241). -/
def Lies (s : State) (cl : Nat) (r : CopyCmd) (d op : List Byte) (cons : Bool) (held : Option Nat) (o : Nat) (p : Place) : Prop :=
  Spared s r.team d p ∧
  (opKind op = 0 → ∃ pa, p = .mem pa ∧ Served s cl r.team (BitVec.ofNat 64 (opAddr op + o)) (if cons then .read else .write) pa) ∧
  (opKind op ≠ 0 → ∃ j h, s.operandTeam r.team op = some j ∧ (s.team j).handle? (opHandle op) = some h ∧
    Tab.sortedFrom 0 (s.team j).h = true ∧ (opKind op = 2 → RingAt h cons held r.off (chunkStop r d)) ∧
    p = placeOf s j (opHandle op) (if opKind op = 2 then
        (slotOf h cons held r.off o * h.slotBytes + o % h.slotBytes) / 4
      else (opAddr op + o) / 4))

/-- The word at a place is poisoned (R84, R163). -/
def Spoilt (s : State) : Place → Prop
  | .mem pa => s.mem.poisoned pa 4 = true
  | .tile j n w => ∃ h, (s.team j).handle? n = some h ∧ w ∈ h.bad

/-- The first words of the chunk as a source operand gives them: none of them poisoned. -/
def Sources (s : State) (cl : Nat) (r : CopyCmd) (d : List Byte) (n : Nat) (src : Nat → Word) : Prop :=
  ∀ q, q < n → ∃ p, Lies s cl r d (srcOp d) true r.srcSlot (r.off + 4 * q) p ∧ ¬Spoilt s p ∧ wordAt s p = some (src q)

/-- The operands do not name one ring (R239), and no VDEV logs the pages that are written (R328). -/
def Calm (s : State) (r : CopyCmd) (d : List Byte) : Prop :=
  Quiet s ∧ s.mem.wf = true ∧ (∀ v, (s.vdev v).dirty.getLsbD 0 = false) ∧
    ¬(opKind (srcOp d) = 2 ∧ opKind (dstOp d) = 2 ∧ s.operandTeam r.team (srcOp d) = s.operandTeam r.team (dstOp d) ∧
      opHandle (srcOp d) = opHandle (dstOp d))

/-- Team j is the receiver of bit b of a CPYM's mask (R240), and the conditions under which it receives. -/
def Receives (s : State) (k : Nat) (d : List Byte) (b j : Nat) : Prop :=
  b < 64 ∧ natBit (fieldAt d 0x30 8) b = true ∧
    ∃ T, (j, T) ∈ s.teams ∧ T.grid = (s.team k).grid ∧ T.teamId.toNat = fieldAt d 0x38 4 + b
def Takes (s : State) (d : List Byte) (j : Nat) : Prop :=
  (s.team j).state ≠ .retired ∧ ∃ h, (s.team j).handle? (opHandle (dstOp d)) = some h ∧ h.level = .scr ∧
    opAddr (dstOp d) + copyLen d ≤ h.count * h.esize

/-- A team into whose object a copy counts its bytes (R243): the poster, or of a CPYM every receiver that its chunks reach. -/
def Counted (s : State) (r : CopyCmd) (d : List Byte) (dropped : List Nat) (j : Nat) : Prop :=
  (r.fn ≠ 9 → j = r.team) ∧ (r.fn = 9 → ∃ b, Receives s r.team d b j ∧ b ∉ dropped)

/-- The objects of those teams are open and not one (R205), so that what is counted in each shows. -/
def CountedApart (s : State) (r : CopyCmd) (d : List Byte) : Prop :=
  (∀ j, Counted s r d [] j → OpenObject s j (objOf r.cword)) ∧
    ∀ i j, Counted s r d [] i → Counted s r d [] j → s.barrierOwner i (objOf r.cword) = s.barrierOwner j (objOf r.cword) → i = j

/-- An object from which n bytes are subtracted (R351). -/
def Less (b : Barrier) (n : Nat) : Barrier := Completed { b with pend := b.pend - BitVec.ofNat 64 n }

/-- Bytes are counted by chunks, or with REL at the end (R243). -/
def ByChunk (r : CopyCmd) (d : List Byte) : Prop := r.cword.getLsbD 5 = true ∧ natBit (fieldAt d 1 1) 4 = false
def AtEnd (r : CopyCmd) (d : List Byte) : Prop := r.cword.getLsbD 5 = true ∧ natBit (fieldAt d 1 1) 4 = true

/-- What is left of the teams: their tiles and barrier objects apart, they are as they were, and of the objects only those that the
bytes are counted into have changed. -/
def ChunkFrame (s t : State) (r : CopyCmd) (d : List Byte) (dropped : List Nat) : Prop :=
  (∀ k, { t.team k with h := (s.team k).h, b := (s.team k).b } = s.team k) ∧
  (∀ o, (ByChunk r d → ∀ j, Counted s r d dropped j → s.barrierOwner j (objOf r.cword) ≠ o) → (t.team o).b = (s.team o).b) ∧
  (ByChunk r d → ∀ j, Counted s r d dropped j → objectOf t (s.barrierOwner j (objOf r.cword)) (objOf r.cword) =
    Less (s.barrier j (objOf r.cword)) (chunkStop r d - r.off))

/-- A ring operand after a chunk. -/
def RingDone (s t : State) (r : CopyCmd) (d op : List Byte) (cons : Bool) (held held' : Option Nat) : Prop :=
  (opKind op ≠ 2 → held' = none) ∧
  ∀ j h, opKind op = 2 → s.operandTeam r.team op = some j → (s.team j).handle? (opHandle op) = some h →
    ∃ h', (t.team j).handle? (opHandle op) = some h' ∧ RingGoes h h' cons held held' r.off (chunkStop r d)

end Sys2Proof.Claims

/-- R204, R223 to R225: block sums added to an INT8 element keep its exact total modulo 2^32 through every escape into the
promotion buffer and every spill into the carry tile; a spill keeps the totals of the tile's other elements, whose entries it folds,
and leaves the entries of the other tiles alone; and no element has two entries. -/
def Obligations.PromotionKeepsTheExactTotal : Prop :=
  ∀ (x x' : Promoter) (a row col : Nat) (pm : Bool) (e e' : Word) (ys : List Int),
    col < 512 → (∀ q ∈ x.promo, q.col < 512) → (∀ y ∈ ys, -(2 ^ 27) ≤ y ∧ y ≤ 2 ^ 27) →
    x.int8 a row col pm e ys = .ok (e', x') →
      totalOf x' a row col e' = totalOf x a row col e + BitVec.ofInt 32 ys.sum ∧
      (OneEach x → OneEach x' ∧ (∀ q ∈ x'.promo, q.col < 512) ∧
        (∀ b, b ≠ a → x'.promo.filter (fun q => q.acc == b) = x.promo.filter (fun q => q.acc == b)) ∧
        ∀ (r n : Nat) (v : Word), n < 512 → (r, n) ≠ (row, col) → totalOf x' a r n v = totalOf x a r n v)

/-- R207, R208, R213, R215, R217 to R221, R226, R229, R231: the matrix engine accepts a post and grants it. A clearing sets its rows to
zero. MLDS fills the shadow plane with the slices of its columns' weights, metadata and scales. MSTRM streams its rows through the
active plane, after its swap where it makes one: the floating modes apply the blocks of R104, INT8 adds R101's sums to the exact
totals. MDRN drains elements or totals, times MUL, into the destination's format and clears the rows where it is to. The engine
completes a request with its arrival and exceptions, suspends one at a fault, discards another team's pending plane after its wait,
and ramps. -/
def Obligations.MatrixEngineSteps : Prop :=
  (∀ (s s1 : State) (cl c k fn sd : Nat) (re : Bool) (g : GangWait) (d : List Byte),
    (s.cluster cl).matrix.posting = [] → (s.cluster cl).matrix.table = [] →
    s.clusterPost cl true = some (c, k, fn, re, sd, g) → (s.core c).atq = [] → g.a.toNat % 64 = 0 → s.readDescriptor c k g.a false = (.ok d, s1) →
    natBit (fieldAt d 1 1) 3 = false → s.matCheck k fn d g.b = none → ¬(fn = 0x11 ∧ natBit (fieldAt d 0x11 1) 0 = true) →
      ∃ t r, exec (.matrixRequestAccept cl) s = .next t ∧ (t.cluster cl).matrix.table = [(0, r)] ∧ r.team = k ∧ r.fn = fn ∧
        r.addr = g.a ∧ r.cword = g.b ∧ r.desc = some d ∧ r.state = .waiting ∧ r.seq = (s.team k).seq ∧
        r.frm = (s.team k).frm ∧ (t.team k).seq = (s.team k).seq + 1 ∧ (re = true → Replies s t k g.gang sd 0)) ∧
  (∀ (s : State) (cl i : Nat) (r : MatReq) (d : List Byte), (s.cluster cl).matrix.table = [(i, r)] → r.fn = 0x13 →
    r.state = .waiting → r.desc = some d → r.err = none → r.row = 0 → natBit (fieldAt d 0x14 1) 7 = false →
    fieldAt d 0x11 1 + fieldAt d 0x12 2 ≤ 128 → Tab.sortedFrom 0 (s.cluster cl).matrix.acc = true →
      let a := fieldAt d 0x10 1 % 8
      let r0 := fieldAt d 0x11 1
      let n := fieldAt d 0x12 2
      ∃ t r', exec (.matrixGrant cl) s = .next t ∧ (t.cluster cl).matrix.table = [(i, r')] ∧ r'.state = .granted ∧ r'.row = n ∧
        t.mem = s.mem ∧
        ((s.cluster cl).matrix.idleSince + 2000 * Config.unitsPerNs < s.part.wall → (t.cluster cl).matrix.ramp = 1) ∧
        ∀ b row col, col < 512 → row < 128 → Tab.get 0 (t.cluster cl).matrix.acc ((b * 128 + row) * 512 + col) =
          (if b = a ∧ r0 ≤ row ∧ row < r0 + n then 0
            else Tab.get 0 (s.cluster cl).matrix.acc ((b * 128 + row) * 512 + col))) ∧
  (∀ (s : State) (cl i : Nat) (r : MatReq) (d : List Byte) (w md sc : Handle), AtGrant s cl i r d 0x10 →
    (s.cluster cl).matrix.shadow = none → ScalesOk d →
    let b := fieldAt d 0x10 1
    let row0 := fieldAt d 0x18 4
    let k := fieldAt d 0x1C 4
    Sound (s.team r.team) (fieldAt d 0x11 1) w → (natBit b 2 = true → Sound (s.team r.team) (fieldAt d 0x12 1) md) →
    (natBit b 3 = true → Sound (s.team r.team) (fieldAt d 0x13 1) sc) →
      ∃ t p r', exec (.matrixGrant cl) s = .next t ∧ (t.cluster cl).matrix.table = [(i, r')] ∧ r'.state = .granted ∧ r'.row = 1 ∧
        r'.err = none ∧ (t.cluster cl).matrix.shadow = some p ∧ (t.cluster cl).matrix.active = (s.cluster cl).matrix.active ∧
        (t.cluster cl).matrix.acc = (s.cluster cl).matrix.acc ∧ t.mem = s.mem ∧ t.teams = s.teams ∧
        p.team = r.team ∧ p.seq = r.seq ∧ p.fmt = BitVec.ofNat 8 b ∧
        p.cols = (List.range (fieldAt d 0x14 2)).map (fun n =>
          { w := sliceOf w (row0 + n) k (weightWords b)
            m := if natBit b 2 then sliceOf md (row0 + n) k (metaWords b) else []
            s := if natBit b 3 then sliceOf sc (row0 + n) k (scaleWords b) else [] })) ∧
  (∀ (s : State) (cl i : Nat) (r : MatReq) (d : List Byte) (p : Plane) (h sc : Handle), AtGrant s cl i r d 0x11 → Streams s cl r d p →
    ScalesOk d →
    let b := fieldAt d 0x10 1
    let a := fieldAt d 0x15 1 % 8
    let r0 := fieldAt d 0x16 1
    let n := fieldAt d 0x18 2
    let stream := fun (i : Nat) => sliceOf h (fieldAt d 0x1C 4 + i) (fieldAt d 0x20 4) (streamWords b)
    let scales := fun (i : Nat) => sliceOf sc (fieldAt d 0x1C 4 + i) (fieldAt d 0x20 4) (scaleWords b)
    let old := (s.cluster cl).matrix
    Sound (s.team r.team) (fieldAt d 0x12 1) h → (natBit b 3 = true → Sound (s.team r.team) (fieldAt d 0x13 1) sc) → r0 + n ≤ 128 →
      ∃ t r', exec (.matrixGrant cl) s = .next t ∧ (t.cluster cl).matrix.table = [(i, r')] ∧ r'.state = .granted ∧ t.mem = s.mem ∧
        (t.cluster cl).matrix.active = some p ∧ (r.swaps = true → (t.cluster cl).matrix.shadow = none) ∧
        let new := (t.cluster cl).matrix
        (b % 4 ≠ 0 → r'.row = n ∧ r'.err = none ∧ new.promo = old.promo ∧
          (∀ c row col, row < 128 → col < 512 → elemOf new c row col =
            (if c = a ∧ r0 ≤ row ∧ row < r0 + n ∧ col < p.cols.length then
              BitVec.ofNat 32 (passElem b r.frm (stream (row - r0)) (scales (row - r0)) (p.cols.getD col { w := [], m := [], s := [] })
                (elemOf old a row col)).1
            else elemOf old c row col)) ∧
          ∀ f, f < 5 → (r'.flags.getLsbD f = true ↔ r.flags.getLsbD f = true ∨ ∃ row col, r0 ≤ row ∧ row < r0 + n ∧ col < p.cols.length ∧
            (passElem b r.frm (stream (row - r0)) (scales (row - r0)) (p.cols.getD col { w := [], m := [], s := [] })
              (elemOf old a row col)).2.getLsbD f = true)) ∧
        (b % 4 = 0 → natBit b 3 = false → ∀ ch : Option Handle,
          ch = (if natBit (fieldAt d 0x14 1) 7 then (s.team r.team).handle? (fieldAt d 0x14 1 % 32) else none) →
          (natBit (fieldAt d 0x14 1) 7 = true → fieldAt d 0x14 1 % 32 ≠ fieldAt d 0x12 1) →
          OneEach { promo := old.promo, carry := ch } → (∀ q ∈ old.promo, q.col < 512) →
          (natBit (fieldAt d 0x11 1) 1 = false → (∃ c, ch = some c ∧ c.bad = []) → r'.err = none) ∧
          (r'.err = none → r'.row = n ∧ r'.flags = r.flags ∧
            let ch' := if natBit (fieldAt d 0x14 1) 7 then (t.team r.team).handle? (fieldAt d 0x14 1 % 32) else none
            ∀ row col, row < 128 → col < 512 →
              totalOf { promo := new.promo, carry := ch' } a row col (elemOf new a row col) =
                totalOf { promo := old.promo, carry := ch } a row col (elemOf old a row col) +
                  (if r0 ≤ row ∧ row < r0 + n ∧ col < p.cols.length then
                    BitVec.ofInt 32 (passSum b (stream (row - r0)) (p.cols.getD col { w := [], m := [], s := [] }))
                  else 0)) ∧
          ∀ c row col, c ≠ a → row < 128 → col < 512 → elemOf new c row col = elemOf old c row col)) ∧
  (∀ (s : State) (cl i : Nat) (r : MatReq) (d : List Byte) (h : Handle) (ch : Option Handle), AtGrant s cl i r d 0x12 →
    let f := fieldAt d 0x10 1 % 8
    let int := natBit (fieldAt d 0x10 1) 3
    let clr := natBit (fieldAt d 0x10 1) 4
    let a := fieldAt d 0x13 1 % 8
    let r0 := fieldAt d 0x14 1
    let n := fieldAt d 0x16 2
    let nc := fieldAt d 0x18 2
    let cv := natBit (fieldAt d 0x12 1) 7
    let words := (nc + perWordOf f - 1) / perWordOf f
    let at_ := fun (i j : Nat) => (fieldAt d 0x20 4 + i) * h.cols + j
    let old := (s.cluster cl).matrix
    f < 5 → (int = false → f ≠ 4) → r0 + n ≤ 128 → nc ≤ 512 →
    (s.team r.team).handle? (fieldAt d 0x11 1) = some h → h.level ≠ .gwin →
    ch = (if cv then (s.team r.team).handle? (fieldAt d 0x12 1 % 32) else none) → (∀ c, ch = some c → c.bad = []) →
    (cv = true → fieldAt d 0x12 1 % 32 ≠ fieldAt d 0x11 1) →
      ∃ (t : State) (r' : MatReq) (h' : Handle) (val : Nat → Nat → Nat × BitVec 5), exec (.matrixGrant cl) s = .next t ∧ (t.cluster cl).matrix.table = [(i, r')] ∧ r'.state = .granted ∧
        r'.row = n ∧ r'.err = none ∧ t.mem = s.mem ∧ (t.team r.team).handle? (fieldAt d 0x11 1) = some h' ∧
        (∀ i c, i < n → c < nc → Drains f r.frm int
          (if int then totalOf { promo := old.promo, carry := ch } a (r0 + i) c (elemOf old a (r0 + i) c) else elemOf old a (r0 + i) c)
          (BitVec.ofNat 32 (fieldAt d 0x1C 4)) (val i c)) ∧
        (∀ i j, i < n → j < words → (∀ i' j', i < i' → i' < n → j' < words → at_ i' j' ≠ at_ i j) →
          Tab.get 0 h'.data (at_ i j) = packedWord f (fun c => (val i c).1) nc j) ∧
        (∀ w, (∀ i j, i < n → j < words → at_ i j ≠ w) → Tab.get 0 h'.data w = Tab.get 0 h.data w) ∧
        (∀ b, b < 5 → (r'.flags.getLsbD b = true ↔
          r.flags.getLsbD b = true ∨ ∃ i c, i < n ∧ c < nc ∧ (val i c).2.getLsbD b = true)) ∧
        (∀ c row col, row < 128 → col < 512 → elemOf (t.cluster cl).matrix c row col =
          (if clr = true ∧ c = a ∧ r0 ≤ row ∧ row < r0 + n then 0 else elemOf old c row col)) ∧
        (t.cluster cl).matrix.promo =
          old.promo.filter (fun q => !(clr && q.acc == a && decide (r0 ≤ q.row) && decide (q.row < r0 + n))) ∧
        ∀ c, ch = some c → ∃ c', (t.team r.team).handle? (fieldAt d 0x12 1 % 32) = some c' ∧
          ∀ w, Tab.get 0 c'.data w = (if clr = true ∧ r0 * 512 ≤ w ∧ w < (r0 + n) * 512 then 0 else Tab.get 0 c.data w)) ∧
  (∀ (s : State) (cl i : Nat) (r : MatReq) (d : List Byte), (s.cluster cl).matrix.table = [(i, r)] → r.fn = 0x13 →
    r.state = .granted → r.desc = some d → r.err = none → r.row = fieldAt d 0x12 2 → r.cword.getLsbD 5 = false →
    OpenObject s r.team (objOf r.cword) →
      let o := s.barrierOwner r.team (objOf r.cword)
      let b := s.barrier r.team (objOf r.cword)
      ∃ t, exec (.matrixRequestComplete cl i) s = .next t ∧ (t.cluster cl).matrix.table = [] ∧
        (t.team r.team).fflags = (s.team r.team).fflags ||| r.flags ∧
        objectOf t o (objOf r.cword) = (if r.cword.getLsbD 4 = true then Arrived b else b)) ∧
  (∀ (s s1 : State) (cl i cause : Nat) (r r1 : MatReq) (va : DWord) (acc : Access), s.grantedReq cl i = some r →
    s.runReq cl i r = (some (va, acc, cause), s1) → s1.grantedReq cl i = some r1 → (s1.die (clusterDie cl)).faults = [] →
      ∃ t r2 e, exec (.matrixOperandFault cl i) s = .next t ∧ (t.cluster cl).matrix.table.find? i = some r2 ∧
        r2.state = .suspended ∧ r2.row = r1.row ∧ r2.fault = some (clusterDie cl, 0) ∧
        (t.die (clusterDie cl)).faults = [(0, e)] ∧ e.page = pageOf va ∧ e.waiters = [.matrix cl i] ∧
        e.kind = kindOf acc true) ∧
  (∀ (s : State) (cl i : Nat) (r : MatReq) (p : Plane), (i, r) ∈ (s.cluster cl).matrix.table → s.ready cl r = true →
    s.needsShadow cl r = true → (s.cluster cl).matrix.shadow = some p → p.team ≠ r.team →
      ∃ t, exec (.shadowPlaneTimeout cl) s = .next t ∧ (t.cluster cl).matrix.shadow = none ∧
        (t.cluster cl).matrix.active = (s.cluster cl).matrix.active ∧ t.mem = s.mem) ∧
  ∀ (s : State) (cl : Nat),
    let m := (s.cluster cl).matrix
    (m.ramp = 0 → exec (.engineRampTick cl) s = .next s) ∧
    (m.ramp ≠ 0 → ∃ t, exec (.engineRampTick cl) s = .next t ∧ t.mem = s.mem ∧ t.teams = s.teams ∧
      s.wallOf (m.rampAt + 128 * m.ramp) ≤ t.part.wall ∧ (t.cluster cl).matrix.ramp = if m.ramp = 1 then 2 else 0)

/-- R233, R236, R237, R239 to R243, R245, R246, R371, R372: the copy engine accepts a post and grants it a channel. A chunk's words go
from the source operand to the destination, be they of global memory, of a tile or a ring, a peer's too, and in the save area of
a team off its core: of CPY, of CPYZ, which writes zeros and sets zero map and flags, and of CPYM, to each receiver that fits; its
bytes are counted. It waits for a ring slot; a poisoned word stops it before it has written any. A fault suspends it; it completes
with its bytes under REL and its arrival, or in its error phase. The digest path takes a command and writes its digest. Addresses
are translated through the die's TLB, which a walk fills (PageWalks); overlapping operands may hold either value (R238), and the
order in which a chunk's slots go on is assumption 32's. -/
def Obligations.CopyAndDigestSteps : Prop :=
  (∀ (s s1 : State) (cl c k fn sd : Nat) (re : Bool) (g : GangWait) (d : List Byte), (s.cluster cl).copy.table = [] →
    s.clusterPost cl false = some (c, k, fn, re, sd, g) → (s.core c).atq = [] → g.a.toNat % 64 = 0 → s.readDescriptor c k g.a false = (.ok d, s1) →
    natBit (fieldAt d 1 1) 3 = false →
    (if fn = 0x30 then s.dgstCheck k d g.b else s.copyCheck k fn d g.b) = none →
      ∃ t r, exec (.copyCommandAccept cl) s = .next t ∧ (t.cluster cl).copy.table = [(0, r)] ∧ r.team = k ∧ r.fn = fn ∧
        r.addr = g.a ∧ r.cword = g.b ∧ r.desc = some d ∧ r.state = .waiting ∧ r.off = 0 ∧
        (re = true → Replies s t k g.gang sd 0)) ∧
  (∀ (s : State) (cl i : Nat) (r : CopyCmd), (s.cluster cl).copy.table = [(i, r)] → r.desc.isSome = true → r.state = .waiting →
    ∃ t, exec (.copyChannelGrant cl) s = .next t ∧ (t.cluster cl).copy.table = [(i, { r with state := .running, fault := none })] ∧
      t.mem = s.mem ∧ t.teams = s.teams) ∧
  (∀ (s : State) (cl i : Nat) (r : CopyCmd) (d : List Byte) (h h' : Handle), (s.cluster cl).copy.table = [(i, r)] →
    r.state = .running → r.desc = some d → r.err = none → r.fn = 0x08 → r.off = 0 → r.cword.getLsbD 5 = false →
    opKind (srcOp d) = 1 → opKind (dstOp d) = 1 → fieldAt (srcOp d) 0xA 1 = 0 → fieldAt (dstOp d) 0xA 1 = 0 →
    (s.team r.team).state ≠ .away → r.buf = [] →
    (s.team r.team).handle? (opHandle (srcOp d)) = some h → (s.team r.team).handle? (opHandle (dstOp d)) = some h' →
    opHandle (srcOp d) ≠ opHandle (dstOp d) → h.bad = [] → opAddr (srcOp d) % 4 = 0 → opAddr (dstOp d) % 4 = 0 →
    copyLen d % 4 = 0 → copyLen d ≤ 512 → 0 < copyLen d →
      ∃ t h2 r2, exec (.copyChunkWritten cl i) s = .next t ∧ t.mem = s.mem ∧
        (t.team r.team).handle? (opHandle (dstOp d)) = some h2 ∧ (t.cluster cl).copy.table = [(i, r2)] ∧ r2.off = copyLen d ∧
        ∀ w, Tab.get 0 h2.data w =
          if opAddr (dstOp d) / 4 ≤ w ∧ w < opAddr (dstOp d) / 4 + copyLen d / 4 then
            Tab.get 0 h.data (w - opAddr (dstOp d) / 4 + opAddr (srcOp d) / 4)
          else Tab.get 0 h'.data w) ∧
  (∀ (s : State) (cl i : Nat) (r : CopyCmd) (d : List Byte) (src : Nat → Word) (dst : Nat → Place), AtChunk s cl i r d →
    r.state = .running → (r.fn = 8 ∨ r.fn = 0xA) → Calm s r d → (ByChunk r d → CountedApart s r d) →
    (r.fn = 8 → Sources s cl r d (chunkWords r d) src) →
    (∀ q, q < chunkWords r d → Lies s cl r d (dstOp d) false r.dstSlot (r.off + 4 * q) (dst q)) →
    (∀ q q', q < q' → q' < chunkWords r d → (dst q).apart (dst q')) →
      ∃ (t : State) (src' dst' : Option Nat), exec (.copyChunkWritten cl i) s = .next t ∧
        (t.cluster cl).copy.table = [(i, { r with off := chunkStop r d, srcSlot := src', dstSlot := dst' })] ∧
        (∀ q, q < chunkWords r d → wordAt t (dst q) = some (if r.fn = 8 then src q else 0)) ∧
        (∀ j n w, (s.team j).state ≠ .away → (∀ q, q < chunkWords r d → dst q ≠ .tile j n w) → tileAt t j n w = tileAt s j n w) ∧
        (∀ b, ¬InRecord s r.team (srcOp d) b → ¬InRecord s r.team (dstOp d) b →
          (∀ q pa, q < chunkWords r d → dst q = .mem pa → b < pa ∨ pa + 4 ≤ b) →
          t.mem.get b = s.mem.get b ∨
            (r.fn = 0xA ∧ opKind (dstOp d) = 0 ∧ t.mem.get b = 0 ∧ ∃ q pa, q < chunkWords r d ∧ dst q = .mem pa ∧ pa / 256 = b / 256)) ∧
        (r.fn = 0xA → opKind (dstOp d) = 0 → ∀ q pa, q < chunkWords r d → dst q = .mem pa →
          let e := opAddr (dstOp d) + r.off + 4 * q + 4
          (e % 256 = 0 → opAddr (dstOp d) + 256 ≤ e → pa / 256 ∉ t.mem.zclr) ∧
          (e % 128 = 0 → opAddr (dstOp d) + 128 ≤ e → pa / 128 ∈ t.mem.zline)) ∧
        (r.fn = 8 → RingDone s t r d (srcOp d) true r.srcSlot src') ∧ RingDone s t r d (dstOp d) false r.dstSlot dst' ∧
        ChunkFrame s t r d []) ∧
  (∀ (s : State) (cl i : Nat) (r : CopyCmd) (d : List Byte) (src : Nat → Word), AtChunk s cl i r d →
    r.state = .running → r.fn = 9 → opKind (dstOp d) = 1 → Calm s r d → (ByChunk r d → CountedApart s r d) →
    Sources s cl r d (chunkWords r d) src →
    let w0 := (opAddr (dstOp d) + r.off) / 4
    let at_ := fun (j q : Nat) => placeOf s j (opHandle (dstOp d)) (w0 + q)
    (∀ b j, Receives s r.team d b j → Tab.sortedFrom 0 (s.team j).h = true ∧ ∀ q, q < chunkWords r d → Spared s r.team d (at_ j q)) →
    (∀ b j q b' j' q', Receives s r.team d b j → Receives s r.team d b' j' → q < chunkWords r d → q' < chunkWords r d →
      ¬(j = j' ∧ q = q') → (at_ j q).apart (at_ j' q')) →
      ∃ (t : State) (r2 : CopyCmd), exec (.copyChunkWritten cl i) s = .next t ∧ (t.cluster cl).copy.table = [(i, r2)] ∧
        { r2 with off := r.off, srcSlot := r.srcSlot, dropped := r.dropped } = r ∧ r2.off = chunkStop r d ∧
        (∀ b, b < 64 → (b ∈ r2.dropped ↔ (r.off = 0 ∧ natBit (fieldAt d 0x30 8) b = true ∧ ∀ j, Receives s r.team d b j → ¬Takes s d j) ∨
          (r.off ≠ 0 ∧ b ∈ r.dropped))) ∧
        (∀ b j h q, Receives s r.team d b j → b ∉ r2.dropped → (s.team j).handle? (opHandle (dstOp d)) = some h →
          q < chunkWords r d → wordAt t (at_ j q) = some (src q)) ∧
        (∀ j n w, (s.team j).state ≠ .away →
          (∀ b q, Receives s r.team d b j → b ∉ r2.dropped → q < chunkWords r d → at_ j q ≠ .tile j n w) →
          tileAt t j n w = tileAt s j n w) ∧
        (∀ a, ¬InRecord s r.team (srcOp d) a → (∀ b j q pa, Receives s r.team d b j → b ∉ r2.dropped → q < chunkWords r d →
          at_ j q = .mem pa → a < pa ∨ pa + 4 ≤ a) → t.mem.get a = s.mem.get a) ∧
        RingDone s t r d (srcOp d) true r.srcSlot r2.srcSlot ∧ ChunkFrame s t r d r2.dropped) ∧
  (∀ (s : State) (cl i q : Nat) (r : CopyCmd) (d : List Byte) (src : Nat → Word) (p : Place), AtChunk s cl i r d → r.state = .running →
    (r.fn = 8 ∨ r.fn = 9) → Calm s r d → q < chunkWords r d → Sources s cl r d q src →
    Lies s cl r d (srcOp d) true r.srcSlot (r.off + 4 * q) p → Spoilt s p →
      ∃ (t : State) (r2 : CopyCmd), exec (.copyChunkWritten cl i) s = .next t ∧ (t.cluster cl).copy.table = [(i, r2)] ∧
        r2.err = some errPoison ∧ r2.off = r.off ∧ (∀ j n w, tileAt t j n w = tileAt s j n w) ∧
        (∀ b, ¬InRecord s r.team (srcOp d) b → t.mem.get b = s.mem.get b)) ∧
  (∀ (s : State) (cl i j : Nat) (r : CopyCmd) (d : List Byte) (h : Handle), AtChunk s cl i r d → (r.fn = 8 ∨ r.fn = 9) →
    opKind (srcOp d) = 2 → r.srcSlot = none → s.operandTeam r.team (srcOp d) = some j →
    (s.team j).handle? (opHandle (srcOp d)) = some h →
      (r.state = .running → h.slot h.chead ≠ .filled → ∃ t, exec (.copyChunkWritten cl i) s = .next t ∧
        (t.cluster cl).copy.table = [(i, { r with state := .ring })] ∧ t.mem = s.mem ∧ t.teams = s.teams) ∧
      (r.state = .ring → h.slot h.chead = .filled → ∃ t, exec (.copyChannelGrant cl) s = .next t ∧
        (t.cluster cl).copy.table = [(i, { r with state := .running, fault := none })] ∧ t.mem = s.mem ∧ t.teams = s.teams)) ∧
  (∀ (s : State) (cl i j : Nat) (r : CopyCmd) (d : List Byte) (h : Handle) (src : Nat → Word), AtChunk s cl i r d →
    r.state = .running → (r.fn = 8 ∨ r.fn = 0xA) → (r.fn = 8 → Sources s cl r d (chunkWords r d) src) → Calm s r d →
    opKind (dstOp d) = 2 → r.dstSlot = none → s.operandTeam r.team (dstOp d) = some j →
    (s.team j).handle? (opHandle (dstOp d)) = some h → h.slot h.phead ≠ .free →
      ∃ (t : State) (r2 : CopyCmd), exec (.copyChunkWritten cl i) s = .next t ∧ (t.cluster cl).copy.table = [(i, r2)] ∧
        r2.state = .ring ∧ r2.off = r.off ∧ (∀ j n w, tileAt t j n w = tileAt s j n w) ∧
        (∀ b, ¬InRecord s r.team (srcOp d) b → t.mem.get b = s.mem.get b)) ∧
  (∀ (s s1 : State) (cl i cause : Nat) (r r1 : CopyCmd) (va : DWord) (acc : Access), s.runningCmd cl i = some r →
    s.runChunk cl i r = (some (va, acc, cause), s1) → s1.runningCmd cl i = some r1 → (s1.die (clusterDie cl)).faults = [] →
      ∃ t r2 e, exec (.copyChunkFault cl i) s = .next t ∧ (t.cluster cl).copy.table.find? i = some r2 ∧
        r2.state = .suspended ∧ r2.off = r1.off ∧ r2.fault = some (clusterDie cl, 0) ∧
        (t.die (clusterDie cl)).faults = [(0, e)] ∧ e.page = pageOf va ∧ e.waiters = [.copy cl i] ∧ e.kind = kindOf acc true) ∧
  (∀ (s : State) (cl i : Nat) (r : CopyCmd) (d : List Byte), (s.cluster cl).copy.table = [(i, r)] → r.state = .running →
    r.desc = some d → r.err = none → r.fn ≠ 0x30 → copyLen d ≤ r.off → r.dropped = [] → Tab.sortedFrom 0 s.teams = true →
    OpenObject s r.team (objOf r.cword) → (AtEnd r d → CountedApart s r d) →
      let n := objOf r.cword
      let arrive := fun (b : Barrier) => if r.cword.getLsbD 4 = true then Arrived b else b
      ∃ t, exec (.copyCommandComplete cl i) s = .next t ∧ (t.cluster cl).copy.table = [] ∧ t.mem = s.mem ∧
        ∀ k, k = r.team ∨ (AtEnd r d ∧ Counted s r d [] k) →
          let o := s.barrierOwner k n
          let c := Less (s.barrier k n) (copyLen d)
          (AtEnd r d → (∃ j, Counted s r d [] j ∧ s.barrierOwner j n = o) →
            objectOf t o n = if o = s.barrierOwner r.team n then arrive c else c) ∧
          (¬(AtEnd r d ∧ ∃ j, Counted s r d [] j ∧ s.barrierOwner j n = o) → objectOf t o n = arrive (s.barrier k n))) ∧
  (∀ (s : State) (cl i : Nat) (r : CopyCmd) (d : List Byte) (c : BitVec 8), (s.cluster cl).copy.table = [(i, r)] → r.state = .running →
    r.desc = some d → r.fn ≠ 0x30 → (r.err = some c ∨ (r.err = none ∧ copyLen d ≤ r.off ∧ r.dropped ≠ [] ∧ c = errHandle)) →
    Tab.sortedFrom 0 s.teams = true → OpenObject s r.team (objOf r.cword) →
    (r.fn = 9 → ∀ b j, Receives s r.team d b j → OpenObject s j (objOf r.cword)) →
    (r.srcSlot = none ∨ r.dstSlot = none ∨ s.operandTeam r.team (srcOp d) ≠ s.operandTeam r.team (dstOp d) ∨
      opHandle (srcOp d) ≠ opHandle (dstOp d)) →
      ∃ t, exec (.copyCommandComplete cl i) s = .next t ∧ (t.cluster cl).copy.table = [] ∧
        (∀ k, k = r.team ∨ (r.fn = 9 ∧ ∃ b, Receives s r.team d b k) →
          objectOf t (s.barrierOwner k (objOf r.cword)) (objOf r.cword) = { s.barrier k (objOf r.cword) with err := c, state := 2 }) ∧
        ∀ (j q : Nat) (h : Handle), (r.srcSlot = some q → s.operandTeam r.team (srcOp d) = some j →
            (s.team j).handle? (opHandle (srcOp d)) = some h →
            ∃ h', (t.team j).handle? (opHandle (srcOp d)) = some h' ∧ h'.slot q = .free) ∧
          (r.dstSlot = some q → s.operandTeam r.team (dstOp d) = some j → (s.team j).handle? (opHandle (dstOp d)) = some h →
            ∃ h', (t.team j).handle? (opHandle (dstOp d)) = some h' ∧ h'.slot q = .filled)) ∧
  (∀ (s s1 : State) (cl i pa : Nat) (r : CopyCmd) (d : List Byte), (s.cluster cl).copy.table = [(i, r)] →
    (∀ n, n ≠ cl → (s.cluster n).copy.table = []) → r.fn = 0x30 → r.state = .running → r.desc = some d →
    cl ∈ dieClusters (clusterDie cl) → (s.die (clusterDie cl)).dgst = none →
    s.engineAddr (clusterDie cl) r.team (BitVec.ofNat 64 (fieldAt d 0x18 8)) .write = (.ok pa, s1) →
      ∃ t, exec (.dgstPathGrant (clusterDie cl)) s = .next t ∧ (t.die (clusterDie cl)).dgst = some (cl, i) ∧ t.mem = s1.mem) ∧
  ∀ (s s1 : State) (cl i pa : Nat) (r : CopyCmd) (d : List Byte), (s.cluster cl).copy.table = [(i, r)] → r.fn = 0x30 →
    r.state = .running → r.desc = some d → (s.die (clusterDie cl)).dgst = some (cl, i) →
    s.mem.poisoned (fieldAt d 0x10 8) (fieldAt d 8 8) = false →
    s.engineAddr (clusterDie cl) r.team (BitVec.ofNat 64 (fieldAt d 0x18 8)) .write = (.ok pa, s1) → Quiet s → s1.mem.wf = true →
    (s.team r.team).vmid = 0 → r.cword.getLsbD 4 = false → r.cword.getLsbD 5 = false →
      ∃ t, exec (.dgstComplete (clusterDie cl)) s = .next t ∧ (t.cluster cl).copy.table = [] ∧
        (t.die (clusterDie cl)).dgst = none ∧
        t.mem.read pa 64 = sha512 (s1.mem.read (fieldAt d 0x10 8) (fieldAt d 8 8))

/-! ### Calls, faults resolved, launches and retirement -/

namespace Sys2Proof.Claims

/-- No store, atomic, arrival or signature of the core is on its way. -/
def NoAccesses (s : State) (c : Nat) : Prop :=
  (s.core c).stq = [] ∧ (s.core c).atq = [] ∧ (s.core c).arrivals = [] ∧ (s.core c).sigs = []

/-- A ring has room for a record, and none waits before it (R174, R308). -/
def RoomIn (r : Ring) : Prop :=
  r.pending = [] ∧ 2 ≤ r.log2n ∧ r.log2n ≤ 20 ∧ (r.tail - r.head).toNat ≠ 2 ^ r.log2n

/-- Where record number n of a ring lies (R308). -/
def recordAt (r : Ring) (size n : Nat) : Nat := r.base.toNat + size * (n % 2 ^ r.log2n)

/-- The team is the only one of its league, and the tables that hold the teams are in order. -/
def Alone (s : State) (k : Nat) : Prop := s.league k = [k] ∧ Tab.sortedFrom 0 s.teams = true

/-- The team waits in no pass, its instruction has issued to every group, and nothing of its core or of the engines is under
way. -/
def Resting (s : State) (c k : Nat) : Prop :=
  s.betweenIssues k = true ∧ (∀ p ∈ (s.core c).passes, p.team = k → p.wait = none) ∧ NoAccesses s c ∧
    NoCommands s

/-- A slot of a core with a bind record that is being presented. -/
def Presented (s : State) (c : Nat) (r : List Byte) : Prop :=
  ∃ n y, (s.core c).slots.find? n = some y ∧ y.state = 1 ∧ y.refuse = 0 ∧ y.record = r

end Sys2Proof.Claims

/-- R298, R299, R175: a complete gather makes one call, whose record the service queue receives; SCDONE gives the result to the
held thread, which goes on; FQDONE returns a parked thread to its entry, or traps PAGE_FAULT in it. -/
def Obligations.CallsAndFaultsAreResolved : Prop :=
  (∀ (s : State) (k c sl sup sa : Nat) (r : Resume), (s.team k).state = .resident c sl → (s.team k).gatherComplete = true →
    (s.team k).gathered.find? (fun j => !(s.team k).isPawn j) = some sup →
    ((s.team k).thread sup).loc = .held (.gather sa) r → NoAccesses s c → Tab.sortedFrom 0 (s.team k).threads = true →
    (∀ n, n < 6 → n ∉ ((s.team k).thread sup).bad) → (s.team k).spoison ((s.team k).gangOf sup) sa = false →
    (s.die (coreDie c)).calls.length < 256 → RoomIn (s.die (coreDie c)).sq → s.mem.wf = true →
      let d := coreDie c
      let i := (s.die d).calls.freeKey 0
      let q := (s.die d).sq
      let a := recordAt q 64 q.tail.toNat
      ∃ t, exec (.syscallGatherComplete k) s = .next t ∧ (t.team k).call = some (d, some i) ∧
        (t.die d).calls.find? i = some { team := k } ∧ (t.die d).sq = { q with tail := q.tail + 1 } ∧
        (∀ j ∈ (s.team k).gathered, ∃ n r, ((t.team k).thread j).loc = .held (.call n) r) ∧
        t.part.irqs = (if q.ie = true then s.part.irqs ++ [.service d] else s.part.irqs) ∧
        t.mem.readNat a 8 = (s.team k).ctxid.toNat ∧
        t.mem.readNat (a + 8) 8 = ((s.team k).sget ((s.team k).gangOf sup) sa).toNat ∧
        (∀ n, n < 6 → t.mem.readNat (a + 0x10 + 4 * n) 4 = (((s.team k).thread sup).vget n).toNat) ∧
        t.mem.readNat (a + 0x28) 4 = (s.team k).teamId.toNat ∧ t.mem.readNat (a + 0x2C) 2 = (s.team k).asid % 65536 ∧
        t.mem.readNat (a + 0x2E) 2 = (s.team k).vmid % 65536 ∧ t.mem.readNat (a + 0x30) 1 = i ∧
        t.mem.readNat (a + 0x32) 2 = sup % 65536) ∧
  (∀ (s : State) (d k c sl j n : Nat) (v next : DWord) (r : Resume), (s.team k).state = .resident c sl →
    (s.die d).calls.find? (v.toNat % 256) = some { team := k } → (s.team k).call = some (d, some (v.toNat % 256)) →
    (s.die d).callWait = [] → Tab.sortedFrom 0 (s.die d).calls = true → Tab.sortedFrom 0 (s.team k).threads = true →
    ((s.team k).thread j).loc = .held (.call n) r → r.next = some next → ((s.team k).thread j).handler = false →
    (∀ e ∈ (s.team k).threads, e.1 ≠ j → e.2.loc = .exited) →
      ∃ t, exec (.scdone d v) s = .next t ∧ (t.team k).call = none ∧ (t.die d).calls.find? (v.toNat % 256) = none ∧
        ((t.team k).thread j).vget 0 = hi32 v ∧ ((t.team k).thread j).loc = .waits next ∧
        ((t.team k).thread j).trapPc = next ∧ (t.core c).l1 = []) ∧
  ∀ (s : State) (d i k j c sl : Nat) (e : FaultEntry), (s.die d).faults.find? i = some e → e.waiters = [.thread k j] →
    Tab.sortedFrom 0 (s.die d).faults = true → (∀ x ∈ s.dies, x.2.noEntry = []) → (s.team k).state = .resident c sl →
    ((s.team k).thread j).loc = .parked →
      let y := (s.team k).thread j
      (∃ t, exec (.fqdoneRetry d i) s = .next t ∧ (t.die d).faults.find? i = none ∧
        (t.team k).thread j = { y with loc := .waits y.trapPc } ∧ t.mem = s.mem) ∧
      ((s.team k).isPawn j = false → y.handler = false → (s.team k).trapVec ≠ 0 →
        ∃ t, exec (.fqdoneDeliver d i) s = .next t ∧ (t.die d).faults.find? i = none ∧
          Trapped s t k j 0x06 y.info0 y.trapPc ∧ ((t.team k).thread j).info1 = y.info1)

/-- R256, R268, R269, R273, R274, R277: a bound queue's oldest entry takes a launch-table entry; a launch's counter is read until
it reaches its target; a league is bound, its record presented, and its team started or refused; and a benched co-dependent
league is bound again. A started team finds its core's L1 empty (assumption 12). -/
def Obligations.DispatchSteps : Prop :=
  (∀ (s : State) (n : Nat),
    let q := s.queue n
    let a := (upto 0 8).map (fun j => BitVec.ofNat 64 (s.mem.readNat (q.bind.toNat + 8 * j) 8))
    s.halted = false → q.en = true → q.bound = true → q.spawn = none → q.count ≠ 0 → n < 64 * s.nsl → spawnOk a = true →
    q.bind.toNat + 64 ≤ s.memEnd → s.mem.poisoned q.bind.toNat 64 = false → (s.slice (n / 64)).launches.length < 64 →
    geomCodep (argAt a 3) = false →
      ∃ t l x, exec (.queueSpawn n) s = .next t ∧ (t.queue n).spawn = some l ∧ t.launch? (n / 64) l = some x ∧ x.a = a ∧
        x.asid = q.asid ∧ x.vmid = q.vmid ∧ x.qspawn = some (n, s.oldestWords n) ∧ x.bound = 0 ∧ x.retired = 0 ∧ t.mem = s.mem) ∧
  (∀ (s s1 : State) (i l pa nc : Nat) (x : Launch), s.launch? i l = some x → x.depMet = false →
    s.dependWaits i l = false → canonical (argAt x.a 6) = true →
    s.translateDie (s.dieOf i) x.space (argAt x.a 6) .read = (.ok pa nc, s1) → s1.mem.poisoned pa 8 = false →
      ∃ t, exec (.dependencePoll i l) s = .next t ∧ MemKeeps s1.mem t.mem ∧
        t.launch? i l = some { x with depMet := decide ((argAt x.a 7).toNat ≤ s1.mem.readNat pa 8) }) ∧
  (∀ (s s1 : State) (i l cl q d img ts : Nat) (x : Launch), s.halted = false →
    s.clusterNums.contains cl = true → s.presenting cl = false → s.launchFrozen i l = false → s.refusedSlots i l cl = [] →
    s.nextLaunch i = some (l, x, .fresh q) → s.placeIn x (.fresh q) cl = some d → geomLeague x.geom = 1 →
    s.leagueMemory x (.fresh q) = some ([(img, ts)], s1) → (∀ e, x.qspawn = some e → e.2.length = 8) →
      ∃ t r, exec (.dispatchBind i l cl) s = .next t ∧ t.launch? i l = some (if q ∈ x.withdrawn then { x with withdrawn := x.withdrawn.filter (· ≠ q) }
          else { x with bound := x.bound + 1 }) ∧
        t.nextCtx = s.nextCtx + 1 ∧ Presented t (4 * cl + d) r ∧ r.length = 192 ∧ fieldAt r 0 8 = s.nextCtx % 2 ^ 64 ∧
        fieldAt r 8 8 = img % 2 ^ 64 ∧ fieldAt r 0x10 8 = ts % 2 ^ 64 ∧ fieldAt r 0x18 2 = poolTsUnits x.pool ∧
        natBit (fieldAt r 0x1A 1) 0 = true ∧ fieldAt r 0x1B 1 = geomPrio x.geom ∧ fieldAt r 0x1C 2 = (l + 64 * i) % 2 ^ 16 ∧
        (∀ n, n < 6 → fieldAt r (0x20 + 8 * n) 8 = (argAt x.a n).toNat) ∧ fieldAt r 0x50 4 = q % 2 ^ 32 ∧
        fieldAt r 0x54 4 = q % 2 ^ 32 ∧ fieldAt r 0x58 1 = 0) ∧
  (∀ (s : State) (c sl : Nat) (y : Slot) (x : Launch), s.halted = false → (s.core c).slots.find? sl = some y → y.state = 1 →
    natBit (fieldAt y.record 0x1A 1) 0 = true →
    s.launch? (fieldAt y.record 0x1C 2 / 64) (fieldAt y.record 0x1C 2 % 64) = some x →
      let n := s.refusal c y.record (teamOfRecord y.record x c sl)
      let ka := BitVec.ofNat 64 (fieldAt y.record 0x20 8)
      (n ≠ 0 → (∀ e ∈ s.mates c sl y.record, s.recordHeld e.2.2 = false) → s.recordHeld y.record = false → ∃ t, exec (.slotctlPresent c sl) s = .next t ∧ t.teams = s.teams ∧ t.mem = s.mem ∧
        (t.core c).slots.find? sl = some { y with state := 4, refuse := n }) ∧
      (n = 0 → s.mates c sl y.record = [] → s.recordHeld y.record = false → x.qspawn = none → ∃ t k, exec (.slotctlPresent c sl) s = .next t ∧
        (t.core c).slots.find? sl = some { y with state := 2, team := some k } ∧ (t.core c).l1 = [] ∧
        let u := t.team k
        u.state = .resident c sl ∧ u.ctxid.toNat = fieldAt y.record 0 8 ∧ u.kaddr = ka ∧ u.asid = x.asid ∧ u.vmid = x.vmid ∧
          u.fflags = 0 ∧ u.btimeout = 0x1000000 ∧ u.lm = [] ∧ u.k = [] ∧ u.b = [] ∧ u.h = [] ∧
          (∀ j, j < u.slotCount → u.thread j = { Thread.empty with loc := .waits ka }) ∧
          (natBit (fieldAt y.record 0x1A 1) 3 = false → ∀ g, g * u.w < u.t →
            u.sget g 1 = BitVec.ofNat 64 (fieldAt y.record 0x28 8) ∧ u.sget g 2 = BitVec.ofNat 64 (fieldAt y.record 0x30 8)))) ∧
  ∀ (s : State) (i l cl k d : Nat) (x x' : Launch), s.launch? i l = some x → geomCodep x.geom = true → s.halted = false → s.presenting cl = false →
    (s.awayOf x).filter (fun j => !(s.team j).onHold && !(s.team j).vfrozen) = [k] → (s.team k).leagueSize = 1 →
    (let s1 := s.updTeam k (fun t => { t with bindable := true })
     s1.nextLaunch i = some (l, x', .away [k]) ∧ s1.placeIn x' (.away [k]) cl = some d) →
      ∃ t r, exec (.codepRebindTick i l cl) s = .next t ∧ Presented t (4 * cl + d) r ∧ r.length = 192 ∧
        fieldAt r 0 8 = (s.team k).ctxid.toNat ∧ natBit (fieldAt r 0x1A 1) 0 = false ∧
        fieldAt r 8 8 = (s.team k).imgBase % 2 ^ 64 ∧ fieldAt r 0x20 64 = 0

/-- R301, R276, R51, R49, R266, R279: a team that is pre-empted leaves its core and stays bindable; one that has been held for
longer than the threshold is benched; a team that has finished adds 1 to its completion counter, counts in its launch and frees
its slot. -/
def Obligations.TeamsLeaveAndRetire : Prop :=
  (∀ (s : State) (k c sl : Nat), (s.team k).state = .resident c sl → Alone s k → Resting s c k →
    ∃ t y, exec (.preempt k) s = .next t ∧ (t.team k).state = .away ∧ (t.team k).bindable = true ∧ (t.team k).leaving = none ∧
      (t.team k).lastCore = some c ∧ (t.core c).passes.all (fun p => p.team != k) = true ∧
      (t.core c).slots.find? sl = some y ∧ y.state = 0) ∧
  (∀ (s : State) (k c sl since : Nat), (s.team k).state = .resident c sl → Alone s k → Resting s c k →
    (s.team k).idle = true → (s.team k).codep = true → (s.team k).heldSince = some since →
      ∃ t y, exec (.bench k) s = .next t ∧ (t.team k).state = .away ∧ (t.team k).leaving = none ∧
        since + 1000 * s.part.benchUs * 882 < t.part.wall ∧ (t.core c).passes.all (fun p => p.team != k) = true ∧
        (t.core c).slots.find? sl = some y ∧ y.state = 0) ∧
  ∀ (s s1 : State) (k c sl pa nc : Nat) (x : Launch), s.additionWaits k = false → s.finished k = true →
    (s.team k).state = .resident c sl → NoAccesses s c → (s.core c).nmq = [] →
    Quiet s → (s.team k).vmid = 0 → canonical (s.team k).cctr = true → Tab.sortedFrom 0 s.teams = true →
    (s.updTeam k (fun t => { t with h := [] })).translateDie (coreDie c) (s.team k).space (s.team k).cctr .atom =
      (.ok pa nc, s1) → s1.mem.poisoned pa 8 = false → s1.mem.wf = true →
    s.launch? (s.team k).slice (s.team k).launch = some x → x.seq = (s.team k).grid →
    Tab.sortedFrom 0 (s.slice (s.team k).slice).launches = true →
      ∃ t y, exec (.teamRetirement k) s = .next t ∧ t.mem.readNat pa 8 = (s1.mem.readNat pa 8 + 1) % 2 ^ 64 ∧
        (t.team k).state = .retired ∧ (t.core c).slots.find? sl = some y ∧ y.state = 0 ∧
        t.launch? (s.team k).slice (s.team k).launch =
          if x.retired + 1 = geomTeams x.geom then none else some { x with retired := x.retired + 1 }

/-! ### The partition control space -/

namespace Sys2Proof.Claims

/-- Memory and everything but the control registers of the partition and its units are as they were. -/
def OnlyRegisters (s t : State) : Prop :=
  { t with part := s.part, dies := s.dies, slices := s.slices, vdevs := s.vdevs } = s

/-- The registers of the partition that hold what is written to them (R307): CAPVA, BENCHUS, DARG and CARG. -/
def heldRegisters (p : Part) (v : DWord) : List (Nat × Part) :=
  [(0x020, { p with capVa := v &&& 0xFFFFFFFFFFFF0000#64 }),
    (0x028, if 10 ≤ v.toNat ∧ v.toNat ≤ 10000 then { p with benchUs := v.toNat } else p),
    (0x050, { p with darg := v }), (0x068, { p with carg := v })]

/-- The entries between QHEAD and QTAIL of a ring, at most its size. -/
def between (log2n head tail : Nat) : Nat := min (2 ^ log2n) ((tail + 2 ^ 32 - head) % 2 ^ 32)

/-- The registers of a disabled queue that hold what is written to them (R250): QRING, QHEAD, QTAIL, QBIND, QSATP and QHGATP. What
its ring holds then is the model's: assumption 69. -/
def queueRegisters (q : Queue) (v : DWord) : List (Nat × Queue) :=
  [(0x08, if 2 ≤ v.toNat % 32 ∧ v.toNat % 32 ≤ 26 then
      { q with ring := v &&& ~~~(0xE0#64), inRing := between (v.toNat % 32) q.head q.tail } else q),
    (0x10, { q with head := (lo32 v).toNat, inRing := between q.log2n (lo32 v).toNat q.tail }),
    (0x18, { q with tail := (lo32 v).toNat, inRing := between q.log2n q.head (lo32 v).toNat }),
    (0x28, { q with bind := v &&& ~~~(0x3F#64) }), (0x30, { q with satp := v }), (0x38, { q with hgatp := v })]

/-- DREQ names a live context, and no request is pending (R311). -/
def Names (s : State) (k : Nat) : Prop := s.part.dresp ≠ 1 ∧ s.findCtx s.part.darg = some k

/-- The team is off its core, alone in its league, and no call of it is outstanding. -/
def Away (s : State) (k : Nat) : Prop :=
  (s.team k).state = .away ∧ Alone s k ∧ (s.team k).call = none ∧ (s.team k).susp = [] ∧ NoCommands s

end Sys2Proof.Claims

/-- R308, R250, R251, R307, R309, R310: writes of the control registers: a ring's base, control and head; a queue's registers and
its disabling; the heap; a cleared error count; the registers that only hold their value. A write that a rule ignores changes
nothing. -/
def Obligations.ControlRegisterWrites : Prop :=
  (∀ (s : State) (r : RingId) (v : DWord), s.hasRing r = true →
    let x := s.ring r
    (x.head = x.tail → ∃ t, exec (.ringBaseWrite r v) s = .next t ∧ OnlyRegisters s t ∧
      t.ring r = { x with base := v &&& ~~~(0x3F#64) }) ∧
    (x.head = x.tail → x.pending = [] → 2 ≤ v.toNat % 32 → v.toNat % 32 ≤ 20 → ∃ t, exec (.ringCtlWrite r v) s = .next t ∧
      OnlyRegisters s t ∧ t.ring r = { x with log2n := v.toNat % 32, ie := v.getLsbD 7 }) ∧
    (x.head ≠ x.tail ∨ v.toNat % 32 < 2 ∨ 20 < v.toNat % 32 → exec (.ringCtlWrite r v) s = .next s) ∧
    (x.head ≠ x.tail → exec (.ringBaseWrite r v) s = .next s) ∧
    (x.pending = [] → ∃ t, exec (.ringHeadWrite r v) s = .next t ∧ OnlyRegisters s t ∧ t.ring r = { x with head := lo32 v }) ∧
    (∀ b, x.pending = [b] → RoomIn { x with head := lo32 v, pending := [] } → ∃ t, exec (.ringHeadWrite r v) s = .next t ∧
      t.ring r = { x with head := lo32 v, tail := x.tail + 1, pending := [] } ∧
      t.mem = s.mem.write (recordAt x b.length x.tail.toNat) b)) ∧
  (∀ (s : State) (n : Nat) (v : DWord), n < 64 * s.nsl →
    let q := s.queue n
    let w := { q with ctl := v &&& 0xFFFFFFFF3FF00007#64 }
    (w.share < 4 ∨ 512 < w.share → exec (.qctlWrite n v) s = .next s) ∧
    (4 ≤ w.share → w.share ≤ 512 → q.en = false → w.en = false → ∃ t, exec (.qctlWrite n v) s = .next t ∧ OnlyRegisters s t ∧
      t.queue n = w) ∧
    (4 ≤ w.share → w.share ≤ 512 → w.en = true → q.mayEnable w = false ∨ 512 < s.shareOf n + w.share →
      exec (.qctlWrite n v) s = .next s) ∧
    (4 ≤ w.share → w.share ≤ 512 → w.en = true → q.mayEnable w = true → s.shareOf n + w.share ≤ 512 → q.inRing = 0 →
      q.chip = [] → q.pushes = [] → q.pops = [] → ∃ t, exec (.qctlWrite n v) s = .next t ∧ OnlyRegisters s t ∧ t.queue n = w)) ∧
  (∀ (s : State) (n : Nat), (s.queue n).en = true → Quiet s →
    let q := s.queue n
    (q.inRing + q.chip.length ≤ 2 ^ q.log2n → ∃ t, exec (.queueDisable n) s = .next t ∧ (t.queue n).en = false ∧
      (t.queue n).chip = [] ∧ (t.queue n).inRing = q.inRing + q.chip.length ∧ (t.queue n).tail = q.tail) ∧
    (2 ^ q.log2n < q.inRing + q.chip.length → exec (.queueDisable n) s = .next s)) ∧
  (∀ (s : State) (v : DWord), v.toNat % 0x10000 = 0 → s.part.heapSize = 0 →
    (s.part.heapBase + v.toNat ≤ s.memEnd → ∃ t, exec (.heapWrite true v) s = .next t ∧ OnlyRegisters s t ∧
      t.part = { s.part with heapSize := v.toNat }) ∧
    (v.toNat ≤ s.memEnd → ∃ t, exec (.heapWrite false v) s = .next t ∧ OnlyRegisters s t ∧
      t.part = { s.part with heapBase := v.toNat })) ∧
  (∀ (s : State) (i u : Nat), ∃ t, exec (.cecountClear i u) s = .next t ∧ OnlyRegisters s t ∧
    Tab.get 0 (t.slice i).ceCount u = 0 ∧ ∀ w, w ≠ u → Tab.get 0 (t.slice i).ceCount w = Tab.get 0 (s.slice i).ceCount w) ∧
  ∀ (s : State) (v : DWord),
    (∀ e ∈ heldRegisters s.part v, ∃ t, exec (.controlRegisterWrite e.1 v) s = .next t ∧ OnlyRegisters s t ∧ t.part = e.2) ∧
    (∀ n, n < 64 * s.nsl → s.nsl ≤ 16 → (s.queue n).en = false → ∀ e ∈ queueRegisters (s.queue n) v, ∃ t,
      exec (.controlRegisterWrite (0x200000 + 0x2000 * (n / 64) + 64 * (n % 64) + e.1) v) s = .next t ∧ OnlyRegisters s t ∧
        t.queue n = e.2) ∧
    (∀ d, d < 8 → s.hasRing (.plog d) = true → ∃ t, exec (.controlRegisterWrite (0x1000A0 + 0x1000 * d) v) s = .next t ∧
      OnlyRegisters s t ∧ (t.die d).plogMask = v.extractLsb' 0 16) ∧
    ∀ n, n < 64 → ∃ t, exec (.controlRegisterWrite (0x300000 + 0x100 * n) v) s = .next t ∧ OnlyRegisters s t ∧
      t.vdev n = { s.vdev n with scopePol := v.extractLsb' 0 2 }

/-- R311, R329: DREQ preempts, kills, holds or releases the context that DARG names, with its answer in DRESP; an unknown
context and one not in the required state are refused; VFREEZE freezes a function and thaws it; a switch that has not committed
within 20 µs is rolled back: the records that wait are withdrawn, the teams off their cores are bindable again, and the guest's
request, a PREEMPT that is pending, fails with DRESP 3. The VMID of a function is assumption 28's, what counts as a switch and its
failure assumption 92's, and the rest of a request's course assumption 68's. -/
def Obligations.DriverRequests : Prop :=
  (∀ (s : State) (i : Instr), i = .dreqPreempt ∨ i = .dreqKill ∨ i = .dreqHold ∨ i = .dreqRelease →
    (s.part.dresp = 1 → exec i s = .next s) ∧
    (s.part.dresp ≠ 1 → s.findCtx s.part.darg = none → ∃ t, exec i s = .next t ∧ t.part.dresp = 2 ∧ t.teams = s.teams ∧
      t.mem = s.mem)) ∧
  (∀ (s : State) (k c sl : Nat), Names s k → (s.team k).state = .resident c sl → Alone s k → Resting s c k →
    ∃ t, exec .dreqPreempt s = .next t ∧ t.part.dresp = 0 ∧ (t.team k).state = .away ∧ (t.team k).bindable = true) ∧
  (∀ (s : State) (k : Nat), Names s k → Away s k →
    ∃ t, exec .dreqKill s = .next t ∧ t.part.dresp = 0 ∧
      ∀ j y, (s.team k).threads.find? j = some y → y.loc ≠ .vacant → ((t.team k).thread j).loc = .exited) ∧
  (∀ (s : State) (k : Nat), Names s k → Away s k → (s.team k).clean = true →
    ((s.team k).onHold = false → ∃ t, exec .dreqHold s = .next t ∧ t.part.dresp = 0 ∧ t.mem = s.mem ∧
      t.team k = { s.team k with onHold := true }) ∧
    ((s.team k).onHold = true → ∃ t, exec .dreqHold s = .next t ∧ t.part.dresp = 3 ∧ t.teams = s.teams ∧ t.mem = s.mem) ∧
    ((s.team k).onHold = true → ∃ t, exec .dreqRelease s = .next t ∧ t.part.dresp = 0 ∧ t.mem = s.mem ∧
      t.team k = { s.team k with onHold := false, bindable := true }) ∧
    ((s.team k).onHold = false → ∃ t, exec .dreqRelease s = .next t ∧ t.part.dresp = 3 ∧ t.teams = s.teams ∧ t.mem = s.mem)) ∧
  (∀ (s : State) (v : Nat), v < 64 → (s.vdev v).freeze = false → (s.vdev v).outgoing = false → s.vdevTeams v = [] →
    s.switching v = [] →
    (∀ e ∈ s.slices, ∀ q ∈ e.2.queues, q.2.vmid ≠ v + 1) →
      ∃ t, exec (.vfreezeFreeze v) s = .next t ∧ (t.vdev v).freeze = true ∧ (t.vdev v).result = 0 ∧ t.teams = s.teams ∧
        t.mem = s.mem) ∧
  (∀ (s : State) (v : Nat), v < 64 → (s.vdev v).freeze = false → (s.vdev v).outgoing = true ∨ s.switching v ≠ [] →
    ∃ t, exec (.vfreezeFreeze v) s = .next t ∧ (t.vdev v).freeze = true ∧ (t.vdev v).result = 2 ∧ t.teams = s.teams ∧
      (t.vdev v).deadline = some (s.part.wall + 20000 * 882)) ∧
  (∀ (s : State) (v : Nat), (s.vdev v).freeze = true → Tab.sortedFrom 0 s.teams = true →
    ∃ t, exec (.vfreezeThaw v) s = .next t ∧ (t.vdev v).freeze = false ∧ t.mem = s.mem ∧
      ∀ k y, s.teams.find? k = some y → y.vmid = v + 1 → y.state = .away →
        t.team k = { y with vfrozen := false, bindable := true }) ∧
  ∀ (s : State) (v d : Nat), (s.vdev v).freeze = true → (s.vdev v).result = 2 → (s.vdev v).deadline = some d →
    (∀ e ∈ s.switching v, natBit (fieldAt e.2.2 0x1A 1) 0 = false) → Tab.sortedFrom 0 s.cores = true →
    (∀ e ∈ s.cores, Tab.sortedFrom 0 e.2.slots = true) → Tab.sortedFrom 0 s.teams = true →
    (∀ e ∈ s.teams, e.2.vmid = v + 1 → e.2.isResident = false ∧ (e.2.state = .away → e.2.clean = true ∧ e.2.call = none)) →
    (∀ e ∈ s.slices, ∀ q ∈ e.2.queues, q.2.vmid ≠ v + 1) →
      let fails := (s.vdev v).outgoing = true ∧ s.part.dreq = 1 ∧ ∃ k, s.findCtx s.part.dreqCtx = some k ∧ (s.team k).vmid = v + 1
      ∃ t, exec (.freezeRollback v) s = .next t ∧ d ≤ t.part.wall ∧ t.mem = s.mem ∧
        (∀ e ∈ s.switching v, ∃ y, (t.core e.1).slots.find? e.2.1 = some y ∧ y.state = 0) ∧
        (∀ k, t.team k = if (s.team k).vmid = v + 1 ∧ (s.team k).state = .away
          then { s.team k with bindable := true, vfrozen := true } else s.team k) ∧
        (t.vdev v).freeze = true ∧ (t.vdev v).result = 1 ∧ (t.vdev v).deadline = none ∧ (t.vdev v).outgoing = false ∧
        (fails → t.part.dresp = 3) ∧ (¬fails → t.part.dresp = s.part.dresp)

/-! ### Castle, power and the ports -/

namespace Sys2Proof.Claims

/-- An entry of a TLB that an invalidation's ASID and address select (R172). -/
def selectedBy (asid : Option Nat) (va : Option DWord) (e : TlbEntry) : Bool :=
  (match asid with
    | none => true
    | some a => e.asid == a)
  && match va with
    | none => true
    | some a => (a.toNat / 4096 % 2 ^ 45) / 2 ^ e.order == e.vpn / 2 ^ e.order

/-- Nothing but stores is on its way to memory, and nothing waits for a line to be written. -/
def OnlyStores (s : State) : Prop := Quiet s ∧ ∀ c, (s.core c).atq = [] ∧ (s.core c).nmq = [] ∧
  (s.core c).arrivals = [] ∧ (s.core c).sigs = []

/-- The highest FCODE on a die when the modelled partition's is f (R342). -/
def dieCode (s : State) (d f : Nat) : Nat :=
  ((s.castle.descs.filter (fun e => e.1 ≠ s.pid ∧ e.2.state ≠ 0 ∧ ∃ x ∈ e.2.slmap, sliceDie x = d)).map
    (fun e => Tab.get 0 s.castle.codes e.1)).foldr max f

/-- A sample at a wall time has cleared the counts up to its cycle of each core, and they go on from there (R345). -/
def CountsCleared (s t : State) (b : Nat) : Prop :=
  ∀ c k, s.cores.find? c = some k →
    t.core c = { k with issued := k.issued.filter (fun n => s.sampleTo c b < n)
                        stalled := k.stalled.filter (fun r => s.sampleTo c b < r.1 + r.2), sampled := s.sampleTo c b }

/-- The greatest clock code below another that a mask allows. -/
def lowerCode (mask : BitVec 6) (f : Nat) : Option Nat := ((List.range f).reverse).find? (fun n => mask.getLsbD n)

/-- Nothing of any core is on its way to memory, and its register part is empty. -/
def CoresEmpty (s : State) : Prop :=
  ∀ c ∈ s.cores, c.2.stq = [] ∧ c.2.atq = [] ∧ c.2.nmq = [] ∧ c.2.arrivals = [] ∧ c.2.sigs = [] ∧ c.2.lines = []

/-- The partition waits on nothing but parked threads, suspended commands and launches (R315). -/
def NothingRuns (s : State) : Prop :=
  (∀ e ∈ s.teams, e.2.onCore = none) ∧
    (∀ d ∈ s.dies, d.2.calls = [] ∧ d.2.callWait = [] ∧ (∀ w ∈ d.2.noEntry, w.busy = false) ∧
      ∀ f ∈ d.2.faults, ∀ w ∈ f.2.waiters, w.busy = false) ∧
    ∀ c ∈ s.cores, ∀ y ∈ c.2.slots, y.2.state ≠ 1 ∧ y.2.state ≠ 4

/-- No request of the operating system to Castle is pending, and Castle is not locked down (R312, R333). -/
def Asks (s : State) : Prop := s.part.cresp ≠ 1 ∧ s.castle.lockdown = false

/-- The partition has from a to b slices, of one channel count, and no resize step is under way (R312, R346). -/
def Sized (s : State) (a b : Nat) : Prop :=
  Asks s ∧ s.desc.state ≠ 0 ∧ s.part.steps = [] ∧ a ≤ s.nsl ∧ s.nsl ≤ b ∧ (s.channels = 8 ∨ s.channels = 16)

/-- Slice x is free, lies in the target rectangle, and has the partition's channel count (R312, R316, R346). -/
def MayJoin (s : State) (x : Nat) : Prop :=
  s.castle.owned.contains x = false ∧ (∀ r, s.castle.target = some r → r.holds x = true) ∧
    s.castle.sameChannels (s.desc.slmap ++ [x]) = true

/-- Slice x is the last one, RELEASE_TOP has been asked for, its harts are offline and its queues disabled (R312, R316). -/
def MayGo (s : State) (x : Nat) : Prop :=
  s.desc.slmap.getLast? = some x ∧ s.part.released = true ∧
    (∀ h, h < 4 → (s.castle.unitsOf x).harts.getLsbD h = true → (s.hart (4 * (s.nsl - 1) + h)).offline = true) ∧
    ∀ q ∈ (s.slice (s.nsl - 1)).queues, q.2.en = false

/-- Only the answer of a Castle request and CREQ have changed. -/
def Answered (s t : State) (status reason : Nat) : Prop :=
  t.part.cresp = status ∧ t.part.creason = reason ∧
    { t with part := { t.part with creq := s.part.creq, cresp := s.part.cresp, creason := s.part.creason } } = s

/-- A resize step is made: CRESP is 0 unless management asked, the shape is as given, STATE is 1 exactly when the shape may run,
and every team and the memory below the capability list are as they were (R312, R315, R330). -/
def Resized (s t : State) (mgmt : Bool) (l : List Nat) : Prop :=
  t.part.cresp = (if mgmt then s.part.cresp else 0) ∧ t.part.steps = [] ∧ t.desc.slmap = l ∧
    (t.desc.state = 1 ↔ t.castle.mayRun t.desc.world l = true) ∧ t.teams = s.teams ∧
    ∀ pa, pa < s.capBase → t.mem.get pa = s.mem.get pa

/-- A resize step waits: STATE is 2, CRESP is 1 unless management asked, and the step is kept (R312, R315). -/
def Pending (s t : State) (mgmt : Bool) (r : ResizeStep) : Prop :=
  t.part.cresp = (if mgmt then s.part.cresp else 1) ∧ t.part.steps = [r] ∧ t.desc.state = 2 ∧ t.desc.slmap = s.desc.slmap ∧
    t.mem = s.mem ∧ t.teams = s.teams

/-- The shards of the manifest at an address lie in partition memory (R312). -/
def ShardsIn (s : State) (a : Nat) : Prop :=
  s.manifestIn a = true ∧ ∀ j, j < s.mem.shards a → (s.mem.shard a j).1 + (s.mem.shard a j).2.1 ≤ s.memEnd

/-- The manifest at an address is signed, and every shard is unpoisoned and has its digest (R325, R326). -/
def Verified (s : State) (a : Nat) : Prop :=
  signed (s.mem.read a (128 + 80 * s.mem.shards a)) = true ∧ s.mem.readNat a 4 = 0x4B435058 ∧
    ∀ j, j < s.mem.shards a → s.mem.poisoned (s.mem.shard a j).1 (s.mem.shard a j).2.1 = false ∧
      sha512 (s.mem.read (s.mem.shard a j).1 (s.mem.shard a j).2.1) = (s.mem.shard a j).2.2

/-- The manifest's SHAPE and CAPVER are the partition's (R325, R326). -/
def Fits (s : State) (a : Nat) : Prop :=
  s.mem.readNat (a + 8) 4 % 65536 = s.desc.width + 16 * s.desc.height + 256 * s.nsl ∧ s.mem.readNat (a + 12) 4 = s.capVer

/-- Shard j of the manifest is the image of a context that the partition does not know, and the launch table of slice 0 has room
for every shard (R326). -/
def NewImage (s : State) (a j : Nat) : Prop :=
  j < s.mem.shards a ∧ s.mem.isImage ((s.mem.shard a j).1, (s.mem.shard a j).2.1) = true ∧
    (∀ e ∈ s.teams, e.2.ctxid ≠ BitVec.ofNat 64 (s.mem.readNat (s.mem.shard a j).1 8)) ∧
    (s.slice 0).launches = [] ∧ 1 ≤ s.nsl ∧ s.mem.shards a ≤ 64

/-- Team k is off its core, bindable, and has the image at an address. -/
def Restored (s t : State) (img k : Nat) : Prop :=
  s.teams.find? k = none ∧
    let y := t.team k
    y.state = .away ∧ y.bindable = true ∧ y.clean = true ∧ y.onHold = false ∧ y.imgBase = img ∧
      y.ctxid = BitVec.ofNat 64 (s.mem.readNat img 8) ∧ y.teamId = BitVec.ofNat 32 (s.mem.readNat (img + 8) 4) ∧
      y.leagueId = BitVec.ofNat 32 (s.mem.readNat (img + 0x10) 4) ∧ y.w = s.mem.readNat (img + 0x15) 1 ∧
      y.t = s.mem.readNat (img + 0x16) 2 ∧ y.trapVec = BitVec.ofNat 64 (s.mem.readNat (img + 0x20) 8)

/-- Does a shard of the manifest hold a team's image (R326)? -/
def ImageIn (s : State) (a : Nat) (y : Team) : Prop :=
  ∃ j, j < s.mem.shards a ∧ (s.mem.shard a j).1 ≤ y.imgBase ∧
    y.imgBase + 0x140000 ≤ (s.mem.shard a j).1 + (s.mem.shard a j).2.1

/-- A packet, not to or from Castle, crosses a die link between dies of different worlds (R331). -/
def Differs (s : State) (x : DieCross) : Prop :=
  x.castle = false ∧ Tab.get 0 s.castle.worlds x.source ≠ Tab.get 0 s.castle.worlds x.die

/-- The step by which a source raises a security event (R332). -/
def Raises (s : State) (e : SecEvent) (src : ReqSrc) (i : Instr) : Prop :=
  match e with
  | .firewall => i = .firewallViolation src
  | .dieLink => ∃ x, i = .dieLink x src ∧ Differs s x
  | .ideFail => i = .ideFail src
  | .debug => i = .debugAccess src

/-- Partition p of descriptor d has been frozen and scrubbed at once (R333, R340). -/
def Scrubbed (s t : State) (p : Nat) (d : PartDesc) : Prop :=
  (∀ k, k ∈ t.castle.keys ↔ k ∈ s.castle.keys ∧ k.2.1 ≠ p) ∧
    (∃ e, t.castle.descs.find? p = some e ∧ e.slmap = d.slmap ∧ (e.state = 1 ↔ t.castle.mayRun d.world d.slmap = true)) ∧
    (p ≠ s.pid → t.teams = s.teams ∧ t.mem = s.mem ∧ t.part = s.part) ∧
    (p = s.pid → t.teams = [] ∧ (∀ pa, pa < t.capBase → t.mem.get pa = 0) ∧ t.part.frozen = none ∧ t.part.kl = Ring.empty ∧
      (∀ c, (t.cluster c).started = false))

/-- A hart that runs makes an access of n bytes, aligned, whose address is partition memory at pa: its own in M-mode, where no
die on the way refuses the packet, else by its translation, which leaves s1. -/
def Reaches (s s1 : State) (h : Nat) (va : DWord) (acc : Access) (n pa : Nat) : Prop :=
  (s.harts.find? h).isSome = true ∧ (s.hart h).jwait = none ∧ va.toNat % n = 0 ∧ pa + n ≤ s.memEnd ∧ s.memEnd ≤ Config.pcBase ∧
    ((s.hart h).priv = .m ∧ s1 = s ∧ pa = va.toNat ∧ s.refusedAt (s.dieOf (h / 4)) (s.homeDie pa) = none ∨
      s.hartTranslate h va acc = (.ok pa, s1))

/-- The widths of a hart's loads and stores, and of its atomics. -/
def HartWidth (n : Nat) : Prop := n = 1 ∨ n = 2 ∨ n = 4 ∨ n = 8
def HartAmoWidth (n : Nat) : Prop := n = 4 ∨ n = 8

/-- A reply that answers an evidence request (R336). -/
def Answers (s : State) (fn : Nat) (i : Instr) (r : Reply) : Prop :=
  (i = .getVersion fn ∧ r = .version) ∨ (i = .getCapabilities fn ∧ r = .capabilities) ∨
    (i = .negotiateAlgorithms fn ∧ r = .algorithms) ∨ (i = .getDigests fn ∧ r = .digests (sha512 (Config.certificate fn))) ∨
    (i = .getCertificate fn ∧ r = .certificate (Config.certificate fn)) ∨ (i = .challenge fn ∧ ∃ g, g.length = 64 ∧ r = .challengeAuth g) ∨
    (i = .getMeasurements fn ∧ ∃ m, r = .measurements m ∧ (∀ x ∈ m, x.value = s.measured fn x.index) ∧
      m.map Measurement.index = if fn = 0 then [1, 2, 3, 4, 5, 6] else [1, 2, 3, 4, 5, 6, 7]) ∨
    (i = .keyExchange fn ∧ ∃ g, g.length = 64 ∧ r = .keyExchange g)

/-- A hart's register rd has a value, unless it is register 0, and its other registers are as they were. -/
def Given (s t : State) (h rd : Nat) (v : DWord) : Prop :=
  ∀ m, (t.hart h).get m = if m = rd ∧ rd ≠ 0 then v else (s.hart h).get m

end Sys2Proof.Claims

/-- R312, R315, R316, R325, R326: every request of Castle completes. RELEASE_TOP is noted; RESIZE adds a free slice at index n,
whose memory reads zero, or removes the one at index n − 1, waits while a call is outstanding or another step is under way, and
a refused step changes nothing; SIGN writes the signature after the last shard record; RESTORE makes the contexts in the shards
bindable from their images, those that the partition does not know among them, or refuses and writes nothing. The signature,
CAPVER, when a step is made and which contexts a manifest restores are the model's: assumptions 33, 43, 63, 64. -/
def Obligations.CastleRequests : Prop :=
  (∀ s : State, Asks s → exec .creqReleaseTop s =
    .next (s.setPart { s.part with creq := 1, released := true, cresp := 0, creason := 0 })) ∧
  (∀ (s : State) (i : Instr) (a : DWord), i = .creqReleaseTop ∨ i = .creqSign ∨ i = .creqRestore ∨ i = .creqResizeAdd a false ∨
    i = .creqResizeRemove a false → s.part.cresp = 1 ∨ s.castle.lockdown = true → exec i s = .next s) ∧
  (∀ (s : State) (a : DWord), Sized s 0 16 → s.castle.owned.contains (a.toNat % 16) = true →
    (∃ t, exec (.creqResizeAdd a false) s = .next t ∧ Answered s t 2 1) ∧ exec (.creqResizeAdd a true) s = .next s) ∧
  (∀ (s : State) (a : DWord) (m : Bool), Sized s 1 15 → MayJoin s (a.toNat % 16) → NothingRuns s → CoresEmpty s →
    s.mem.wf = true → ∃ t, exec (.creqResizeAdd a m) s = .next t ∧ Resized s t m (s.desc.slmap ++ [a.toNat % 16]) ∧
      (t.slice s.nsl).number = a.toNat % 16 ∧
      (∀ j, j < 4 → (s.castle.unitsOf (a.toNat % 16)).clusters.getLsbD j = true →
        (t.cluster (4 * (a.toNat % 16) + j)).started = false) ∧
      t.part.released = false ∧ ∀ pa, s.memEnd ≤ pa → t.mem.get pa = 0) ∧
  (∀ (s : State) (a : DWord), Sized s 0 16 → s.nsl ≤ 1 ∨ ¬ MayGo s (a.toNat % 16) →
    (∃ t, exec (.creqResizeRemove a false) s = .next t ∧ Answered s t 2 1) ∧ exec (.creqResizeRemove a true) s = .next s) ∧
  (∀ (s : State) (a : DWord) (m : Bool), Sized s 2 16 → MayGo s (a.toNat % 16) → (s.slice (s.nsl - 1)).launches = [] →
    NothingRuns s → CoresEmpty s → s.mem.wf = true →
      ∃ t, exec (.creqResizeRemove a m) s = .next t ∧ Resized s t m s.desc.slmap.dropLast ∧ t.part.released = false ∧
        ∀ pa, (s.nsl - 1) * s.sliceBytes ≤ pa → t.mem.get pa = 0) ∧
  (∀ (s : State) (a : DWord) (m : Bool), Sized s 1 16 → (∀ e ∈ s.teams, e.2.onCore = none) →
    s.waitingRecords (fun _ => true) = [] → (∃ d ∈ s.dies, d.2.calls ≠ []) →
    (MayJoin s (a.toNat % 16) → ∃ t, exec (.creqResizeAdd a m) s = .next t ∧
      Pending s t m { remove := false, arg := a, mgmt := m }) ∧
    (2 ≤ s.nsl → MayGo s (a.toNat % 16) → ∃ t, exec (.creqResizeRemove a m) s = .next t ∧
      Pending s t m { remove := true, arg := a, mgmt := m })) ∧
  (∀ (s : State) (a : DWord) (m : Bool), s.castle.lockdown = false → s.desc.state ≠ 0 → s.part.steps ≠ [] →
    (m = false → s.part.cresp ≠ 1) →
      (∃ t, exec (.creqResizeAdd a m) s = .next t ∧ t.part.steps = s.part.steps ++ [{ remove := false, arg := a, mgmt := m }] ∧
        t.castle = s.castle ∧ t.mem = s.mem ∧ t.teams = s.teams) ∧
      ∃ t, exec (.creqResizeRemove a m) s = .next t ∧ t.part.steps = s.part.steps ++ [{ remove := true, arg := a, mgmt := m }] ∧
        t.castle = s.castle ∧ t.mem = s.mem ∧ t.teams = s.teams) ∧
  (∀ s : State, Asks s →
    let a := s.part.carg.toNat
    let n := 64 + 80 * s.mem.shards a
    (s.manifestIn a = false → ∃ t, exec .creqSign s = .next t ∧ Answered s t 2 4) ∧
    (s.manifestIn a = true → exec .creqSign s = .next
      ((s.setMem (s.mem.write (a + n) (signatureOf (s.mem.read a n)))).setPart
        { s.part with creq := 3, cresp := 0, creason := 0 }))) ∧
  ∀ s : State, Asks s →
    let a := s.part.carg.toNat
    (¬ ShardsIn s a → ∃ t, exec .creqRestore s = .next t ∧ Answered s t 2 4) ∧
    (ShardsIn s a → ¬ Verified s a → ∃ t, exec .creqRestore s = .next t ∧ Answered s t 2 2) ∧
    (ShardsIn s a → Verified s a → ¬ Fits s a → ∃ t, exec .creqRestore s = .next t ∧ Answered s t 2 3) ∧
    (ShardsIn s a → Verified s a → Fits s a → ∃ t, exec .creqRestore s = .next t ∧ t.mem = s.mem ∧ t.part.cresp = 0 ∧
      t.part.creason = 0 ∧ ∀ k y, s.teams.find? k = some y →
        (y.state = .away ∧ ImageIn s a y → t.team k = { y with clean := true, bindable := true, onHold := false }) ∧
        (¬ (y.state = .away ∧ ImageIn s a y) → t.team k = y)) ∧
    (∀ j, ShardsIn s a → Verified s a → Fits s a → NewImage s a j →
      ∃ t k, exec .creqRestore s = .next t ∧ Restored s t (s.mem.shard a j).1 k)

/-- R172, R307, R338 to R345: an invalidation takes the entries it selects from every TLB; heartbeats, a missed one, a scrub;
clock requests and their checks, the clock step, the power sample; the start of a cluster, and power-up. A late heartbeat counts as
one after its freeze (assumption 72), and power-up keeps Castle's version numbers (assumption 43). -/
def Obligations.MaintenanceAndPower : Prop :=
  (∀ (s : State) (x : FenceOf) (va : Option DWord),
    let out := fun (e : TlbEntry) => !(e.vmid == (s.hart x.hart).vmid && selectedBy x.asid va e)
    (∃ t, exec (.sfenceVma x va) s = .next t ∧ (∀ c, ∀ e ∈ (t.core c).tlb, out e = true) ∧ ∀ d, ∀ e ∈ (t.die d).tlb, out e = true) ∧
    (OnlyStores s → ∃ t, exec (.sfenceVma x va) s = .next t ∧ (∀ c, (t.core c).stq = []) ∧ t.teams = s.teams ∧
      (∀ c, (t.core c).tlb = (s.core c).tlb.filter out) ∧ (∀ d, (t.die d).tlb = (s.die d).tlb.filter out) ∧
      ((∀ c, (s.core c).stq = []) → t.mem = s.mem))) ∧
  (∀ (s : State) (vmid asid : Option Nat) (va : Option DWord),
    let out := fun (e : TlbEntry) =>
      !(e.vmid != 0 && (match vmid with | none => true | some v => e.vmid == v) && selectedBy asid va e)
    (∃ t, exec (.hfence vmid asid va) s = .next t ∧ (∀ c, ∀ e ∈ (t.core c).tlb, out e = true) ∧
      ∀ d, ∀ e ∈ (t.die d).tlb, out e = true) ∧
    (OnlyStores s → ∃ t, exec (.hfence vmid asid va) s = .next t ∧ (∀ c, (t.core c).stq = []) ∧ t.teams = s.teams ∧
      (∀ c, (t.core c).tlb = (s.core c).tlb.filter out) ∧ (∀ d, (t.die d).tlb = (s.die d).tlb.filter out) ∧
      ((∀ c, (s.core c).stq = []) → t.mem = s.mem))) ∧
  (∀ (s : State) (v : DWord),
    (s.part.frozen = none → s.part.wall ≤ s.part.hbLast + s.part.hbPeriod * (1000000 * 882) → exec (.hbeat v) s = .next (s.setPart { s.part with hbeat := s.part.hbeat + 1, hbLast := s.part.wall })) ∧
    (∀ w, s.part.frozen = some w → s.part.wall ≤ w + 5000 * (1000000 * 882) → ∃ t, exec (.hbeat v) s = .next t ∧
      t.part.frozen = none ∧ t.part.hbeat = s.part.hbeat + 1 ∧
      ∀ k y, s.teams.find? k = some y → y.state = .away → t.team k = { y with bindable := true }) ∧
    ∀ w, s.part.frozen = some w → w + 5000 * (1000000 * 882) < s.part.wall → exec (.hbeat v) s = .next s) ∧
  (∀ (s : State) (v : DWord),
    let due := s.part.hbLast + s.part.hbPeriod * (1000000 * 882)
    s.part.frozen = none → s.desc.state ≠ 0 → due < s.part.wall → (∀ e ∈ s.teams, e.2.isResident = false) →
      (s.part.wall ≤ due + 5000 * (1000000 * 882) → ∃ t, exec (.hbeat v) s = .next t ∧ t.part.frozen = none ∧
        t.part.hbLast = s.part.wall ∧ ∀ k y, s.teams.find? k = some y → y.state = .away → t.team k = { y with bindable := true }) ∧
      (due + 5000 * (1000000 * 882) < s.part.wall → ∃ t, exec (.hbeat v) s = .next t ∧ t.part.frozen = some due ∧
        t.part.hbLast = s.part.hbLast)) ∧
  (∀ s : State, s.part.frozen = none → s.desc.state ≠ 0 → (∀ e ∈ s.teams, e.2.isResident = false) →
    let due := s.part.hbLast + s.part.hbPeriod * (1000000 * 882)
    (∃ t, exec .heartbeatMissed s = .next t ∧ t.part.frozen = some due ∧ due < t.part.wall ∧ s.part.wall ≤ t.part.wall ∧
      t.teams = s.teams ∧ t.mem = s.mem) ∧
    (due < s.part.wall → Instr.heartbeatMissed ∈ s.partEvents)) ∧
  (∀ (s : State) (w : Nat) (d : PartDesc), s.part.frozen = some w → s.castle.descs.find? s.pid = some d →
    (s.desc.state ≠ 0 → w + 5000 * (1000000 * 882) < s.part.wall → Instr.scrub ∈ s.partEvents) ∧
    ∃ t, exec .scrub s = .next t ∧ t.part.frozen = none ∧ t.teams = [] ∧ (∀ pa, pa < t.capBase → t.mem.get pa = 0) ∧
      t.part.kl = Ring.empty ∧ (∀ k ∈ t.castle.keys, k.2.1 ≠ s.pid) ∧ t.desc.slmap = d.slmap ∧
      (t.desc.state = 1 ↔ t.castle.mayRun d.world d.slmap = true) ∧ ∀ c, (t.cluster c).started = false) ∧
  (∀ (s : State) (v : DWord),
    let p := s.part
    let f := v.toNat % 8
    (5 < f → exec (.pwrreq v) s = .next s) ∧
    (f ≤ 5 → ∃ t, exec (.pwrreq v) s = .next t ∧ t.part.fcode = p.fcode ∧ t.mem = s.mem ∧ t.teams = s.teams ∧
      (t.part.pwrResult = if ∀ n, n ≤ f → p.mask.getLsbD n = false then 1 else if p.mask.getLsbD f = false then 5
        else if p.budget.toNat < Config.projectedPower f then 2 else 3) ∧
      if t.part.pwrResult = 3 then t.part.pwrPending = some f ∧ ∀ d ∈ t.dies, d.2.rail = dieCode s d.1 (max p.fcode f)
      else t.part.pwrPending = p.pwrPending ∧ t.dies = s.dies)) ∧
  (∀ (s : State) (f : Nat), s.part.pwrPending = some f →
    ((∀ d ∈ s.dies, f ≤ d.2.rail) → ∃ t, exec .fcodeStep s = .next t ∧ t.part.fcode = f ∧ t.part.pwrResult = 0 ∧
      t.part.pwrPending = none ∧ t.mem = s.mem ∧ (∀ d ∈ t.dies, d.2.rail = dieCode s d.1 f) ∧ s.part.wall ≤ t.part.wall ∧
      t.part.ccAt = t.part.wall ∧
      let u := Config.unitsPerCc s.part.fcode
      t.part.ccs = s.part.ccs + (s.part.wall - s.part.ccAt + u - 1) / u) ∧
    ((∃ d ∈ s.dies, d.2.rail < f) → exec .fcodeStep s = .next s)) ∧
  (∀ (s : State) (w : Nat),
    let b := s.part.sampleAt + 10000 * 882
    let s1 := s.setPart { s.part with wall := max s.part.wall b }
    let ratio := fun (cl : Nat) =>
      let i := (s1.issueCycles cl b).length
      let n := (s1.stallCycles cl b).length
      if i + n = 0 then 0 else min 255 (256 * n / (i + n))
    ∃ t, exec (.powerSample w) s = .next t ∧ t.mem = s.mem ∧ t.part.samples = s.part.samples + 1 ∧ t.part.sampleAt = b ∧
      (∀ c ∈ s.clusters, ratio c.1 ≤ t.part.stall) ∧ (t.part.stall = 0 ∨ ∃ c ∈ s.clusters, t.part.stall = ratio c.1) ∧
      match lowerCode s.part.mask s.part.fcode with
      | some f => if s.part.budget.toNat < w then t.part.fcode = f ∧ t.part.pwrResult = 4
          else t.part.fcode = s.part.fcode ∧ t.part.pwrResult = s.part.pwrResult ∧ t.teams = s.teams ∧ CountsCleared s1 t b
      | none => t.part.fcode = s.part.fcode ∧ t.teams = s.teams ∧ CountsCleared s1 t b) ∧
  (∀ s : State, s.desc.state ≠ 0 → s.part.sampleAt + 10000 * 882 ≤ s.part.wall → ∃ w, Instr.powerSample w ∈ s.partEvents) ∧
  (∀ (s : State) (n : Nat) (x : Cluster) (rest : Tab Cluster), s.clusters.filter (fun c => !c.2.started) = (n, x) :: rest →
    ∃ t, exec .clusterStart s = .next t ∧ t.cluster n = { x with started := true } ∧
      (∀ m, m ≠ n → t.cluster m = s.cluster m) ∧ t.part.wall = s.part.wall + 1000 * 882 ∧ t.mem = s.mem) ∧
  ∀ s : State, exec .powerUp s = .next
    { State.reset with
      sched := s.sched, fresh := s.fresh, castle := { Castle.empty with units := s.castle.units, versions := s.castle.versions } }

/-- R303 to R305, R314, R320, R323, R331 to R333, R336, R337, R199, R306, R321, R21: Castle forms a partition; a security event
is logged and takes its action, a partition killed for it is scrubbed; a packet between dies of different worlds is refused, a
hart's and a port's among them; a refused frame is counted; a slice reset; key slots, evidence, and the accesses of harts, whose
register 0 takes no result, and of ports. What the rules leave open is the model's: which partition runs and what a port answers for
another (assumption 2), certificates and what is measured (33), the reservation of LR and SC and a misaligned access (35, 98), the
loss that a slice reset records (65), a packet's admission and where it is refused on its way (73, 111), what a port exposes (97), and
what the host ports and firewalls hold (93). -/
def Obligations.SecurityAndPorts : Prop :=
  (∀ (s : State) (d : PDesc), s.castle.descs = [] → s.castle.lockdown = false → d.pid < 16 → 0 < d.width → 0 < d.height →
    d.x0 + d.width ≤ 4 → d.y0 + d.height ≤ 4 → d.tenant < 256 → d.world < 256 → 100 ≤ d.hbPeriod → d.hbPeriod ≤ 60000 → d.budget < 65536 →
    s.castle.sameChannels (rectSlices d) = true →
      ∃ t, exec (.partitionCreate d) s = .next t ∧ t.part.scopePol = d.scopePol ∧ t.part.hbPeriod = d.hbPeriod ∧
        t.part.budget.toNat = d.budget ∧ t.part.mask = d.mask ∧ t.castle.functions.contains d.pid = true ∧ t.pid = d.pid ∧
        t.desc.tenant = d.tenant ∧ t.desc.world = d.world ∧ t.desc.slmap.length = d.width * d.height ∧ t.teams = [] ∧
        (d.world = 0 → (∀ x ∈ rectSlices d, Tab.get 0 s.castle.worlds (sliceDie x) = 0) → t.desc.state = 1) ∧
        (d.world ≠ 0 → (∀ x ∈ rectSlices d, Tab.get 0 t.castle.worlds (sliceDie x) = BitVec.ofNat 8 d.world) ∧
          (t.desc.state = 1 ↔ d.x0 % 2 = 0 ∧ d.width % 2 = 0)) ∧
        ∀ i, i < d.width * d.height → t.desc.slmap[i]? = some (4 * (d.y0 + i / d.width) + (d.x0 + i % d.width))) ∧
  (∀ (s : State) (d : PDesc), s.castle.lockdown = true → exec (.partitionCreate d) s = .next s) ∧
  (∀ (s : State) (src : ReqSrc), s.castle.locked = true → s.castle.lockdown = false → ∀ e i, Raises s e src i →
      (s.castle.action e = .log → ∃ t, exec i s = .next t ∧ t.teams = s.teams ∧ t.mem = s.mem ∧ t.part = s.part ∧
        t.castle.log = s.castle.log ++ [{ event := e, action := .log, src := src }]) ∧
      (s.castle.action e = .killContext → ∀ id k, src = .context id → s.findCtx id = some k → Away s k →
        ∃ t, exec i s = .next t ∧
          ∀ j y, (s.team k).threads.find? j = some y → y.loc ≠ .vacant → ((t.team k).thread j).loc = .exited) ∧
      (∀ p d, s.castle.action e = .killPartition ∧ p = s.sourcePart src ∨ s.castle.action e = .killContext ∧ src = .host p →
        s.castle.descs.find? p = some d → ∃ t, exec i s = .next t ∧ Scrubbed s t p d ∧
          t.castle.log = s.castle.log ++ [{ event := e, action := s.castle.action e, src := src }]) ∧
      (s.castle.action e = .lockdown → ∃ t, exec i s = .next t ∧ t.castle.lockdown = true ∧ t.castle.keys = [])) ∧
  (∀ (s : State) (x : DieCross) (src : ReqSrc),
    (Differs s x → s.castle.action .dieLink = .log → ∃ t, exec (.dieLink x src) s = .next t ∧
      Tab.get 0 t.castle.linkDrops x.die = Tab.get 0 s.castle.linkDrops x.die + 1) ∧
    (¬ Differs s x → exec (.dieLink x src) s = .next s)) ∧
  (∀ (s : State) (i : Nat), ∃ t, exec (.slicePortAuthFail i) s = .next t ∧ t.mem = s.mem ∧ t.teams = s.teams ∧
    t.slice i = { s.slice i with portDrops := (s.slice i).portDrops + 1 }) ∧
  (∀ (s : State) (i : Nat), i < s.nsl → (∀ e ∈ s.teams, e.2.isResident = false) → RoomIn s.part.eq →
    ∃ t, exec (.sliceReset i) s = .next t ∧ t.part.eq.tail = s.part.eq.tail + 1 ∧
      { channels := s.channels, nsl := s.nsl, slice := i, top := s.memEnd } ∈ t.mem.lost) ∧
  (∀ (s : State) (port pf fn stream : Nat), s.castle.lockdown = false → port < 4 →
    let k := s.castle.keys.freeKey (64 * port)
    (64 * port + 64 ≤ k → ∃ t, exec (.ideKeyProgram port pf fn stream) s = .next t ∧ t.castle.keys = s.castle.keys ∧
      t.castle.replies = s.castle.replies ++ [.noKeySlot]) ∧
    (k < 64 * port + 64 → ∃ t, exec (.ideKeyProgram port pf fn stream) s = .next t ∧
      t.castle.keys.find? k = some (pf, fn, stream) ∧ t.castle.replies = s.castle.replies ++ [.keyOk (k % 64)])) ∧
  (∀ (s : State) (port stream : Nat), ∃ t, exec (.streamStop port stream) s = .next t ∧ t.mem = s.mem ∧
    ∀ k, k ∈ t.castle.keys ↔ k ∈ s.castle.keys ∧ ¬(k.1 / 64 = port ∧ k.2.2.2 = stream)) ∧
  (∀ (s : State) (pf fn : Nat), ∃ t, exec (.functionReset pf fn) s = .next t ∧ t.mem = s.mem ∧
    ∀ k, k ∈ t.castle.keys ↔ k ∈ s.castle.keys ∧ ¬(k.2.1 = pf ∧ k.2.2.1 = fn)) ∧
  (∀ (s : State) (fn : Nat) (i : Instr) (q : Reply), Answers s fn i q → ∃ t r, exec i s = .next t ∧
    t.castle.replies = s.castle.replies ++ [r] ∧ Answers s fn i r ∧ t.mem = s.mem ∧ t.teams = s.teams) ∧
  (∀ (s s1 : State) (h n pa : Nat) (va : DWord),
    let access := fun (x : HartAccess) => exec (.hostHartAccess h x) s
    let old := BitVec.ofNat (8 * n) (s1.mem.readNat pa n)
    let sound := s1.mem.poisonAt pa n = none
    (∀ rd, HartWidth n → Reaches s s1 h va .read n pa → sound → ∃ t, access (.load va n rd) = .next t ∧
      Given s1 t h rd (old.zeroExtend 64) ∧ (t.hart h).exc = none ∧ MemKeeps s1.mem t.mem) ∧
    (Reaches s s1 h va .exec 4 pa → s1.mem.poisonAt pa 4 = none → ∃ t, access (.fetch va) = .next t ∧ (t.hart h).exc = none ∧
      MemKeeps s1.mem t.mem) ∧
    (∀ v, HartWidth n → Reaches s s1 h va .write n pa → Quiet s1 → ∃ t, access (.store va n v) = .next t ∧
      t.mem = s1.mem.write pa (toBytes n v.toNat) ∧ t.teams = s.teams ∧ (t.hart h).exc = none) ∧
    (∀ op rd v, HartAmoWidth n → Reaches s s1 h va .atom n pa → sound → Quiet s1 → ∃ t,
      access (.amo op va n rd v) = .next t ∧ Given s1 t h rd (old.signExtend 64) ∧
      ∀ a, t.mem.get a = (s1.mem.write pa (toBytes n (amoWord op (8 * n) (s1.mem.readNat pa n) v.toNat))).get a) ∧
    (∀ rd, HartAmoWidth n → Reaches s s1 h va .read n pa → sound → ∃ t, access (.lr va n rd) = .next t ∧
      MemKeeps s1.mem t.mem ∧ Given s1 t h rd (old.signExtend 64) ∧ (t.hart h).resv = some (pa / 64)) ∧
    (∀ rd v, HartAmoWidth n → Reaches s s1 h va .write n pa → Quiet s1 → (s.hart h).resv = some (pa / 64) → ∃ t,
      access (.sc va n rd v) = .next t ∧ Given s1 t h rd 0 ∧ (t.hart h).resv = none ∧
      t.mem = s1.mem.write pa (toBytes n v.toNat)) ∧
    (∀ rd v, HartAmoWidth n → Reaches s s1 h va .write n pa → (s.hart h).resv ≠ some (pa / 64) → ∃ t y,
      access (.sc va n rd v) = .next t ∧ y ≠ 0 ∧ Given s1 t h rd y ∧ t.mem = s1.mem) ∧
    (∀ rd, HartWidth n → Reaches s s1 h va .read n pa → ¬ sound → ∃ t, access (.load va n rd) = .next t ∧
      (t.hart h).exc = some (.loadFault va) ∧ (t.hart h).x = (s.hart h).x) ∧
    ∀ e rd, HartWidth n → va.toNat % n = 0 → (s.harts.find? h).isSome = true → (s.hart h).jwait = none → e ≠ .gone →
      (s.hartTranslate h va .read = (.error e, s1) → ∃ t, access (.load va n rd) = .next t ∧ (t.hart h).exc = some e ∧ t.mem = s1.mem ∧
        (t.hart h).x = (s1.hart h).x) ∧
      (s.hartTranslate h va .write = (.error e, s1) → ∀ v, ∃ t, access (.store va n v) = .next t ∧ (t.hart h).exc = some e ∧
        t.mem = s1.mem)) ∧
  (∀ (s : State) (h n : Nat) (va : DWord), (s.harts.find? h).isSome = true → (s.hart h).jwait = none → n = 2 ∨ n = 4 ∨ n = 8 →
    va.toNat % n ≠ 0 →
      ((s.hart h).priv = .m → va.toNat + n ≤ s.memEnd → s.memEnd ≤ Config.pcBase → s.mem.wf = true →
        (∀ j, j < n → s.refusedAt (s.dieOf (h / 4)) (s.homeDie (va.toNat + j)) = none) →
          (∀ rd, s.mem.poisonAt va.toNat n = none → ∃ t, exec (.hostHartAccess h (.load va n rd)) s = .next t ∧
            Given s t h rd (BitVec.ofNat 64 (s.mem.readNat va.toNat n))) ∧
          (∀ v, Quiet s → ∃ t, exec (.hostHartAccess h (.store va n v)) s = .next t ∧ t.teams = s.teams ∧
            ∀ a, t.mem.get a = (s.mem.write va.toNat (toBytes n v.toNat)).get a)) ∧
      ∀ op rd v, exec (.hostHartAccess h (.lr va n rd)) s = .next (s.setHart h { s.hart h with exc := some (.loadFault va) }) ∧
        exec (.hostHartAccess h (.sc va n rd v)) s = .next (s.setHart h { s.hart h with exc := some (.storeFault va) }) ∧
        exec (.hostHartAccess h (.amo op va n rd v)) s = .next (s.setHart h { s.hart h with exc := some (.storeFault va) })) ∧
  (∀ (s : State) (h n x : Nat) (va : DWord), (s.harts.find? h).isSome = true → (s.hart h).jwait = none → (s.hart h).priv = .m →
    HartWidth n → va.toNat % n = 0 → va.toNat < s.memEnd → s.refusedAt (s.dieOf (h / 4)) (s.homeDie va.toNat) = some x →
    s.castle.action .dieLink = .log →
      (∀ rd, ∃ t, exec (.hostHartAccess h (.load va n rd)) s = .next t ∧ Tab.get 0 t.castle.linkDrops x = Tab.get 0 s.castle.linkDrops x + 1 ∧
        (t.hart h).exc = some (.loadFault va) ∧ (t.hart h).x = (s.hart h).x ∧ t.mem = s.mem) ∧
      ∀ v, ∃ t, exec (.hostHartAccess h (.store va n v)) s = .next t ∧ Tab.get 0 t.castle.linkDrops x = Tab.get 0 s.castle.linkDrops x + 1 ∧
        (t.hart h).exc = some (.storeFault va) ∧ t.mem = s.mem) ∧
  (∀ (s : State) (i pa : Nat) (bs : List Byte), i < s.nsl → pa + bs.length ≤ s.memEnd →
    let x := (s.slice i).number
    let r := (sliceRouters x).headD 0
    ((s.castle.slicePort x).key = none → exec (.slicePortFrame i (.write pa bs)) s = exec (.slicePortAuthFail i) s) ∧
    let way := s.refusedAt (sliceDie (routerSlice r)) (s.homeDie pa)
    ((s.castle.slicePort x).key.isSome = true → s.castle.admits r r (s.homeRouter pa) = true →
      (Quiet s → way = none →
        ∃ t, exec (.slicePortFrame i (.write pa bs)) s = .next t ∧ t.mem = s.mem.write pa bs ∧ t.teams = s.teams) ∧
      ∀ d, way = some d → s.castle.action .dieLink = .log →
        ∃ t, exec (.slicePortFrame i (.write pa bs)) s = .next t ∧ t.mem = s.mem ∧ t.teams = s.teams ∧
          Tab.get 0 t.castle.linkDrops d = Tab.get 0 s.castle.linkDrops d + 1)) ∧
  ∀ (s : State) (x : PortFn) (pa : Nat) (bs : List Byte),
    (x.pf ≠ s.pid ∨ s.castle.functions.contains x.pf = false → exec (.hostPortRequest x (.write pa bs)) s = .next s) ∧
    (x.pf = s.pid → s.castle.functions.contains x.pf = true → s.desc.state ≠ 0 → x.port < 4 →
      (∀ v, x.vf = some v → v < 64 ∧ (s.vdev v).dirty.getLsbD 0 = false) →
      (s.castle.hostPort x.port).exposes pa bs.length = true → pa + bs.length ≤ s.memEnd → Quiet s →
      s.castle.admits x.router x.router (s.homeRouter pa) = true → s.refusedAt (sliceDie (routerSlice x.router)) (s.homeDie pa) = none →
        ∃ t, exec (.hostPortRequest x (.write pa bs)) s = .next t ∧ t.mem = s.mem.write pa bs ∧ t.teams = s.teams)

/-! ### Encodings that are not instructions -/

namespace Sys2Proof.Claims

/-- The number in bits lo to lo + n − 1 of a word. -/
def fb (w : Word) (lo n : Nat) : Nat := w.toNat / 2 ^ lo % 2 ^ n
/-- Even registers in the fields from these bits up, and fields of these places and widths that are zero. -/
def evens (w : Word) (l : List Nat) : Bool := l.all (fun lo => fb w lo 1 == 0)
def zeros (w : Word) (l : List (Nat × Nat)) : Bool := l.all (fun f => fb w f.1 f.2 == 0)
/-- A scope field that holds one of the six codes (R176). -/
def scopeOk (w : Word) (lo : Nat) : Bool := decide (fb w lo 3 < 6)

/-- The functions of R133 and R134. -/
def vunaFns : List Nat := [0, 1, 2, 3, 4, 5, 6, 8, 9, 10, 11, 12, 13, 16, 17, 18, 19]
def vsfuFns : List Nat := [0, 1, 2, 3, 4, 5, 6, 7, 16, 17, 18, 19, 20]
/-- The functions of R137. -/
def uopFns : List Nat := [0, 1, 2, 3, 4, 5, 6, 7, 8, 9, 10, 11, 12, 13, 16, 17, 18]

/-- VCVT's pairs by the codes of the source and the destination (R135): INT 0, UINT 1, F32 2, F64 3, BF16 4, T8 5, T6 6. -/
def cvtPairs : List (Nat × Nat) :=
  [(0, 2), (0, 3), (0, 4), (0, 5), (0, 6), (1, 2), (1, 3), (1, 4), (2, 0), (2, 1), (2, 3), (2, 4), (2, 5), (2, 6)] ++
  [(3, 0), (3, 1), (3, 2), (3, 4), (4, 0), (4, 1), (4, 2), (4, 3), (4, 5), (4, 6), (5, 0), (5, 2), (5, 3), (5, 4), (5, 6)] ++
  [(6, 0), (6, 2), (6, 3), (6, 4), (6, 5)]

/-- The words of VCVT that R135 admits: a listed pair, even registers for FP64, and an element below the count of every packed side, or
zero where neither side is packed. -/
def cvtListed (w : Word) : Bool :=
  let s := fb w 26 3
  let d := fb w 23 3
  let below := fun (c : Nat) => decide (fb w 29 3 < (match c with
    | 4 => 2
    | 5 => 4
    | 6 => 5
    | _ => if 4 ≤ s ∨ 4 ≤ d then 8 else 1))
  cvtPairs.contains (s, d) && below s && below d && (s != 3 || evens w [17]) && (d != 3 || evens w [11])

/-- The words of VXL that R136 admits. -/
def vxlListed (w : Word) : Bool :=
  let lm0 := zeros w [(29, 3)]
  match fb w 23 6 with
  | 0 | 1 | 2 => lm0
  | 3 => zeros w [(31, 1)]
  | 8 | 9 => lm0 && zeros w [(14, 3), (20, 3)] && fb w 11 3 != 0
  | 10 => lm0 && zeros w [(20, 3)] && evens w [11]
  | 11 => lm0 && zeros w [(13, 4)]
  | 12 | 13 => lm0 && zeros w [(19, 4)]
  | 14 => lm0 && decide (fb w 17 6 < 6)
  | 15 => lm0
  | n => lm0 && decide (0x20 ≤ n) && decide (n ≤ 0x2A)

/-- ATOM and NMRED (R138, R353, R390): a size, a scope, an operation of the list, 32 bits where it needs them, and their pairs. -/
def atomListed (w : Word) : Bool :=
  let wide := fb w 30 1 == 1
  fb w 31 1 == 1 && scopeOk w 27 && evens w [17] && (match fb w 23 4 with
    | 9 => if wide then zeros w [(11, 2)] else evens w [11]
    | 10 => !wide
    | n => decide (n < 9) && (!wide || evens w [11]))
def nmredListed (w : Word) : Bool :=
  let wide := fb w 30 1 == 1
  fb w 31 1 == 1 && scopeOk w 27 && evens w [17] && decide (fb w 23 4 < 8) && (!wide || evens w [11] && !([1, 6, 7].contains (fb w 23 4)))

/-- GETS and SETS (R60, R140, R374): a register there is, of thread scope for a v register and wider for an s register, with a pair for
64 bits; SETS of no read-only one. -/
def specialListed (w : Word) (write : Bool) : Bool :=
  let n := fb w 18 5
  let thread := [0x0C, 0x0D, 0x0E, 0x0F, 0x10].contains n
  zeros w [(29, 3), (10, 2)] && decide (n ≤ 0x14) && (thread == (fb w 12 1 == 1)) &&
    (!thread || !([0x0D, 0x0E, 0x0F].contains n) || evens w [13]) &&
    (!write || [0x09, 0x0A, 0x0B, 0x0C, 0x0D, 0x0E, 0x0F, 0x11, 0x12].contains n)

/-- The words of SYNC that R140 admits. -/
def syncListed (w : Word) : Bool :=
  let sc := (29, 3)
  let sb := (18, 5)
  let sa := (13, 5)
  let ix := (9, 4)
  match fb w 23 6 with
  | 0x00 | 0x10 => zeros w [sc]
  | 0x01 | 0x02 | 0x11 => scopeOk w 29 && zeros w [sb, sa]
  | 0x03 | 0x04 | 0x1D => zeros w [sc, sb]
  | 0x08 => scopeOk w 29 && zeros w [sb, sa, (11, 2)]
  | 0x0C => scopeOk w 29 && zeros w [sb, ix]
  | 0x0D | 0x19 | 0x24 => zeros w [sc, sb, ix]
  | 0x14 | 0x15 => zeros w [sc, (10, 3)]
  | 0x18 => zeros w [sc] && decide (fb w 9 4 < 3)
  | 0x1A => zeros w [sc, ix]
  | 0x1C => zeros w [sc, sb] && decide (0 < fb w 9 4) && decide (fb w 9 4 < 8)
  | 0x20 => specialListed w false
  | 0x21 => specialListed w true
  | 0x25 | 0x27 => zeros w [sc, sb, sa]
  | 0x26 | 0x28 => zeros w [sc, sb, sa, ix]
  | _ => false

/-- The words of XCMD that R141, R387 and R456 admit: SD is 0 without a reply, which XSTAT and TQPOP need. -/
def xcmdListed (w : Word) : Bool :=
  match fb w 9 7 with
  | 0x00 => fb w 31 1 == 1 && zeros w [(21, 5)]
  | 0x21 => fb w 31 1 == 1
  | 0x08 | 0x09 | 0x0A | 0x10 | 0x11 | 0x12 | 0x13 | 0x20 | 0x30 => fb w 31 1 == 1 || zeros w [(26, 5)]
  | _ => false

/-- The 32-bit words of a body that are instructions (R118, R131 to R142), by the major opcode. -/
def listed (w : Word) : Bool :=
  fb w 0 1 == 1 && match fb w 3 6 with
  | 0x00 | 0x3F => false
  | 0x11 | 0x12 | 0x1C | 0x1D => evens w [11, 17, 23]
  | 0x13 | 0x19 | 0x25 => fb w 11 3 != 0
  | 0x1F => fb w 31 1 == 1 || zeros w [(29, 2)]
  | 0x24 => zeros w [(30, 2)]
  | 0x27 => vunaFns.contains (fb w 23 6)
  | 0x28 => vsfuFns.contains (fb w 23 6)
  | 0x29 => cvtListed w
  | 0x2A => vxlListed w
  | 0x2F => evens w [9, 15, 21, 27]
  | 0x33 => zeros w [(27, 5), (1, 2)]
  | 0x34 => zeros w [(27, 5)]
  | 0x35 => fb w 30 2 != 3 && scopeOk w 27 && evens w [17] && (fb w 23 2 != 3 || evens w [11]) && (fb w 25 1 == 0 || decide (fb w 23 2 < 2))
  | 0x36 => fb w 30 2 != 3 && scopeOk w 27 && evens w [17] && (fb w 23 2 != 3 || evens w [11]) && zeros w [(25, 1)]
  | 0x37 => atomListed w
  | 0x38 => nmredListed w
  | 0x39 | 0x3A => zeros w [(31, 1)] && (fb w 30 1 == 1 || zeros w [(28, 2)])
  | 0x3B => uopFns.contains (fb w 24 8)
  | 0x3D => xcmdListed w
  | 0x3E => syncListed w
  | _ => true

end Sys2Proof.Claims

/-- R55, R60, R113, R131 to R141, R142: a word of 32 bits is an instruction exactly where the opcode maps list it, with even registers for
pairs, no p0 as a destination, and zero in every reserved field; every other word is refused. Every halfword with bit 0 clear is
one of 16 bits, and of a hart's words those of R258. An issued word that is refused traps ILLEGAL_OP
in the group's thread, with the word and its address, and changes no register and no memory. -/
def Obligations.IllFormedWordsAreRefused : Prop :=
  (∀ w : Word, (listed w = true → ∃ i, decode32 w = .ok i) ∧ (listed w = false → ∃ e, decode32 w = .error e)) ∧
  (∀ h : Half, (h.getLsbD 0 = true → ∃ e, decode16 h = .error e) ∧ (h.getLsbD 0 = false → ∃ i, decode16 h = .ok i)) ∧
  (∀ w : Word, (∃ i, decodeHost w = .ok i) ↔
    fb w 0 7 = 0x0B ∧ fb w 25 7 = 0 ∧ (fb w 12 3 = 0 ∧ fb w 15 10 = 0 ∨ fb w 12 3 = 1 ∨ fb w 12 3 = 2)) ∧
  ∀ (s : State) (x : Ctx) (j c sl : Nat), s.ctx = some x → x.group = [j] → (s.team x.team).isPawn j = false →
    (s.team x.team).state = .resident c sl → ((s.team x.team).thread j).loc = .pass →
    ((s.team x.team).thread j).handler = false → (s.team x.team).trapVec ≠ 0 →
      let y := (s.team x.team).thread j
      let z := (s.illegalWord.team x.team).thread j
      z.handler = true ∧ z.trapCause = 0x01 ∧ z.info0 = x.word.zeroExtend 64 ∧ z.info1 = 0 ∧ z.trapPc = x.pc ∧
        z.v = y.v ∧ z.p = y.p ∧ z.ix = y.ix ∧ s.illegalWord.mem = s.mem

/-! ### Encodings, the step, reset and the invariant -/

namespace Sys2Proof.Claims

/-- Core c serves pass p in context x, and nothing comes before the issue of the pass's next instruction. -/
def Serves (s : State) (c : Nat) (p : Pass) (x : Ctx) : Prop :=
  s.sched = [] ∧ s.turn = .core c ∧ (s.cores.find? c).isSome = true ∧ (s.cluster (c / 4)).started = true ∧
    s.coreTimeout c = none ∧ (∀ k ∈ s.resident c, (s.fuse k).all (fun n => decide (s.issueCycle c p ≤ (s.core c).cc + n)) = true) ∧
    (s.core c).ended = [] ∧ s.canStart c = false ∧ (s.core c).served = some p ∧
    s.ctxOf c = some x ∧ s.stuck p = false ∧ (p.groups[p.k]?).getD [] ≠ [] ∧ s.pendingResult c p.team = none

/-- Host hart n runs in M-mode at an address of partition memory that holds the word w. -/
def HartAt (s : State) (n : Nat) (w : Word) : Prop :=
  let h := s.hart n
  s.sched = [] ∧ s.turn = .hart n ∧ (s.harts.find? n).isSome = true ∧ h.jwait = none ∧ h.offline = false ∧ h.exc = none ∧
    h.running = true ∧ h.priv = .m ∧ h.pc.toNat + 4 ≤ s.memEnd ∧ s.memEnd ≤ Config.pcBase ∧
    s.mem.poisonAt h.pc.toNat 2 = none ∧ s.mem.poisonAt (h.pc.toNat + 2) 2 = none ∧
    BitVec.ofNat 32 (s.mem.readNat h.pc.toNat 4) = w

/-- What a step adds to a unit's turn: what it notes of its writes and every step settles, and the turn of the unit after it. -/
def turnOver (s t : State) : State := { s.finish t with turn := (s.finish t).unitAfter s.turn }

end Sys2Proof.Claims

/-- R113 to R142: the decoder reads every encoded well-formed instruction back, with every operand as it was. -/
def Obligations.DecodeOfEncodeIsTheInstruction : Prop :=
  ∀ (i : Instr) (e : Enc), i.wf = true → encode i = some e → decodeEnc i.isHost e = .ok i

/-- The spec's own examples of encodings: each word decodes to the instruction that its rule names. -/
def Obligations.ExampleWordsDecode : Prop :=
  decode32 0x51030979 = .ok (.vdfma { vc := 10, vb := 8, va := 6, vd := 4, w := 0 }) ∧
  decode32 0x38C28971 = .ok (.vhfma { vc := 7, vb := 6, va := 5, vd := 4, w := 0 }) ∧
  decode32 0x38C28969 = .ok (.vmad { vc := 7, vb := 6, va := 5, vd := 4, w := 0 }) ∧
  decode32 0x38C28981 = .ok (.vdot2 { vc := 7, vb := 6, va := 5, vd := 4, w := 0 }) ∧
  decode32 0x06144089 = .ok (.vadd64 { lm := 0, vb := 12, va := 10, vd := 8, p := 0, w := 0 }) ∧
  decode32 0x00C289A1 = .ok (.vreq { vb := 6, va := 5, vd := 4, w := 0 }) ∧
  decode32 0x049098C9 = .ok (.vfcmp { lm := 0, vb := 9, va := 8, cond := .lt, pd := 3, p := 0, w := 0 }) ∧
  decode32 0x6061118B = .ok (.vbdotT8 { vc := 12, vb := 3, va := 2, vd := 8, bs := 1 }) ∧
  decode32 0x908441C1 =
    .ok (.nmred { wide := 0, sc := .cluster, op := .fadd, va := 2, vd := 8, p := 0, w := 0 }) ∧
  decode32 0x4600C1F1 = .ok (.marm { sc := .cluster, sa := 6, w := 0 }) ∧
  decode32 0x410019F1 = .ok (.bwait { sc := .cluster, idx := 12, w := 0 }) ∧
  decode32 0x081487F1 = .ok (.karm { sb := 5, sa := 4, idx := 3, w := 0 }) ∧
  decode32 0x120081F1 = .ok (.syscall { sa := 4, w := 0 }) ∧
  decode32 0x9C6261E9 = .ok (.dgst { re := 1, sd := 7, sb := 3, sa := 2, w := 0 }) ∧
  decode16 0x1062 = .ok (.vaddC { s := 2, d := 3 }) ∧ decode16 0x6158 = .ok (.vfaddC { s := 12, d := 10 }) ∧
  decodeHost 0x0066128B = .ok (.xljwait 5 12 6) ∧ decodeHost 0x00C5A50B = .ok (.xlqpush 10 11 12)

/-- R34, R43, R114, R142, R258: the step of a core that serves a pass runs the instruction that the body's next halfwords decode
to, between the issue cycle and the pass's advance; a body's word that decodes to none traps; the step of a hart runs the Xthelor
instruction at its pc; a scheduled step of the part is its meaning; and an input takes its effect. -/
def Obligations.StepRunsTheDecodedInstruction : Prop :=
  (∀ (s : State) (c n : Nat) (p : Pass) (x : Ctx) (i : Instr), Serves s c p x →
    decodeBytes (p.body.drop p.off) = .ok (i, n) → (n = 4 → wordIllegal p = false) →
    (s.core c).missing p.team (s.linesFor x i) = none → s.nmFull c x i = false →
      let b := s.begin c p (some i)
      step s = mapNext (fun t => turnOver s (t.advance c p.team (b.core c).cc)) (exec i b)) ∧
  (∀ (s : State) (c : Nat) (p : Pass) (x : Ctx) (e : IllForm), Serves s c p x → decodeBytes (p.body.drop p.off) = .error e →
    let b := s.begin c p none
    step s = .next (turnOver s (b.illegalWord.advance c p.team (b.core c).cc))) ∧
  (∀ (s : State) (n : Nat) (w : Word) (i : Instr), HartAt s n w → decodeHost w = .ok i →
    step s = mapNext (turnOver s) (exec i s)) ∧
  (∀ (s : State) (i : Instr) (r : List Act), s.sched = .event i :: r → encode i = none →
    step s = mapNext (fun t => s.finish (match Instr.controlOffset i with
      | some o => t.wakeControl o
      | none => t)) (exec i { s with sched := r })) ∧
  ∀ (s : State) (x : Input) (r : List Act), s.sched = .input x :: r →
    step s = .next (s.finish ({ s with sched := r }.takeInput x))

/-- R82, R153, R250, R276, R307, R308, R330, R332, R337, R338: after reset memory reads zero, every ring is unconfigured and empty, the
registers that a rule gives a value hold it, no queue is enabled (R250), no key slot is in use, every world latch is 0, the action table is locked, and the
machine's invariant holds. -/
def Obligations.ResetLeaves : Prop :=
  State.reset.Inv ∧ (∀ a, State.reset.mem.get a = 0) ∧ (∀ r, State.reset.ring r = Ring.empty) ∧
    State.reset.part.benchUs = 50 ∧ State.reset.part.hbPeriod = 1000 ∧ State.reset.part.heapBase = 0 ∧
    State.reset.part.heapSize = 0 ∧ State.reset.castle.keys = [] ∧ (∀ d, Tab.get 0 State.reset.castle.worlds d = 0) ∧
    State.reset.castle.locked = true ∧ (∀ c, (State.reset.core c).bounds = (4, 28, 32)) ∧
    ∀ n, (State.reset.queue n).en = false

/-- R332 and the canonical form of memory: every step keeps memory in its canonical form and the action table locked; and every step
but a cold reset leaves the action table as it is. -/
def Obligations.EveryStepKeepsTheInvariant : Prop :=
  ∀ s t : State, s.Inv → step s = .next t →
    t.Inv ∧ ((∀ r, s.sched ≠ .event .powerUp :: r) → t.castle.actions = s.castle.actions)
end

