-- ==== Sys2Proof/Laws/Tab.lean ====
section
/-! SUPPORT. Laws of the sparse tables: what a key reads as after a table has changed, and that every change keeps the
canonical form. -/

namespace Sys2Proof

variable {α β : Type}

theorem Tab.find?_set_self (t : Tab α) (k : Nat) (v : α) : (t.set k v).find? k = some v := by
  induction t with
  | nil => simp [Tab.set, Tab.find?]
  | cons c r ih =>
    obtain ⟨j, a⟩ := c
    simp only [Tab.set]
    split
    · simp [Tab.find?]
    · split
      · simp [Tab.find?]
      · simp_all [Tab.find?]

theorem Tab.find?_set_ne (t : Tab α) {k n : Nat} (v : α) (h : n ≠ k) : (t.set k v).find? n = t.find? n := by
  induction t with
  | nil => simp [Tab.set, Tab.find?]; omega
  | cons c r ih =>
    obtain ⟨j, a⟩ := c
    simp only [Tab.set]
    split
    · rename_i e
      simp only [beq_iff_eq] at e
      subst e
      simp [Tab.find?, Ne.symm h]
    · split
      · rename_i e1 e2
        simp only [beq_iff_eq] at e1
        rw [Tab.find?]
        simp only [beq_iff_eq, Ne.symm h, ↓reduceIte]
        split
        · rw [Tab.find?]
          have : ¬ j = n := by omega
          simp only [beq_iff_eq, this, ↓reduceIte]
          rw [if_pos (by omega)]
        · rfl
      · simp only [Tab.find?, ih]

theorem Tab.get_set_self (d : α) (t : Tab α) (k : Nat) (v : α) : Tab.get d (t.set k v) k = v := by
  simp [Tab.get, Tab.find?_set_self]

theorem Tab.get_set_ne (d : α) (t : Tab α) {k n : Nat} (v : α) (h : n ≠ k) : Tab.get d (t.set k v) n = Tab.get d t n := by
  simp [Tab.get, Tab.find?_set_ne t v h]

/-- Reading a table after a key was set. -/
theorem Tab.get_set (d : α) (t : Tab α) (k n : Nat) (v : α) :
    Tab.get d (t.set k v) n = if n = k then v else Tab.get d t n := by
  split
  · subst n; exact Tab.get_set_self d t k v
  · exact Tab.get_set_ne d t v ‹_›

theorem Tab.find?_none_of_lt {t : Tab α} {lo k : Nat} (h : t.sortedFrom lo = true) (hk : k < lo) : t.find? k = none := by
  cases t with
  | nil => rfl
  | cons c r =>
    obtain ⟨j, a⟩ := c
    simp only [Tab.sortedFrom, Bool.and_eq_true, decide_eq_true_eq] at h
    rw [Tab.find?]
    rw [if_neg (by simp; omega), if_pos (by omega)]

theorem Tab.sortedFrom_mono {t : Tab α} {lo lo' : Nat} (h : t.sortedFrom lo = true) (hl : lo' ≤ lo) :
    t.sortedFrom lo' = true := by
  cases t with
  | nil => rfl
  | cons c r =>
    simp only [Tab.sortedFrom, Bool.and_eq_true, decide_eq_true_eq] at h ⊢
    exact ⟨by omega, h.2⟩

theorem Tab.sortedFrom_set {t : Tab α} {lo k : Nat} (v : α) (h : t.sortedFrom lo = true) (hk : lo ≤ k) :
    (t.set k v).sortedFrom lo = true := by
  induction t generalizing lo with
  | nil => simp [Tab.set, Tab.sortedFrom, hk]
  | cons c r ih =>
    obtain ⟨j, a⟩ := c
    simp only [Tab.sortedFrom, Bool.and_eq_true, decide_eq_true_eq] at h
    simp only [Tab.set]
    split
    · rename_i e
      simp only [beq_iff_eq] at e
      subst e
      simp [Tab.sortedFrom, hk, h.2]
    · rename_i e
      simp only [beq_iff_eq] at e
      split
      · simp only [Tab.sortedFrom, Bool.and_eq_true, decide_eq_true_eq]
        exact ⟨hk, by omega, h.2⟩
      · simp only [Tab.sortedFrom, Bool.and_eq_true, decide_eq_true_eq]
        exact ⟨h.1, ih h.2 (by omega)⟩

theorem Tab.sortedFrom_erase {t : Tab α} {lo : Nat} (k : Nat) (h : t.sortedFrom lo = true) :
    (t.erase k).sortedFrom lo = true := by
  induction t generalizing lo with
  | nil => rfl
  | cons c r ih =>
    obtain ⟨j, a⟩ := c
    have h' := h
    simp only [Tab.sortedFrom, Bool.and_eq_true, decide_eq_true_eq] at h'
    simp only [Tab.erase]
    split
    · exact Tab.sortedFrom_mono h'.2 (by omega)
    · split
      · exact h
      · simp only [Tab.sortedFrom, Bool.and_eq_true, decide_eq_true_eq]
        exact ⟨h'.1, ih h'.2⟩

theorem Tab.sortedFrom_filter {t : Tab α} {lo : Nat} (f : Nat × α → Bool) (h : t.sortedFrom lo = true) :
    Tab.sortedFrom lo (t.filter f) = true := by
  induction t generalizing lo with
  | nil => rfl
  | cons c r ih =>
    obtain ⟨j, a⟩ := c
    simp only [Tab.sortedFrom, Bool.and_eq_true, decide_eq_true_eq] at h
    rw [List.filter_cons]
    split
    · simp only [Tab.sortedFrom, Bool.and_eq_true, decide_eq_true_eq]
      exact ⟨h.1, ih h.2⟩
    · exact Tab.sortedFrom_mono (ih h.2) (by omega)

theorem Tab.sortedFrom_mapVal {t : Tab α} {lo : Nat} (f : Nat → α → β) (h : t.sortedFrom lo = true) :
    Tab.sortedFrom lo (t.mapVal f) = true := by
  induction t generalizing lo with
  | nil => rfl
  | cons c r ih =>
    obtain ⟨j, a⟩ := c
    simp only [Tab.sortedFrom, Bool.and_eq_true, decide_eq_true_eq] at h
    simp only [Tab.mapVal, List.map_cons, Tab.sortedFrom, Bool.and_eq_true, decide_eq_true_eq]
    exact ⟨h.1, ih h.2⟩

theorem Tab.mem_set {t : Tab α} {k : Nat} {v : α} {c : Nat × α} (h : c ∈ t.set k v) : c = (k, v) ∨ c ∈ t := by
  induction t with
  | nil => simp_all [Tab.set]
  | cons b r ih =>
    obtain ⟨j, a⟩ := b
    simp only [Tab.set] at h
    split at h
    · rcases List.mem_cons.1 h with h | h
      · exact .inl h
      · exact .inr (List.mem_cons_of_mem _ h)
    · split at h
      · rcases List.mem_cons.1 h with h | h
        · exact .inl h
        · exact .inr h
      · rcases List.mem_cons.1 h with h | h
        · exact .inr (h ▸ List.mem_cons_self)
        · rcases ih h with h | h
          · exact .inl h
          · exact .inr (List.mem_cons_of_mem _ h)

theorem Tab.mem_of_mem_erase {t : Tab α} {k : Nat} {c : Nat × α} (h : c ∈ t.erase k) : c ∈ t := by
  induction t with
  | nil => exact h
  | cons b r ih =>
    obtain ⟨j, a⟩ := b
    simp only [Tab.erase] at h
    split at h
    · exact List.mem_cons_of_mem _ h
    · split at h
      · exact h
      · rcases List.mem_cons.1 h with h | h
        · exact h ▸ List.mem_cons_self
        · exact List.mem_cons_of_mem _ (ih h)

/-- A put keeps the canonical form. -/
theorem Tab.wf_put [DecidableEq α] {d : α} {t : Tab α} (k : Nat) (v : α) (h : Tab.wf d t = true) :
    Tab.wf d (Tab.put d t k v) = true := by
  simp only [Tab.wf, Bool.and_eq_true, List.all_eq_true, decide_eq_true_eq] at h ⊢
  unfold Tab.put
  split
  · exact ⟨Tab.sortedFrom_erase k h.1, fun c hc => h.2 c (Tab.mem_of_mem_erase hc)⟩
  · refine ⟨Tab.sortedFrom_set v h.1 (Nat.zero_le _), fun c hc => ?_⟩
    rcases Tab.mem_set hc with rfl | hc
    · assumption
    · exact h.2 c hc

/-- Dropping entries keeps the canonical form. -/
theorem Tab.wf_filter [DecidableEq α] {d : α} {t : Tab α} (f : Nat × α → Bool) (h : Tab.wf d t = true) :
    Tab.wf d (t.filter f) = true := by
  simp only [Tab.wf, Bool.and_eq_true, List.all_eq_true, decide_eq_true_eq] at h ⊢
  exact ⟨Tab.sortedFrom_filter f h.1, fun c hc => h.2 c (List.mem_filter.1 hc).1⟩

theorem Tab.find?_erase_self {t : Tab α} {lo : Nat} (k : Nat) (h : t.sortedFrom lo = true) : (t.erase k).find? k = none := by
  induction t generalizing lo with
  | nil => rfl
  | cons c r ih =>
    obtain ⟨j, a⟩ := c
    simp only [Tab.sortedFrom, Bool.and_eq_true, decide_eq_true_eq] at h
    simp only [Tab.erase]
    split
    · rename_i e
      simp only [beq_iff_eq] at e
      exact Tab.find?_none_of_lt h.2 (by omega)
    · rename_i e
      simp only [beq_iff_eq] at e
      split
      · rw [Tab.find?, if_neg (by simpa using e), if_pos (by assumption)]
      · rw [Tab.find?, if_neg (by simpa using e), if_neg (by assumption)]
        exact ih h.2

theorem Tab.find?_erase_ne {t : Tab α} {lo k n : Nat} (h : t.sortedFrom lo = true) (hn : n ≠ k) :
    (t.erase k).find? n = t.find? n := by
  induction t generalizing lo with
  | nil => rfl
  | cons c r ih =>
    obtain ⟨j, a⟩ := c
    simp only [Tab.sortedFrom, Bool.and_eq_true, decide_eq_true_eq] at h
    simp only [Tab.erase]
    split
    · rename_i e
      simp only [beq_iff_eq] at e
      subst e
      rw [Tab.find?, if_neg (by simpa using Ne.symm hn)]
      split
      · exact Tab.find?_none_of_lt h.2 (by omega)
      · rfl
    · split
      · rfl
      · simp only [Tab.find?, ih h.2]

/-- Reading a canonical table after a put. -/
theorem Tab.get_put [DecidableEq α] {d : α} {t : Tab α} (k n : Nat) (v : α) (h : Tab.wf d t = true) :
    Tab.get d (Tab.put d t k v) n = if n = k then v else Tab.get d t n := by
  simp only [Tab.wf, Bool.and_eq_true] at h
  unfold Tab.put
  split
  · rename_i e
    unfold Tab.get
    split
    · subst n; rw [Tab.find?_erase_self k h.1, e]; rfl
    · rw [Tab.find?_erase_ne h.1 ‹_›]
  · exact Tab.get_set d t k n v

end Sys2Proof
end

