-- ==== Sys2Proof/Laws/Memory.lean ====
section
/-! SUPPORT. Laws of memory: what a byte reads as after a write, and that every operation keeps the canonical form. -/

namespace Sys2Proof.Machine

@[simp] theorem Memory.heal_cells (m : Memory) (pa n : Nat) : (m.heal pa n).cells = m.cells := rfl
@[simp] theorem Memory.poison_cells (m : Memory) (pa n : Nat) : (m.poison pa n).cells = m.cells := rfl
@[simp] theorem Memory.mark_cells (m : Memory) (w : Nat) (b : Bool) : (m.mark w b).cells = m.cells := rfl
@[simp] theorem Memory.flagLines_cells (m : Memory) (pa n : Nat) : (m.flagLines pa n).cells = m.cells := rfl

@[simp] theorem Memory.unzero_cells (m : Memory) (pa : Nat) (bs : List Byte) : (m.unzero pa bs).cells = m.cells := by
  unfold Memory.unzero; split <;> rfl

@[simp] theorem Memory.lineFlags_cells (m : Memory) (pa : Nat) (bs : List Byte) : (m.lineFlags pa bs).cells = m.cells := by
  unfold Memory.lineFlags; split <;> rfl

theorem Memory.get_congr {m m' : Memory} (h : m.cells = m'.cells) (a : Nat) : m.get a = m'.get a := by
  simp [Memory.get, h]

theorem Memory.wf_congr {m m' : Memory} (h : m'.cells = m.cells) (hm : m.wf = true) : m'.wf = true := by
  simpa [Memory.wf, h] using hm

theorem Memory.wf_put {m : Memory} (h : m.wf = true) (pa : Nat) (b : Byte) : (m.put pa b).wf = true := Tab.wf_put pa b h

theorem Memory.get_put {m : Memory} (h : m.wf = true) (pa a : Nat) (b : Byte) :
    (m.put pa b).get a = if a = pa then b else m.get a := Tab.get_put pa a b h

theorem Memory.wf_putBytes {m : Memory} (h : m.wf = true) (pa : Nat) (bs : List Byte) : (m.putBytes pa bs).wf = true := by
  induction bs generalizing m pa with
  | nil => exact h
  | cons b r ih => exact ih (Memory.wf_put h pa b) _

theorem Memory.get_putBytes {m : Memory} (h : m.wf = true) (pa a : Nat) (bs : List Byte) :
    (m.putBytes pa bs).get a = if pa ≤ a ∧ a < pa + bs.length then bs.getD (a - pa) 0 else m.get a := by
  induction bs generalizing m pa with
  | nil => simp [Memory.putBytes] <;> omega
  | cons b r ih =>
    rw [Memory.putBytes, ih (Memory.wf_put h pa b), Memory.get_put h]
    by_cases e : a = pa
    · subst e
      rw [if_neg (by omega), if_pos rfl, if_pos (by simp)]
      simp
    · by_cases e2 : pa + 1 ≤ a ∧ a < pa + 1 + r.length
      · rw [if_pos e2, if_pos (by simp; omega)]
        have : a - pa = (a - (pa + 1)) + 1 := by omega
        rw [this]; simp
      · rw [if_neg e2, if_neg e, if_neg (by simp; omega)]

@[simp] theorem Memory.write_cells (m : Memory) (pa : Nat) (bs : List Byte) : (m.write pa bs).cells = (m.putBytes pa bs).cells := by
  simp [Memory.write]

/-- A write keeps the canonical form. -/
theorem Memory.wf_write {m : Memory} (h : m.wf = true) (pa : Nat) (bs : List Byte) : (m.write pa bs).wf = true :=
  Memory.wf_congr (by simp) (Memory.wf_putBytes h pa bs)

theorem Memory.wf_writeNat {m : Memory} (h : m.wf = true) (pa n v : Nat) : (m.writeNat pa n v).wf = true :=
  Memory.wf_write h pa _

theorem Memory.wf_poison {m : Memory} (h : m.wf = true) (pa n : Nat) : (m.poison pa n).wf = true := h
theorem Memory.wf_mark {m : Memory} (h : m.wf = true) (w : Nat) (b : Bool) : (m.mark w b).wf = true := h
theorem Memory.wf_flagLines {m : Memory} (h : m.wf = true) (pa n : Nat) : (m.flagLines pa n).wf = true := h

/-- What the L2's reads change is the zero-line flags alone (R153). -/
theorem Memory.install_keeps (m : Memory) (pa : Nat) : { m.install pa with zline := m.zline } = m := by
  unfold Memory.install; split <;> rfl

theorem Memory.installAll_keeps (m : Memory) (pa n : Nat) : { m.installAll pa n with zline := m.zline } = m := by
  unfold Memory.installAll
  generalize upto (pa / 128) ((pa + n + 127) / 128 - pa / 128) = l
  induction l generalizing m with
  | nil => rfl
  | cons x r ih =>
    have h := congrArg (fun k : Memory => { k with zline := m.zline }) (ih (m.install (128 * x)))
    exact h.trans (m.install_keeps _)

@[simp] theorem Memory.installAll_cells (m : Memory) (pa n : Nat) : (m.installAll pa n).cells = m.cells := by
  have h := congrArg Memory.cells (m.installAll_keeps pa n)
  exact h

theorem Memory.wf_installAll {m : Memory} (h : m.wf = true) (pa n : Nat) : (m.installAll pa n).wf = true :=
  Memory.wf_congr (m.installAll_cells pa n) h

theorem Memory.wf_zero {m : Memory} (h : m.wf = true) (pa n : Nat) : (m.zero pa n).wf = true := Tab.wf_filter _ h

/-- A byte after a write: the written one inside the write's range, the old one outside it. -/
theorem Memory.wf_wipe {m : Memory} (h : m.wf = true) (pa n : Nat) : (m.wipe pa n).wf = true :=
  Memory.wf_congr (m := m.zero pa n) rfl (Memory.wf_zero h pa n)

theorem Memory.get_write {m : Memory} (h : m.wf = true) (pa a : Nat) (bs : List Byte) :
    (m.write pa bs).get a = if pa ≤ a ∧ a < pa + bs.length then bs.getD (a - pa) 0 else m.get a :=
  (Memory.get_congr (by simp) a).trans (Memory.get_putBytes h pa a bs)

theorem Memory.length_read (m : Memory) (pa n : Nat) : (m.read pa n).length = n := by
  induction n generalizing pa with
  | zero => rfl
  | succ n ih => simp [Memory.read, ih]

/-- A read in two parts. -/
theorem Memory.read_append (m : Memory) (pa n k : Nat) : m.read pa (n + k) = m.read pa n ++ m.read (pa + n) k := by
  induction n generalizing pa with
  | zero => simp [Memory.read]
  | succ n ih => rw [Nat.succ_add, Memory.read, ih, Memory.read, List.cons_append, Nat.add_assoc, Nat.add_comm 1 n]

@[simp] theorem Memory.putBytes_bad (m : Memory) (pa : Nat) (bs : List Byte) : (m.putBytes pa bs).bad = m.bad := by
  induction bs generalizing m pa with
  | nil => rfl
  | cons b r ih => exact ih _ _

@[simp] theorem Memory.putBytes_lost (m : Memory) (pa : Nat) (bs : List Byte) : (m.putBytes pa bs).lost = m.lost := by
  induction bs generalizing m pa with
  | nil => rfl
  | cons b r ih => exact ih _ _

@[simp] theorem Memory.write_lost (m : Memory) (pa : Nat) (bs : List Byte) : (m.write pa bs).lost = m.lost := by
  unfold Memory.write Memory.lineFlags Memory.unzero
  split <;> split <;> simp [Memory.heal]

@[simp] theorem Memory.write_bad (m : Memory) (pa : Nat) (bs : List Byte) : (m.write pa bs).bad = (m.heal pa bs.length).bad := by
  unfold Memory.write Memory.lineFlags Memory.unzero
  split <;> split <;> simp [Memory.heal]

theorem Memory.write_bad_nil {m : Memory} (h : m.bad = []) (pa : Nat) (bs : List Byte) : (m.write pa bs).bad = [] := by
  simp [Memory.heal, h]

/-- Memory without a poisoned word or a lost channel group is not poisoned after a write (R154). -/
theorem Memory.poisoned_write {m : Memory} (hb : m.bad = []) (hl : m.lost = []) (pa a n : Nat) (bs : List Byte) :
    (m.write pa bs).poisoned a n = false := by
  simp [Memory.poisoned, Memory.lostIn, hb, hl, Memory.heal]

/-- A read does not see a write outside its range. -/
theorem Memory.read_write_ne {m : Memory} (h : m.wf = true) (pa a n : Nat) (bs : List Byte)
    (d : a + n ≤ pa ∨ pa + bs.length ≤ a) : (m.write pa bs).read a n = m.read a n := by
  induction n generalizing a with
  | zero => rfl
  | succ n ih => rw [Memory.read, Memory.read, Memory.get_write h, if_neg (by omega), ih (a + 1) (by omega)]

/-- A read of what was written gives it back. -/
theorem Memory.read_write_self {m : Memory} (h : m.wf = true) (pa : Nat) (bs : List Byte) :
    (m.write pa bs).read pa bs.length = bs := by
  suffices ∀ k a, a = pa + k → k ≤ bs.length → (m.write pa bs).read a (bs.length - k) = bs.drop k by
    simpa using this 0 pa rfl (Nat.zero_le _)
  intro k
  induction hk : bs.length - k generalizing k with
  | zero => intro a _ _; simp [Memory.read]; omega
  | succ n ih =>
    intro a ha hl
    rw [Memory.read, Memory.get_write h, if_pos (by omega), ih (k + 1) (by omega) (a + 1) (by omega) (by omega)]
    have : k < bs.length := by omega
    rw [List.drop_eq_getElem_cons this]
    have : a - pa = k := by omega
    simp [this, List.getD_eq_getElem?_getD, List.getElem?_eq_getElem ‹k < bs.length›]

theorem length_toBytes (n v : Nat) : (toBytes n v).length = n := by
  induction n generalizing v with
  | zero => rfl
  | succ n ih => simp [toBytes, ih]

theorem ofBytes_toBytes (n v : Nat) : ofBytes (toBytes n v) = v % 256 ^ n := by
  induction n generalizing v with
  | zero => simp [toBytes, ofBytes, Nat.mod_one]
  | succ n ih =>
    rw [toBytes, ofBytes, ih, BitVec.toNat_ofNat, show 256 ^ (n + 1) = 256 * 256 ^ n from Nat.pow_succ', Nat.mod_mul]

/-- A number written and read back, cut to its bytes (R5). -/
theorem Memory.readNat_writeNat {m : Memory} (h : m.wf = true) (pa n v : Nat) :
    (m.writeNat pa n v).readNat pa n = v % 256 ^ n := by
  have := Memory.read_write_self h pa (toBytes n v)
  rw [length_toBytes] at this
  rw [Memory.readNat, Memory.writeNat, this, ofBytes_toBytes]

end Sys2Proof.Machine
end

