-- ==== Sys2Proof/Laws/State.lean ====
section
/-! SUPPORT. Laws of the state's updates: one lemma for each field and each update, and what an accessor reads after one. -/

namespace Sys2Proof.Machine

variable (s : State)

@[simp] theorem State.setCore_sched (c : Nat) (x : Core) : (s.setCore c x).sched = s.sched := rfl
@[simp] theorem State.setCore_turn (c : Nat) (x : Core) : (s.setCore c x).turn = s.turn := rfl
@[simp] theorem State.setCore_fresh (c : Nat) (x : Core) : (s.setCore c x).fresh = s.fresh := rfl
@[simp] theorem State.setCore_pid (c : Nat) (x : Core) : (s.setCore c x).pid = s.pid := rfl
@[simp] theorem State.setCore_mem (c : Nat) (x : Core) : (s.setCore c x).mem = s.mem := rfl
@[simp] theorem State.setCore_part (c : Nat) (x : Core) : (s.setCore c x).part = s.part := rfl
@[simp] theorem State.setCore_cores (c : Nat) (x : Core) : (s.setCore c x).cores = Tab.set s.cores c x := rfl
@[simp] theorem State.setCore_clusters (c : Nat) (x : Core) : (s.setCore c x).clusters = s.clusters := rfl
@[simp] theorem State.setCore_dies (c : Nat) (x : Core) : (s.setCore c x).dies = s.dies := rfl
@[simp] theorem State.setCore_slices (c : Nat) (x : Core) : (s.setCore c x).slices = s.slices := rfl
@[simp] theorem State.setCore_vdevs (c : Nat) (x : Core) : (s.setCore c x).vdevs = s.vdevs := rfl
@[simp] theorem State.setCore_harts (c : Nat) (x : Core) : (s.setCore c x).harts = s.harts := rfl
@[simp] theorem State.setCore_teams (c : Nat) (x : Core) : (s.setCore c x).teams = s.teams := rfl
@[simp] theorem State.setCore_nextCtx (c : Nat) (x : Core) : (s.setCore c x).nextCtx = s.nextCtx := rfl
@[simp] theorem State.setCore_nextSeq (c : Nat) (x : Core) : (s.setCore c x).nextSeq = s.nextSeq := rfl
@[simp] theorem State.setCore_castle (c : Nat) (x : Core) : (s.setCore c x).castle = s.castle := rfl
@[simp] theorem State.core_setCore (c : Nat) (x : Core) : (s.setCore c x).core c = x := Tab.get_set_self _ _ _ _
theorem State.core_setCore_ne (c : Nat) (x : Core) {j : Nat} (h : j ≠ c) : (s.setCore c x).core j = s.core j := Tab.get_set_ne _ _ _ h
@[simp] theorem State.team_setCore (c : Nat) (x : Core) (j : Nat) : (s.setCore c x).team j = s.team j := rfl
@[simp] theorem State.cluster_setCore (c : Nat) (x : Core) (j : Nat) : (s.setCore c x).cluster j = s.cluster j := rfl
@[simp] theorem State.die_setCore (c : Nat) (x : Core) (j : Nat) : (s.setCore c x).die j = s.die j := rfl
@[simp] theorem State.slice_setCore (c : Nat) (x : Core) (j : Nat) : (s.setCore c x).slice j = s.slice j := rfl
@[simp] theorem State.hart_setCore (c : Nat) (x : Core) (j : Nat) : (s.setCore c x).hart j = s.hart j := rfl
@[simp] theorem State.vdev_setCore (c : Nat) (x : Core) (j : Nat) : (s.setCore c x).vdev j = s.vdev j := rfl

@[simp] theorem State.setTeam_sched (k : Nat) (x : Team) : (s.setTeam k x).sched = s.sched := rfl
@[simp] theorem State.setTeam_turn (k : Nat) (x : Team) : (s.setTeam k x).turn = s.turn := rfl
@[simp] theorem State.setTeam_fresh (k : Nat) (x : Team) : (s.setTeam k x).fresh = s.fresh := rfl
@[simp] theorem State.setTeam_pid (k : Nat) (x : Team) : (s.setTeam k x).pid = s.pid := rfl
@[simp] theorem State.setTeam_mem (k : Nat) (x : Team) : (s.setTeam k x).mem = s.mem := rfl
@[simp] theorem State.setTeam_part (k : Nat) (x : Team) : (s.setTeam k x).part = s.part := rfl
@[simp] theorem State.setTeam_cores (k : Nat) (x : Team) : (s.setTeam k x).cores = s.cores := rfl
@[simp] theorem State.setTeam_clusters (k : Nat) (x : Team) : (s.setTeam k x).clusters = s.clusters := rfl
@[simp] theorem State.setTeam_dies (k : Nat) (x : Team) : (s.setTeam k x).dies = s.dies := rfl
@[simp] theorem State.setTeam_slices (k : Nat) (x : Team) : (s.setTeam k x).slices = s.slices := rfl
@[simp] theorem State.setTeam_vdevs (k : Nat) (x : Team) : (s.setTeam k x).vdevs = s.vdevs := rfl
@[simp] theorem State.setTeam_harts (k : Nat) (x : Team) : (s.setTeam k x).harts = s.harts := rfl
@[simp] theorem State.setTeam_teams (k : Nat) (x : Team) : (s.setTeam k x).teams = Tab.set s.teams k x := rfl
@[simp] theorem State.setTeam_nextCtx (k : Nat) (x : Team) : (s.setTeam k x).nextCtx = s.nextCtx := rfl
@[simp] theorem State.setTeam_nextSeq (k : Nat) (x : Team) : (s.setTeam k x).nextSeq = s.nextSeq := rfl
@[simp] theorem State.setTeam_castle (k : Nat) (x : Team) : (s.setTeam k x).castle = s.castle := rfl
@[simp] theorem State.core_setTeam (k : Nat) (x : Team) (j : Nat) : (s.setTeam k x).core j = s.core j := rfl
@[simp] theorem State.team_setTeam (k : Nat) (x : Team) : (s.setTeam k x).team k = x := Tab.get_set_self _ _ _ _
theorem State.team_setTeam_ne (k : Nat) (x : Team) {j : Nat} (h : j ≠ k) : (s.setTeam k x).team j = s.team j := Tab.get_set_ne _ _ _ h
@[simp] theorem State.cluster_setTeam (k : Nat) (x : Team) (j : Nat) : (s.setTeam k x).cluster j = s.cluster j := rfl
@[simp] theorem State.die_setTeam (k : Nat) (x : Team) (j : Nat) : (s.setTeam k x).die j = s.die j := rfl
@[simp] theorem State.slice_setTeam (k : Nat) (x : Team) (j : Nat) : (s.setTeam k x).slice j = s.slice j := rfl
@[simp] theorem State.hart_setTeam (k : Nat) (x : Team) (j : Nat) : (s.setTeam k x).hart j = s.hart j := rfl
@[simp] theorem State.vdev_setTeam (k : Nat) (x : Team) (j : Nat) : (s.setTeam k x).vdev j = s.vdev j := rfl

@[simp] theorem State.setCluster_sched (n : Nat) (x : Cluster) : (s.setCluster n x).sched = s.sched := rfl
@[simp] theorem State.setCluster_turn (n : Nat) (x : Cluster) : (s.setCluster n x).turn = s.turn := rfl
@[simp] theorem State.setCluster_fresh (n : Nat) (x : Cluster) : (s.setCluster n x).fresh = s.fresh := rfl
@[simp] theorem State.setCluster_pid (n : Nat) (x : Cluster) : (s.setCluster n x).pid = s.pid := rfl
@[simp] theorem State.setCluster_mem (n : Nat) (x : Cluster) : (s.setCluster n x).mem = s.mem := rfl
@[simp] theorem State.setCluster_part (n : Nat) (x : Cluster) : (s.setCluster n x).part = s.part := rfl
@[simp] theorem State.setCluster_cores (n : Nat) (x : Cluster) : (s.setCluster n x).cores = s.cores := rfl
@[simp] theorem State.setCluster_clusters (n : Nat) (x : Cluster) : (s.setCluster n x).clusters = Tab.set s.clusters n x := rfl
@[simp] theorem State.setCluster_dies (n : Nat) (x : Cluster) : (s.setCluster n x).dies = s.dies := rfl
@[simp] theorem State.setCluster_slices (n : Nat) (x : Cluster) : (s.setCluster n x).slices = s.slices := rfl
@[simp] theorem State.setCluster_vdevs (n : Nat) (x : Cluster) : (s.setCluster n x).vdevs = s.vdevs := rfl
@[simp] theorem State.setCluster_harts (n : Nat) (x : Cluster) : (s.setCluster n x).harts = s.harts := rfl
@[simp] theorem State.setCluster_teams (n : Nat) (x : Cluster) : (s.setCluster n x).teams = s.teams := rfl
@[simp] theorem State.setCluster_nextCtx (n : Nat) (x : Cluster) : (s.setCluster n x).nextCtx = s.nextCtx := rfl
@[simp] theorem State.setCluster_nextSeq (n : Nat) (x : Cluster) : (s.setCluster n x).nextSeq = s.nextSeq := rfl
@[simp] theorem State.setCluster_castle (n : Nat) (x : Cluster) : (s.setCluster n x).castle = s.castle := rfl
@[simp] theorem State.core_setCluster (n : Nat) (x : Cluster) (j : Nat) : (s.setCluster n x).core j = s.core j := rfl
@[simp] theorem State.team_setCluster (n : Nat) (x : Cluster) (j : Nat) : (s.setCluster n x).team j = s.team j := rfl
@[simp] theorem State.cluster_setCluster (n : Nat) (x : Cluster) : (s.setCluster n x).cluster n = x := Tab.get_set_self _ _ _ _
theorem State.cluster_setCluster_ne (n : Nat) (x : Cluster) {j : Nat} (h : j ≠ n) : (s.setCluster n x).cluster j = s.cluster j := Tab.get_set_ne _ _ _ h
@[simp] theorem State.die_setCluster (n : Nat) (x : Cluster) (j : Nat) : (s.setCluster n x).die j = s.die j := rfl
@[simp] theorem State.slice_setCluster (n : Nat) (x : Cluster) (j : Nat) : (s.setCluster n x).slice j = s.slice j := rfl
@[simp] theorem State.hart_setCluster (n : Nat) (x : Cluster) (j : Nat) : (s.setCluster n x).hart j = s.hart j := rfl
@[simp] theorem State.vdev_setCluster (n : Nat) (x : Cluster) (j : Nat) : (s.setCluster n x).vdev j = s.vdev j := rfl

@[simp] theorem State.setDie_sched (d : Nat) (x : Die) : (s.setDie d x).sched = s.sched := rfl
@[simp] theorem State.setDie_turn (d : Nat) (x : Die) : (s.setDie d x).turn = s.turn := rfl
@[simp] theorem State.setDie_fresh (d : Nat) (x : Die) : (s.setDie d x).fresh = s.fresh := rfl
@[simp] theorem State.setDie_pid (d : Nat) (x : Die) : (s.setDie d x).pid = s.pid := rfl
@[simp] theorem State.setDie_mem (d : Nat) (x : Die) : (s.setDie d x).mem = s.mem := rfl
@[simp] theorem State.setDie_part (d : Nat) (x : Die) : (s.setDie d x).part = s.part := rfl
@[simp] theorem State.setDie_cores (d : Nat) (x : Die) : (s.setDie d x).cores = s.cores := rfl
@[simp] theorem State.setDie_clusters (d : Nat) (x : Die) : (s.setDie d x).clusters = s.clusters := rfl
@[simp] theorem State.setDie_dies (d : Nat) (x : Die) : (s.setDie d x).dies = Tab.set s.dies d x := rfl
@[simp] theorem State.setDie_slices (d : Nat) (x : Die) : (s.setDie d x).slices = s.slices := rfl
@[simp] theorem State.setDie_vdevs (d : Nat) (x : Die) : (s.setDie d x).vdevs = s.vdevs := rfl
@[simp] theorem State.setDie_harts (d : Nat) (x : Die) : (s.setDie d x).harts = s.harts := rfl
@[simp] theorem State.setDie_teams (d : Nat) (x : Die) : (s.setDie d x).teams = s.teams := rfl
@[simp] theorem State.setDie_nextCtx (d : Nat) (x : Die) : (s.setDie d x).nextCtx = s.nextCtx := rfl
@[simp] theorem State.setDie_nextSeq (d : Nat) (x : Die) : (s.setDie d x).nextSeq = s.nextSeq := rfl
@[simp] theorem State.setDie_castle (d : Nat) (x : Die) : (s.setDie d x).castle = s.castle := rfl
@[simp] theorem State.core_setDie (d : Nat) (x : Die) (j : Nat) : (s.setDie d x).core j = s.core j := rfl
@[simp] theorem State.team_setDie (d : Nat) (x : Die) (j : Nat) : (s.setDie d x).team j = s.team j := rfl
@[simp] theorem State.cluster_setDie (d : Nat) (x : Die) (j : Nat) : (s.setDie d x).cluster j = s.cluster j := rfl
@[simp] theorem State.die_setDie (d : Nat) (x : Die) : (s.setDie d x).die d = x := Tab.get_set_self _ _ _ _
theorem State.die_setDie_ne (d : Nat) (x : Die) {j : Nat} (h : j ≠ d) : (s.setDie d x).die j = s.die j := Tab.get_set_ne _ _ _ h
@[simp] theorem State.slice_setDie (d : Nat) (x : Die) (j : Nat) : (s.setDie d x).slice j = s.slice j := rfl
@[simp] theorem State.hart_setDie (d : Nat) (x : Die) (j : Nat) : (s.setDie d x).hart j = s.hart j := rfl
@[simp] theorem State.vdev_setDie (d : Nat) (x : Die) (j : Nat) : (s.setDie d x).vdev j = s.vdev j := rfl

@[simp] theorem State.setSlice_sched (i : Nat) (x : Slice) : (s.setSlice i x).sched = s.sched := rfl
@[simp] theorem State.setSlice_turn (i : Nat) (x : Slice) : (s.setSlice i x).turn = s.turn := rfl
@[simp] theorem State.setSlice_fresh (i : Nat) (x : Slice) : (s.setSlice i x).fresh = s.fresh := rfl
@[simp] theorem State.setSlice_pid (i : Nat) (x : Slice) : (s.setSlice i x).pid = s.pid := rfl
@[simp] theorem State.setSlice_mem (i : Nat) (x : Slice) : (s.setSlice i x).mem = s.mem := rfl
@[simp] theorem State.setSlice_part (i : Nat) (x : Slice) : (s.setSlice i x).part = s.part := rfl
@[simp] theorem State.setSlice_cores (i : Nat) (x : Slice) : (s.setSlice i x).cores = s.cores := rfl
@[simp] theorem State.setSlice_clusters (i : Nat) (x : Slice) : (s.setSlice i x).clusters = s.clusters := rfl
@[simp] theorem State.setSlice_dies (i : Nat) (x : Slice) : (s.setSlice i x).dies = s.dies := rfl
@[simp] theorem State.setSlice_slices (i : Nat) (x : Slice) : (s.setSlice i x).slices = Tab.set s.slices i x := rfl
@[simp] theorem State.setSlice_vdevs (i : Nat) (x : Slice) : (s.setSlice i x).vdevs = s.vdevs := rfl
@[simp] theorem State.setSlice_harts (i : Nat) (x : Slice) : (s.setSlice i x).harts = s.harts := rfl
@[simp] theorem State.setSlice_teams (i : Nat) (x : Slice) : (s.setSlice i x).teams = s.teams := rfl
@[simp] theorem State.setSlice_nextCtx (i : Nat) (x : Slice) : (s.setSlice i x).nextCtx = s.nextCtx := rfl
@[simp] theorem State.setSlice_nextSeq (i : Nat) (x : Slice) : (s.setSlice i x).nextSeq = s.nextSeq := rfl
@[simp] theorem State.setSlice_castle (i : Nat) (x : Slice) : (s.setSlice i x).castle = s.castle := rfl
@[simp] theorem State.core_setSlice (i : Nat) (x : Slice) (j : Nat) : (s.setSlice i x).core j = s.core j := rfl
@[simp] theorem State.team_setSlice (i : Nat) (x : Slice) (j : Nat) : (s.setSlice i x).team j = s.team j := rfl
@[simp] theorem State.cluster_setSlice (i : Nat) (x : Slice) (j : Nat) : (s.setSlice i x).cluster j = s.cluster j := rfl
@[simp] theorem State.die_setSlice (i : Nat) (x : Slice) (j : Nat) : (s.setSlice i x).die j = s.die j := rfl
@[simp] theorem State.slice_setSlice (i : Nat) (x : Slice) : (s.setSlice i x).slice i = x := Tab.get_set_self _ _ _ _
theorem State.slice_setSlice_ne (i : Nat) (x : Slice) {j : Nat} (h : j ≠ i) : (s.setSlice i x).slice j = s.slice j := Tab.get_set_ne _ _ _ h
@[simp] theorem State.hart_setSlice (i : Nat) (x : Slice) (j : Nat) : (s.setSlice i x).hart j = s.hart j := rfl
@[simp] theorem State.vdev_setSlice (i : Nat) (x : Slice) (j : Nat) : (s.setSlice i x).vdev j = s.vdev j := rfl

@[simp] theorem State.setHart_sched (n : Nat) (x : Hart) : (s.setHart n x).sched = s.sched := rfl
@[simp] theorem State.setHart_turn (n : Nat) (x : Hart) : (s.setHart n x).turn = s.turn := rfl
@[simp] theorem State.setHart_fresh (n : Nat) (x : Hart) : (s.setHart n x).fresh = s.fresh := rfl
@[simp] theorem State.setHart_pid (n : Nat) (x : Hart) : (s.setHart n x).pid = s.pid := rfl
@[simp] theorem State.setHart_mem (n : Nat) (x : Hart) : (s.setHart n x).mem = s.mem := rfl
@[simp] theorem State.setHart_part (n : Nat) (x : Hart) : (s.setHart n x).part = s.part := rfl
@[simp] theorem State.setHart_cores (n : Nat) (x : Hart) : (s.setHart n x).cores = s.cores := rfl
@[simp] theorem State.setHart_clusters (n : Nat) (x : Hart) : (s.setHart n x).clusters = s.clusters := rfl
@[simp] theorem State.setHart_dies (n : Nat) (x : Hart) : (s.setHart n x).dies = s.dies := rfl
@[simp] theorem State.setHart_slices (n : Nat) (x : Hart) : (s.setHart n x).slices = s.slices := rfl
@[simp] theorem State.setHart_vdevs (n : Nat) (x : Hart) : (s.setHart n x).vdevs = s.vdevs := rfl
@[simp] theorem State.setHart_harts (n : Nat) (x : Hart) : (s.setHart n x).harts = Tab.set s.harts n x := rfl
@[simp] theorem State.setHart_teams (n : Nat) (x : Hart) : (s.setHart n x).teams = s.teams := rfl
@[simp] theorem State.setHart_nextCtx (n : Nat) (x : Hart) : (s.setHart n x).nextCtx = s.nextCtx := rfl
@[simp] theorem State.setHart_nextSeq (n : Nat) (x : Hart) : (s.setHart n x).nextSeq = s.nextSeq := rfl
@[simp] theorem State.setHart_castle (n : Nat) (x : Hart) : (s.setHart n x).castle = s.castle := rfl
@[simp] theorem State.core_setHart (n : Nat) (x : Hart) (j : Nat) : (s.setHart n x).core j = s.core j := rfl
@[simp] theorem State.team_setHart (n : Nat) (x : Hart) (j : Nat) : (s.setHart n x).team j = s.team j := rfl
@[simp] theorem State.cluster_setHart (n : Nat) (x : Hart) (j : Nat) : (s.setHart n x).cluster j = s.cluster j := rfl
@[simp] theorem State.die_setHart (n : Nat) (x : Hart) (j : Nat) : (s.setHart n x).die j = s.die j := rfl
@[simp] theorem State.slice_setHart (n : Nat) (x : Hart) (j : Nat) : (s.setHart n x).slice j = s.slice j := rfl
@[simp] theorem State.hart_setHart (n : Nat) (x : Hart) : (s.setHart n x).hart n = x := Tab.get_set_self _ _ _ _
theorem State.hart_setHart_ne (n : Nat) (x : Hart) {j : Nat} (h : j ≠ n) : (s.setHart n x).hart j = s.hart j := Tab.get_set_ne _ _ _ h
@[simp] theorem State.vdev_setHart (n : Nat) (x : Hart) (j : Nat) : (s.setHart n x).vdev j = s.vdev j := rfl

@[simp] theorem State.setVdev_sched (v : Nat) (x : Vdev) : (s.setVdev v x).sched = s.sched := rfl
@[simp] theorem State.setVdev_turn (v : Nat) (x : Vdev) : (s.setVdev v x).turn = s.turn := rfl
@[simp] theorem State.setVdev_fresh (v : Nat) (x : Vdev) : (s.setVdev v x).fresh = s.fresh := rfl
@[simp] theorem State.setVdev_pid (v : Nat) (x : Vdev) : (s.setVdev v x).pid = s.pid := rfl
@[simp] theorem State.setVdev_mem (v : Nat) (x : Vdev) : (s.setVdev v x).mem = s.mem := rfl
@[simp] theorem State.setVdev_part (v : Nat) (x : Vdev) : (s.setVdev v x).part = s.part := rfl
@[simp] theorem State.setVdev_cores (v : Nat) (x : Vdev) : (s.setVdev v x).cores = s.cores := rfl
@[simp] theorem State.setVdev_clusters (v : Nat) (x : Vdev) : (s.setVdev v x).clusters = s.clusters := rfl
@[simp] theorem State.setVdev_dies (v : Nat) (x : Vdev) : (s.setVdev v x).dies = s.dies := rfl
@[simp] theorem State.setVdev_slices (v : Nat) (x : Vdev) : (s.setVdev v x).slices = s.slices := rfl
@[simp] theorem State.setVdev_vdevs (v : Nat) (x : Vdev) : (s.setVdev v x).vdevs = Tab.set s.vdevs v x := rfl
@[simp] theorem State.setVdev_harts (v : Nat) (x : Vdev) : (s.setVdev v x).harts = s.harts := rfl
@[simp] theorem State.setVdev_teams (v : Nat) (x : Vdev) : (s.setVdev v x).teams = s.teams := rfl
@[simp] theorem State.setVdev_nextCtx (v : Nat) (x : Vdev) : (s.setVdev v x).nextCtx = s.nextCtx := rfl
@[simp] theorem State.setVdev_nextSeq (v : Nat) (x : Vdev) : (s.setVdev v x).nextSeq = s.nextSeq := rfl
@[simp] theorem State.setVdev_castle (v : Nat) (x : Vdev) : (s.setVdev v x).castle = s.castle := rfl
@[simp] theorem State.core_setVdev (v : Nat) (x : Vdev) (j : Nat) : (s.setVdev v x).core j = s.core j := rfl
@[simp] theorem State.team_setVdev (v : Nat) (x : Vdev) (j : Nat) : (s.setVdev v x).team j = s.team j := rfl
@[simp] theorem State.cluster_setVdev (v : Nat) (x : Vdev) (j : Nat) : (s.setVdev v x).cluster j = s.cluster j := rfl
@[simp] theorem State.die_setVdev (v : Nat) (x : Vdev) (j : Nat) : (s.setVdev v x).die j = s.die j := rfl
@[simp] theorem State.slice_setVdev (v : Nat) (x : Vdev) (j : Nat) : (s.setVdev v x).slice j = s.slice j := rfl
@[simp] theorem State.hart_setVdev (v : Nat) (x : Vdev) (j : Nat) : (s.setVdev v x).hart j = s.hart j := rfl
@[simp] theorem State.vdev_setVdev (v : Nat) (x : Vdev) : (s.setVdev v x).vdev v = x := Tab.get_set_self _ _ _ _
theorem State.vdev_setVdev_ne (v : Nat) (x : Vdev) {j : Nat} (h : j ≠ v) : (s.setVdev v x).vdev j = s.vdev j := Tab.get_set_ne _ _ _ h

@[simp] theorem State.setMem_sched (m : Memory) : (s.setMem m).sched = s.sched := rfl
@[simp] theorem State.setMem_turn (m : Memory) : (s.setMem m).turn = s.turn := rfl
@[simp] theorem State.setMem_fresh (m : Memory) : (s.setMem m).fresh = s.fresh := rfl
@[simp] theorem State.setMem_pid (m : Memory) : (s.setMem m).pid = s.pid := rfl
@[simp] theorem State.setMem_mem (m : Memory) : (s.setMem m).mem = m := rfl
@[simp] theorem State.setMem_part (m : Memory) : (s.setMem m).part = s.part := rfl
@[simp] theorem State.setMem_cores (m : Memory) : (s.setMem m).cores = s.cores := rfl
@[simp] theorem State.setMem_clusters (m : Memory) : (s.setMem m).clusters = s.clusters := rfl
@[simp] theorem State.setMem_dies (m : Memory) : (s.setMem m).dies = s.dies := rfl
@[simp] theorem State.setMem_slices (m : Memory) : (s.setMem m).slices = s.slices := rfl
@[simp] theorem State.setMem_vdevs (m : Memory) : (s.setMem m).vdevs = s.vdevs := rfl
@[simp] theorem State.setMem_harts (m : Memory) : (s.setMem m).harts = s.harts := rfl
@[simp] theorem State.setMem_teams (m : Memory) : (s.setMem m).teams = s.teams := rfl
@[simp] theorem State.setMem_nextCtx (m : Memory) : (s.setMem m).nextCtx = s.nextCtx := rfl
@[simp] theorem State.setMem_nextSeq (m : Memory) : (s.setMem m).nextSeq = s.nextSeq := rfl
@[simp] theorem State.setMem_castle (m : Memory) : (s.setMem m).castle = s.castle := rfl
@[simp] theorem State.core_setMem (m : Memory) (j : Nat) : (s.setMem m).core j = s.core j := rfl
@[simp] theorem State.team_setMem (m : Memory) (j : Nat) : (s.setMem m).team j = s.team j := rfl
@[simp] theorem State.cluster_setMem (m : Memory) (j : Nat) : (s.setMem m).cluster j = s.cluster j := rfl
@[simp] theorem State.die_setMem (m : Memory) (j : Nat) : (s.setMem m).die j = s.die j := rfl
@[simp] theorem State.slice_setMem (m : Memory) (j : Nat) : (s.setMem m).slice j = s.slice j := rfl
@[simp] theorem State.hart_setMem (m : Memory) (j : Nat) : (s.setMem m).hart j = s.hart j := rfl
@[simp] theorem State.vdev_setMem (m : Memory) (j : Nat) : (s.setMem m).vdev j = s.vdev j := rfl

@[simp] theorem State.setPart_sched (p : Part) : (s.setPart p).sched = s.sched := rfl
@[simp] theorem State.setPart_turn (p : Part) : (s.setPart p).turn = s.turn := rfl
@[simp] theorem State.setPart_fresh (p : Part) : (s.setPart p).fresh = s.fresh := rfl
@[simp] theorem State.setPart_pid (p : Part) : (s.setPart p).pid = s.pid := rfl
@[simp] theorem State.setPart_mem (p : Part) : (s.setPart p).mem = s.mem := rfl
@[simp] theorem State.setPart_part (p : Part) : (s.setPart p).part = p := rfl
@[simp] theorem State.setPart_cores (p : Part) : (s.setPart p).cores = s.cores := rfl
@[simp] theorem State.setPart_clusters (p : Part) : (s.setPart p).clusters = s.clusters := rfl
@[simp] theorem State.setPart_dies (p : Part) : (s.setPart p).dies = s.dies := rfl
@[simp] theorem State.setPart_slices (p : Part) : (s.setPart p).slices = s.slices := rfl
@[simp] theorem State.setPart_vdevs (p : Part) : (s.setPart p).vdevs = s.vdevs := rfl
@[simp] theorem State.setPart_harts (p : Part) : (s.setPart p).harts = s.harts := rfl
@[simp] theorem State.setPart_teams (p : Part) : (s.setPart p).teams = s.teams := rfl
@[simp] theorem State.setPart_nextCtx (p : Part) : (s.setPart p).nextCtx = s.nextCtx := rfl
@[simp] theorem State.setPart_nextSeq (p : Part) : (s.setPart p).nextSeq = s.nextSeq := rfl
@[simp] theorem State.setPart_castle (p : Part) : (s.setPart p).castle = s.castle := rfl
@[simp] theorem State.core_setPart (p : Part) (j : Nat) : (s.setPart p).core j = s.core j := rfl
@[simp] theorem State.team_setPart (p : Part) (j : Nat) : (s.setPart p).team j = s.team j := rfl
@[simp] theorem State.cluster_setPart (p : Part) (j : Nat) : (s.setPart p).cluster j = s.cluster j := rfl
@[simp] theorem State.die_setPart (p : Part) (j : Nat) : (s.setPart p).die j = s.die j := rfl
@[simp] theorem State.slice_setPart (p : Part) (j : Nat) : (s.setPart p).slice j = s.slice j := rfl
@[simp] theorem State.hart_setPart (p : Part) (j : Nat) : (s.setPart p).hart j = s.hart j := rfl
@[simp] theorem State.vdev_setPart (p : Part) (j : Nat) : (s.setPart p).vdev j = s.vdev j := rfl

@[simp] theorem State.setCastle_sched (c : Castle) : (s.setCastle c).sched = s.sched := rfl
@[simp] theorem State.setCastle_turn (c : Castle) : (s.setCastle c).turn = s.turn := rfl
@[simp] theorem State.setCastle_fresh (c : Castle) : (s.setCastle c).fresh = s.fresh := rfl
@[simp] theorem State.setCastle_pid (c : Castle) : (s.setCastle c).pid = s.pid := rfl
@[simp] theorem State.setCastle_mem (c : Castle) : (s.setCastle c).mem = s.mem := rfl
@[simp] theorem State.setCastle_part (c : Castle) : (s.setCastle c).part = s.part := rfl
@[simp] theorem State.setCastle_cores (c : Castle) : (s.setCastle c).cores = s.cores := rfl
@[simp] theorem State.setCastle_clusters (c : Castle) : (s.setCastle c).clusters = s.clusters := rfl
@[simp] theorem State.setCastle_dies (c : Castle) : (s.setCastle c).dies = s.dies := rfl
@[simp] theorem State.setCastle_slices (c : Castle) : (s.setCastle c).slices = s.slices := rfl
@[simp] theorem State.setCastle_vdevs (c : Castle) : (s.setCastle c).vdevs = s.vdevs := rfl
@[simp] theorem State.setCastle_harts (c : Castle) : (s.setCastle c).harts = s.harts := rfl
@[simp] theorem State.setCastle_teams (c : Castle) : (s.setCastle c).teams = s.teams := rfl
@[simp] theorem State.setCastle_nextCtx (c : Castle) : (s.setCastle c).nextCtx = s.nextCtx := rfl
@[simp] theorem State.setCastle_nextSeq (c : Castle) : (s.setCastle c).nextSeq = s.nextSeq := rfl
@[simp] theorem State.setCastle_castle (c : Castle) : (s.setCastle c).castle = c := rfl
@[simp] theorem State.core_setCastle (c : Castle) (j : Nat) : (s.setCastle c).core j = s.core j := rfl
@[simp] theorem State.team_setCastle (c : Castle) (j : Nat) : (s.setCastle c).team j = s.team j := rfl
@[simp] theorem State.cluster_setCastle (c : Castle) (j : Nat) : (s.setCastle c).cluster j = s.cluster j := rfl
@[simp] theorem State.die_setCastle (c : Castle) (j : Nat) : (s.setCastle c).die j = s.die j := rfl
@[simp] theorem State.slice_setCastle (c : Castle) (j : Nat) : (s.setCastle c).slice j = s.slice j := rfl
@[simp] theorem State.hart_setCastle (c : Castle) (j : Nat) : (s.setCastle c).hart j = s.hart j := rfl
@[simp] theorem State.vdev_setCastle (c : Castle) (j : Nat) : (s.setCastle c).vdev j = s.vdev j := rfl

@[simp] theorem Team.setThread_state (t : Team) (j : Nat) (x : Thread) : (t.setThread j x).state = t.state := rfl
@[simp] theorem Team.setThread_ctxid (t : Team) (j : Nat) (x : Thread) : (t.setThread j x).ctxid = t.ctxid := rfl
@[simp] theorem Team.setThread_slice (t : Team) (j : Nat) (x : Thread) : (t.setThread j x).slice = t.slice := rfl
@[simp] theorem Team.setThread_launch (t : Team) (j : Nat) (x : Thread) : (t.setThread j x).launch = t.launch := rfl
@[simp] theorem Team.setThread_grid (t : Team) (j : Nat) (x : Thread) : (t.setThread j x).grid = t.grid := rfl
@[simp] theorem Team.setThread_prio (t : Team) (j : Nat) (x : Thread) : (t.setThread j x).prio = t.prio := rfl
@[simp] theorem Team.setThread_sys (t : Team) (j : Nat) (x : Thread) : (t.setThread j x).sys = t.sys := rfl
@[simp] theorem Team.setThread_codep (t : Team) (j : Nat) (x : Thread) : (t.setThread j x).codep = t.codep := rfl
@[simp] theorem Team.setThread_qspawn (t : Team) (j : Nat) (x : Thread) : (t.setThread j x).qspawn = t.qspawn := rfl
@[simp] theorem Team.setThread_asid (t : Team) (j : Nat) (x : Thread) : (t.setThread j x).asid = t.asid := rfl
@[simp] theorem Team.setThread_vmid (t : Team) (j : Nat) (x : Thread) : (t.setThread j x).vmid = t.vmid := rfl
@[simp] theorem Team.setThread_satp (t : Team) (j : Nat) (x : Thread) : (t.setThread j x).satp = t.satp := rfl
@[simp] theorem Team.setThread_hgatp (t : Team) (j : Nat) (x : Thread) : (t.setThread j x).hgatp = t.hgatp := rfl
@[simp] theorem Team.setThread_imgBase (t : Team) (j : Nat) (x : Thread) : (t.setThread j x).imgBase = t.imgBase := rfl
@[simp] theorem Team.setThread_tsBase (t : Team) (j : Nat) (x : Thread) : (t.setThread j x).tsBase = t.tsBase := rfl
@[simp] theorem Team.setThread_tsUnits (t : Team) (j : Nat) (x : Thread) : (t.setThread j x).tsUnits = t.tsUnits := rfl
@[simp] theorem Team.setThread_kaddr (t : Team) (j : Nat) (x : Thread) : (t.setThread j x).kaddr = t.kaddr := rfl
@[simp] theorem Team.setThread_cctr (t : Team) (j : Nat) (x : Thread) : (t.setThread j x).cctr = t.cctr := rfl
@[simp] theorem Team.setThread_teamId (t : Team) (j : Nat) (x : Thread) : (t.setThread j x).teamId = t.teamId := rfl
@[simp] theorem Team.setThread_leagueId (t : Team) (j : Nat) (x : Thread) : (t.setThread j x).leagueId = t.leagueId := rfl
@[simp] theorem Team.setThread_leaguePos (t : Team) (j : Nat) (x : Thread) : (t.setThread j x).leaguePos = t.leaguePos := rfl
@[simp] theorem Team.setThread_leagueSize (t : Team) (j : Nat) (x : Thread) : (t.setThread j x).leagueSize = t.leagueSize := rfl
@[simp] theorem Team.setThread_gridTeams (t : Team) (j : Nat) (x : Thread) : (t.setThread j x).gridTeams = t.gridTeams := rfl
@[simp] theorem Team.setThread_w (t : Team) (j : Nat) (x : Thread) : (t.setThread j x).w = t.w := rfl
@[simp] theorem Team.setThread_t (t : Team) (j : Nat) (x : Thread) : (t.setThread j x).t = t.t := rfl
@[simp] theorem Team.setThread_frm (t : Team) (j : Nat) (x : Thread) : (t.setThread j x).frm = t.frm := rfl
@[simp] theorem Team.setThread_fflags (t : Team) (j : Nat) (x : Thread) : (t.setThread j x).fflags = t.fflags := rfl
@[simp] theorem Team.setThread_trapVec (t : Team) (j : Nat) (x : Thread) : (t.setThread j x).trapVec = t.trapVec := rfl
@[simp] theorem Team.setThread_waitCheck (t : Team) (j : Nat) (x : Thread) : (t.setThread j x).waitCheck = t.waitCheck := rfl
@[simp] theorem Team.setThread_btimeout (t : Team) (j : Nat) (x : Thread) : (t.setThread j x).btimeout = t.btimeout := rfl
@[simp] theorem Team.setThread_wbase (t : Team) (j : Nat) (x : Thread) : (t.setThread j x).wbase = t.wbase := rfl
@[simp] theorem Team.setThread_wlen (t : Team) (j : Nat) (x : Thread) : (t.setThread j x).wlen = t.wlen := rfl
@[simp] theorem Team.setThread_accA (t : Team) (j : Nat) (x : Thread) : (t.setThread j x).accA = t.accA := rfl
@[simp] theorem Team.setThread_accB (t : Team) (j : Nat) (x : Thread) : (t.setThread j x).accB = t.accB := rfl
@[simp] theorem Team.setThread_lm (t : Team) (j : Nat) (x : Thread) : (t.setThread j x).lm = t.lm := rfl
@[simp] theorem Team.setThread_k (t : Team) (j : Nat) (x : Thread) : (t.setThread j x).k = t.k := rfl
@[simp] theorem Team.setThread_b (t : Team) (j : Nat) (x : Thread) : (t.setThread j x).b = t.b := rfl
@[simp] theorem Team.setThread_h (t : Team) (j : Nat) (x : Thread) : (t.setThread j x).h = t.h := rfl
@[simp] theorem Team.setThread_s (t : Team) (j : Nat) (x : Thread) : (t.setThread j x).s = t.s := rfl
@[simp] theorem Team.setThread_sbad (t : Team) (j : Nat) (x : Thread) : (t.setThread j x).sbad = t.sbad := rfl
@[simp] theorem Team.setThread_spill (t : Team) (j : Nat) (x : Thread) : (t.setThread j x).spill = t.spill := rfl
@[simp] theorem Team.setThread_sel (t : Team) (j : Nat) (x : Thread) : (t.setThread j x).sel = t.sel := rfl
@[simp] theorem Team.setThread_lastStart (t : Team) (j : Nat) (x : Thread) : (t.setThread j x).lastStart = t.lastStart := rfl
@[simp] theorem Team.setThread_waitSince (t : Team) (j : Nat) (x : Thread) : (t.setThread j x).waitSince = t.waitSince := rfl
@[simp] theorem Team.setThread_results (t : Team) (j : Nat) (x : Thread) : (t.setThread j x).results = t.results := rfl
@[simp] theorem Team.setThread_marks (t : Team) (j : Nat) (x : Thread) : (t.setThread j x).marks = t.marks := rfl
@[simp] theorem Team.setThread_fpend (t : Team) (j : Nat) (x : Thread) : (t.setThread j x).fpend = t.fpend := rfl
@[simp] theorem Team.setThread_seq (t : Team) (j : Nat) (x : Thread) : (t.setThread j x).seq = t.seq := rfl
@[simp] theorem Team.setThread_call (t : Team) (j : Nat) (x : Thread) : (t.setThread j x).call = t.call := rfl
@[simp] theorem Team.setThread_curW (t : Team) (j : Nat) (x : Thread) : (t.setThread j x).curW = t.curW := rfl
@[simp] theorem Team.setThread_penW (t : Team) (j : Nat) (x : Thread) : (t.setThread j x).penW = t.penW := rfl
@[simp] theorem Team.setThread_susp (t : Team) (j : Nat) (x : Thread) : (t.setThread j x).susp = t.susp := rfl
@[simp] theorem Team.setThread_bindable (t : Team) (j : Nat) (x : Thread) : (t.setThread j x).bindable = t.bindable := rfl
@[simp] theorem Team.setThread_onHold (t : Team) (j : Nat) (x : Thread) : (t.setThread j x).onHold = t.onHold := rfl
@[simp] theorem Team.setThread_vfrozen (t : Team) (j : Nat) (x : Thread) : (t.setThread j x).vfrozen = t.vfrozen := rfl
@[simp] theorem Team.setThread_clean (t : Team) (j : Nat) (x : Thread) : (t.setThread j x).clean = t.clean := rfl
@[simp] theorem Team.setThread_lastCore (t : Team) (j : Nat) (x : Thread) : (t.setThread j x).lastCore = t.lastCore := rfl
@[simp] theorem Team.setThread_leaving (t : Team) (j : Nat) (x : Thread) : (t.setThread j x).leaving = t.leaving := rfl
@[simp] theorem Team.setThread_heldSince (t : Team) (j : Nat) (x : Thread) : (t.setThread j x).heldSince = t.heldSince := rfl
@[simp] theorem Team.setThread_threads (t : Team) (j : Nat) (x : Thread) : (t.setThread j x).threads = Tab.set t.threads j x := rfl
@[simp] theorem Team.thread_setThread (t : Team) (j : Nat) (x : Thread) : (t.setThread j x).thread j = x := Tab.get_set_self _ _ _ _
theorem Team.thread_setThread_ne (t : Team) {j i : Nat} (x : Thread) (h : i ≠ j) : (t.setThread j x).thread i = t.thread i :=
  Tab.get_set_ne _ _ _ h
@[simp] theorem Thread.vset_loc (x : Thread) (n : Nat) (a : Word) : (x.vset n a).loc = x.loc := rfl
@[simp] theorem Thread.vset_p (x : Thread) (n : Nat) (a : Word) : (x.vset n a).p = x.p := rfl
@[simp] theorem Thread.vset_ix (x : Thread) (n : Nat) (a : Word) : (x.vset n a).ix = x.ix := rfl
@[simp] theorem Thread.vset_trapCause (x : Thread) (n : Nat) (a : Word) : (x.vset n a).trapCause = x.trapCause := rfl
@[simp] theorem Thread.vset_info0 (x : Thread) (n : Nat) (a : Word) : (x.vset n a).info0 = x.info0 := rfl
@[simp] theorem Thread.vset_info1 (x : Thread) (n : Nat) (a : Word) : (x.vset n a).info1 = x.info1 := rfl
@[simp] theorem Thread.vset_trapPc (x : Thread) (n : Nat) (a : Word) : (x.vset n a).trapPc = x.trapPc := rfl
@[simp] theorem Thread.vset_regionCnt (x : Thread) (n : Nat) (a : Word) : (x.vset n a).regionCnt = x.regionCnt := rfl
@[simp] theorem Thread.vset_handler (x : Thread) (n : Nat) (a : Word) : (x.vset n a).handler = x.handler := rfl
@[simp] theorem Thread.vset_mon (x : Thread) (n : Nat) (a : Word) : (x.vset n a).mon = x.mon := rfl
@[simp] theorem Thread.vset_watch (x : Thread) (n : Nat) (a : Word) : (x.vset n a).watch = x.watch := rfl
@[simp] theorem Thread.vset_fenced (x : Thread) (n : Nat) (a : Word) : (x.vset n a).fenced = x.fenced := rfl
@[simp] theorem Thread.vset_nmFenced (x : Thread) (n : Nat) (a : Word) : (x.vset n a).nmFenced = x.nmFenced := rfl
@[simp] theorem Thread.vset_v (x : Thread) (n : Nat) (a : Word) : (x.vset n a).v = Tab.set x.v n a := rfl
@[simp] theorem Thread.vset_bad (x : Thread) (n : Nat) (a : Word) : (x.vset n a).bad = setDel x.bad n := rfl
@[simp] theorem Thread.vget_vset (x : Thread) (n : Nat) (a : Word) : (x.vset n a).vget n = a := Tab.get_set_self _ _ _ _
theorem Thread.vget_vset_ne (x : Thread) {n i : Nat} (a : Word) (h : i ≠ n) : (x.vset n a).vget i = x.vget i :=
  Tab.get_set_ne _ _ _ h
/-- s[n] after a write of s[n]: s0 reads 0 and is never written (R55). -/
theorem Team.sget_sset (t : Team) (g n : Nat) (a : DWord) : (t.sset g n a).sget g n = if n = 0 then 0 else a := by
  unfold Team.sget Team.sset
  by_cases h : n = 0
  · simp [h]
  · simp [h, Tab.get_set_self]
theorem Team.sget_zero (t : Team) (g : Nat) : t.sget g 0 = 0 := rfl
theorem Team.sset_zero (t : Team) (g : Nat) (a : DWord) : t.sset g 0 a = t := rfl
/-- p0 reads 1 and is never written (R55). -/
theorem Thread.pget_zero (x : Thread) : x.pget 0 = true := rfl
theorem Thread.pset_zero (x : Thread) (b : Bool) : x.pset 0 b = x := rfl
/-- The halves of a pair's value make it up (R54). -/
theorem pair64_lo_hi (a : DWord) : pair64 (lo32 a) (hi32 a) = a := by
  unfold pair64 lo32 hi32
  apply BitVec.eq_of_getLsbD_eq
  intro i hi
  rw [BitVec.getLsbD_append]
  by_cases h : i < 32
  · simp [h]
  · simp [h, show i - 32 < 32 by omega, show 32 + (i - 32) = i by omega]


@[simp] theorem State.team_updTeam (k : Nat) (f : Team → Team) : (s.updTeam k f).team k = f (s.team k) := by
  simp [State.updTeam]
theorem State.team_updTeam_ne {k j : Nat} (f : Team → Team) (h : j ≠ k) : (s.updTeam k f).team j = s.team j := by
  simp [State.updTeam, State.team_setTeam_ne s k _ h]
@[simp] theorem State.core_updCore (c : Nat) (f : Core → Core) : (s.updCore c f).core c = f (s.core c) := by
  simp [State.updCore]
@[simp] theorem State.thread_updThread (k j : Nat) (f : Thread → Thread) :
    ((s.updThread k j f).team k).thread j = f ((s.team k).thread j) := by
  simp [State.updThread]

end Sys2Proof.Machine
end

