-- ==== Sys2Proof/Laws/Castle.lean ====
section
/-! SUPPORT. Laws of Castle's requests: a digest has 64 bytes, the manifest that Castle has signed it accepts, images and resize
steps keep memory's canonical form, what a refused packet changes, and what a hart's address in M-mode is. -/

namespace Sys2Proof.Machine

theorem length_upto (lo n : Nat) : (upto lo n).length = n := by
  induction n generalizing lo with
  | zero => rfl
  | succ n ih => simp [upto, ih]

theorem length_shaRound {v : List DWord} (h : v.length = 8) (kw : DWord × DWord) : (shaRound v kw).length = 8 := by
  unfold shaRound
  split <;> simp_all

theorem length_shaRounds (l : List (DWord × DWord)) {v : List DWord} (h : v.length = 8) : (l.foldl shaRound v).length = 8 := by
  induction l generalizing v with
  | nil => exact h
  | cons kw l ih => exact ih (length_shaRound h kw)

theorem length_shaBlocks (n : Nat) {h : List DWord} (hl : h.length = 8) (m : List Byte) : (shaBlocks n h m).length = 8 := by
  induction n generalizing h m with
  | zero => exact hl
  | succ n ih => exact ih (by simp [shaBlock, hl, length_shaRounds _ hl]) _

theorem length_words (l : List DWord) : (l.flatMap (fun w => (toBytes 8 w.toNat).reverse)).length = 8 * l.length := by
  induction l with
  | nil => rfl
  | cons w l ih => simp [ih, length_toBytes] <;> omega

/-- A digest has 64 bytes (R243, R325). -/
theorem length_sha512 (m : List Byte) : (sha512 m).length = 64 := by
  rw [sha512, length_words, length_shaBlocks _ rfl]

theorem length_signatureOf (bs : List Byte) : (signatureOf bs).length = 64 := by simp [signatureOf, length_upto]

/-! ### Memory that an image, a step of Castle or a lost granule changes -/

theorem Memory.wf_marks {m : Memory} (h : m.wf = true) (f : Nat → Nat) (ws : List Nat) :
    (ws.foldl (fun m w => m.mark (f w) true) m).wf = true := by
  induction ws generalizing m with
  | nil => exact h
  | cons w ws ih => exact ih (Memory.wf_mark h (f w) true)

theorem Memory.wf_writeBad {m : Memory} (h : m.wf = true) (pa : Nat) (bs : List Byte) (bad : List Nat) :
    (m.writeBad pa bs bad).wf = true := Memory.wf_marks (Memory.wf_write h pa bs) _ bad

theorem Memory.wf_writeWords {m : Memory} (h : m.wf = true) (pa n : Nat) (ws : Tab Word) (bad : List Nat) :
    (m.writeWords pa n ws bad).wf = true := by
  refine Memory.wf_marks ?_ _ bad
  suffices ∀ m : Memory, m.wf = true →
      (List.foldl (fun m w => if w.1 < n then m.write (pa + 4 * w.1) (toBytes 4 w.2.toNat) else m) m ws).wf = true from
    this _ (Memory.wf_wipe h pa (4 * n))
  induction ws with
  | nil => exact fun m h => h
  | cons w ws ih =>
    intro m h
    refine ih _ ?_
    dsimp only
    split
    · exact Memory.wf_write h _ _
    · exact h

theorem Memory.wf_cutAt {m : Memory} (h : m.wf = true) (a : Nat) : (m.cutAt a).wf = true := Tab.wf_filter _ h

/-! ### Packets between dies of different worlds (R331) -/

/-- Under the action LOG a refused packet is counted and recorded, and nothing else changes. -/
theorem State.dropPacket_log {s : State} (h : s.castle.action .dieLink = .log) (die : Nat) (src : ReqSrc) :
    s.dropPacket die src = s.setCastle { s.castle with
      linkDrops := Tab.set s.castle.linkDrops die (Tab.get 0 s.castle.linkDrops die + 1)
      log := s.castle.log ++ [{ event := .dieLink, action := .log, src := src }] } := by
  simp only [Castle.action] at h
  simp [State.dropPacket, State.security, Castle.action, h]
  rfl

/-- In M-mode an address of partition memory to which no die on the way refuses the hart's packet is its own translation (R258, R331). -/
theorem State.hartTranslate_machine {s : State} {n : Nat} {va : DWord} {acc : Access} (hp : (s.hart n).priv = .m)
    (hv : va.toNat < s.memEnd) (hr : s.refusedAt (s.dieOf (n / 4)) (s.homeDie va.toNat) = none) :
    s.hartTranslate n va acc = (.ok va.toNat, s) := by
  rw [State.hartTranslate, if_pos hp, State.hartReach, if_pos hv, hr]
  rfl

/-- Castle accepts a manifest after whose bytes it has written its signature (R325, R326). -/
theorem signed_write {m : Memory} (h : m.wf = true) (a n : Nat) :
    signed ((m.write (a + n) (signatureOf (m.read a n))).read a (n + 64)) = true := by
  have hs := Memory.read_write_self h (a + n) (signatureOf (m.read a n))
  rw [length_signatureOf] at hs
  rw [Memory.read_append, Memory.read_write_ne h _ _ _ _ (.inl (Nat.le_refl _)), hs]
  simp [signed, Memory.length_read, length_signatureOf]

end Sys2Proof.Machine
end

