-- ==== Sys2Proof/Laws/Ops.lean ====
section
/-! SUPPORT. What the shared operations do: a thread joins an entry, leaves its pass, takes a trap; a reply; a store at its home;
a release with nothing under way; a ring's record. -/

namespace Sys2Proof.Machine

variable (s : State)

/-! ### Joining an entry -/

/-- What a join changes beside the teams and the cores: nothing. -/
theorem State.join_outside (k j : Nat) (a : DWord) (mid : Bool) :
    { s.join k j a mid with teams := s.teams, cores := s.cores } = s := by
  unfold State.join
  dsimp only
  split
  · split
    · rfl
    · split <;> rfl
  · split <;> rfl

theorem State.join_mem (k j : Nat) (a : DWord) (mid : Bool) : (s.join k j a mid).mem = s.mem := by
  have h := congrArg State.mem (s.join_outside k j a mid)
  exact h

/-- A team that joins keeps everything but its spill list and the thread's place. -/
theorem State.join_team (k j : Nat) (a : DWord) (mid : Bool) :
    ∃ l, (s.join k j a mid).team k =
      { (s.team k).setThread j { (s.team k).thread j with loc := .waits a } with spill := l } := by
  have h : (s.updThread k j (fun x => { x with loc := .waits a })).team k =
      (s.team k).setThread j { (s.team k).thread j with loc := .waits a } := by
    simp [State.updThread]
  unfold State.join
  dsimp only
  split
  · split
    · exact ⟨_, h⟩
    · split
      · exact ⟨_, h⟩
      · exact ⟨_, by rw [State.team_setTeam, h]⟩
  · split
    · exact ⟨_, h⟩
    · exact ⟨_, by rw [State.team_setTeam, h]⟩

/-- The thread that joins waits there, and is otherwise as it was. -/
theorem State.join_thread (k j : Nat) (a : DWord) (mid : Bool) :
    ((s.join k j a mid).team k).thread j = { (s.team k).thread j with loc := .waits a } := by
  obtain ⟨l, h⟩ := s.join_team k j a mid
  rw [h]
  exact Team.thread_setThread _ _ _

theorem State.join_thread_ne (k : Nat) {j m : Nat} (a : DWord) (mid : Bool) (hm : m ≠ j) :
    ((s.join k j a mid).team k).thread m = (s.team k).thread m := by
  obtain ⟨l, h⟩ := s.join_team k j a mid
  rw [h]
  exact Team.thread_setThread_ne _ _ hm

/-! ### Leaving a pass -/

theorem State.leavePass_mem (k j : Nat) : (s.leavePass k j).mem = s.mem := by
  unfold State.leavePass; split <;> rfl

theorem State.leavePass_team (k j : Nat) : ∃ p, (s.leavePass k j).team k = { s.team k with sel := p } := by
  unfold State.leavePass
  split
  · exact ⟨_, rfl⟩
  · exact ⟨_, by rw [State.team_updTeam]; rfl⟩

theorem State.leavePass_thread (k j m : Nat) : ((s.leavePass k j).team k).thread m = (s.team k).thread m := by
  obtain ⟨p, h⟩ := s.leavePass_team k j
  rw [h]; rfl

theorem State.leavePass_state (k j : Nat) : ((s.leavePass k j).team k).state = (s.team k).state := by
  obtain ⟨p, h⟩ := s.leavePass_team k j
  rw [h]

theorem State.leavePass_trapVec (k j : Nat) : ((s.leavePass k j).team k).trapVec = (s.team k).trapVec := by
  obtain ⟨p, h⟩ := s.leavePass_team k j
  rw [h]

/-! ### Taking a trap (R280, R289) -/

/-- A trap of a live thread of a resident team that is in no handler and has one: it leaves its pass, its trap registers are
written, and it joins the entry at TRAPVEC. -/
theorem State.trapThread_eq {k j c sl : Nat} {i : TrapInfo} (hr : (s.team k).state = .resident c sl)
    (h1 : ((s.team k).thread j).loc ≠ .exited) (h2 : ((s.team k).thread j).loc ≠ .vacant)
    (h3 : ((s.team k).thread j).loc ≠ .dormant) (hh : ((s.team k).thread j).handler = false) (hv : (s.team k).trapVec ≠ 0) :
    s.trapThread k j i = ((s.leavePass k j).updThread k j (fun x => { x with
        trapCause := i.cause, info0 := i.info0, info1 := i.info1, trapPc := i.pc, handler := true, watch := 0, irrev := false,
        mon := match x.loc with
          | .held (.monitor _ _) _ => none
          | _ => x.mon })).join k j (s.team k).trapVec false := by
  unfold State.trapThread trapFuel
  dsimp only
  cases hl : ((s.team k).thread j).loc with
  | exited => exact absurd hl h1
  | vacant => exact absurd hl h2
  | dormant => exact absurd hl h3
  | _ => simp only [hr, hh, hv, Bool.false_eq_true, if_false] <;> rfl

/-- What the trap leaves: the thread's registers, memory and the other threads are as they were. -/
theorem State.trapThread_enters {k j c sl : Nat} {i : TrapInfo} (hr : (s.team k).state = .resident c sl)
    (h1 : ((s.team k).thread j).loc ≠ .exited) (h2 : ((s.team k).thread j).loc ≠ .vacant)
    (h3 : ((s.team k).thread j).loc ≠ .dormant) (hh : ((s.team k).thread j).handler = false) (hv : (s.team k).trapVec ≠ 0) :
    (∃ m, ((s.trapThread k j i).team k).thread j = { (s.team k).thread j with
        trapCause := i.cause, info0 := i.info0, info1 := i.info1, trapPc := i.pc, handler := true, watch := 0, irrev := false, mon := m,
        loc := .waits (s.team k).trapVec }) ∧
      (s.trapThread k j i).mem = s.mem ∧ ∀ m, m ≠ j → ((s.trapThread k j i).team k).thread m = (s.team k).thread m := by
  rw [s.trapThread_eq hr h1 h2 h3 hh hv]
  refine ⟨?_, ?_, fun m hm => ?_⟩
  · rw [State.join_thread, State.thread_updThread, s.leavePass_thread]
    exact ⟨_, rfl⟩
  · rw [State.join_mem]
    exact s.leavePass_mem k j
  · rw [State.join_thread_ne _ _ _ _ hm]
    simp only [State.updThread, State.team_setTeam]
    rw [Team.thread_setThread_ne _ _ hm, s.leavePass_thread]

/-! ### Replies -/

theorem State.reply_results (k g sd : Nat) (a : DWord) : ((s.reply k g sd a).team k).results =
    (s.team k).results ++ [{ load := false, vs := [], ss := [(g, sd, a)], flags := 0 }] := by
  simp [State.reply]

theorem State.reply_outside (k g sd : Nat) (a : DWord) : { s.reply k g sd a with teams := s.teams } = s := rfl

/-! ### Stores at their homes -/

/-- A fold whose every step leaves the state alone. -/
theorem foldl_fix {α β : Type} {f : β → α → β} (l : List α) (s : β) (h : ∀ a ∈ l, ∀ s, f s a = s) : l.foldl f s = s := by
  induction l generalizing s with
  | nil => rfl
  | cons a l ih => rw [List.foldl_cons, h a (by simp)]; exact ih s (fun b hb => h b (by simp [hb]))

/-- Where nothing waits for a line, lines written change nothing else. -/
theorem State.linesWritten_quiet (ls : List Nat) (hm : ∀ e ∈ s.teams, ∀ y ∈ e.2.threads, y.2.mon = none)
    (hs : ∀ e ∈ s.slices, e.2.monitors = []) : s.linesWritten ls = s := by
  unfold State.linesWritten
  dsimp only
  rw [foldl_fix s.teams s]
  · rw [List.flatMap_eq_nil_iff.2]
    · rfl
    · intro e he
      rw [hs e he]; rfl
  · intro e he s
    refine foldl_fix _ _ fun y hy s => ?_
    rw [hm e he y hy]

theorem State.wakeHarts_quiet (ls : List Nat) (hh : ∀ h ∈ s.harts, h.2.jwait = none) : s.wakeHarts ls = s := by
  refine foldl_fix _ _ fun h hh' s => ?_
  rw [hh h hh']

/-- Harts of which none waits, and of which only other fields change. -/
theorem Tab.noneWaits_mapVal {t : Tab Hart} {f : Nat → Hart → Hart} (hf : ∀ n h, (f n h).jwait = h.jwait)
    (ht : ∀ h ∈ t, h.2.jwait = none) : ∀ h ∈ t.mapVal f, h.2.jwait = none := by
  intro h hh
  simp only [Tab.mapVal, List.mem_map] at hh
  obtain ⟨g, hg, rfl⟩ := hh
  rw [hf]
  exact ht g hg

/-- A store that carries no VMID, where nothing waits for a line, writes memory, ends reservations of the blocks that it
reaches, and does nothing else (R180, R199). -/
theorem State.storeHome_quiet (pa : Nat) (bs : List Byte) (hm : ∀ e ∈ s.teams, ∀ y ∈ e.2.threads, y.2.mon = none)
    (hs : ∀ e ∈ s.slices, e.2.monitors = []) (hh : ∀ h ∈ s.harts, h.2.jwait = none) :
    s.storeHome pa bs 0 = (s.setMem (s.mem.write pa bs)).dropResv pa bs.length := by
  have hv : (s.setMem (s.mem.write pa bs)).markRange 0 pa bs.length = s.setMem (s.mem.write pa bs) := rfl
  unfold State.storeHome
  dsimp only
  rw [hv, State.linesWritten_quiet (s.setMem (s.mem.write pa bs)) _ hm hs, State.wakeHarts_quiet]
  simp only [State.dropResv, State.setMem_harts]
  refine Tab.noneWaits_mapVal (fun n h => ?_) hh
  split
  · split <;> rfl
  · rfl

/-! ### Releases -/

/-- Nothing is performed before a place in a core's order where all that the core has on its way issued later. -/
theorem State.performInOrder_none (c n m f : Nat) (h : (s.core c).oldest n m = none) : s.performInOrder c n m f = s := by
  cases f with
  | zero => rfl
  | succ f => simp only [State.performInOrder, h]

/-- The first place in a core's order has nothing before it. -/
@[simp] theorem Core.oldest_zero (k : Core) : k.oldest 0 0 = none := by
  unfold Core.oldest
  cases k.arrivals.head? <;> cases k.sigs.head? <;> cases k.stq.head? <;> simp [Option.filter, minBy]

@[simp] theorem State.settleBefore_zero (c : Nat) : s.settleBefore c 0 = s :=
  s.performInOrder_none c 0 0 _ (Core.oldest_zero _)

/-- A core that has nothing on its way has nothing to perform (R187). -/
theorem State.settleAll_idle (c : Nat) (h1 : (s.core c).stq = []) (h2 : (s.core c).arrivals = []) (h3 : (s.core c).sigs = []) :
    s.settleAll c = s := by
  refine s.performInOrder_none c _ _ _ ?_
  simp [Core.oldest, h1, h2, h3, minBy]

/-- A release waits for nothing where the core has nothing under way (R187). -/
theorem State.release_idle (c : Nat) (sc : Scope) (h1 : (s.core c).stq = []) (h2 : (s.core c).atq = [])
    (h3 : (s.core c).arrivals = []) (h4 : (s.core c).sigs = []) : s.release c sc = s := by
  unfold State.release
  split
  · simp only [s.settleAll_idle c h1 h3 h4, h2, List.length_nil, State.drainAtoms]
  · rfl

/-! ### Rings (R174, R308) -/

theorem Ring.push_room {r : Ring} (m : Memory) (rec : List Byte) (h1 : r.room = true) (h2 : r.pending = []) :
    r.push m rec = ({ r with tail := r.tail + 1 }, m.write (r.slotAt rec.length) rec, r.ie) := by
  simp [Ring.push, h1, h2, Ring.emit]

theorem Ring.push_full {r : Ring} (m : Memory) (rec : List Byte) (h : r.room = false) :
    r.push m rec = ({ r with pending := r.pending ++ [rec] }, m, false) := by
  simp [Ring.push, h]

end Sys2Proof.Machine
end

