-- ==== Sys2Proof/Laws/Step.lean ====
section
/-! SUPPORT. What the end of a step adds where nothing waits. -/

namespace Sys2Proof.Machine

/-- Values that a map keeps make a table that it keeps. -/
theorem Tab.mapVal_fix {α : Type} {f : Nat → α → α} {t : Tab α} (h : ∀ e ∈ t, f e.1 e.2 = e.2) : t.mapVal f = t := by
  rw [Tab.mapVal, List.map_congr_left (g := id) (fun e he => by rw [h e he]; rfl), List.map_id]

/-- Nothing watched, nothing touched. -/
theorem State.touched_quiet {s0 : State} (h : s0.watched = []) (s : State) : s0.touched s = [] := by
  rw [State.touched, h]

/-- Where nothing waits for a line and no hart holds a reservation, a step's writes are noted nowhere. -/
theorem State.noteWrites_quiet {s0 s : State} (hw : s0.watched = []) (hr : ∀ h ∈ s.harts, h.2.resv = none) : s0.noteWrites s = s := by
  unfold State.noteWrites
  simp only [State.touched_quiet hw]
  rw [Tab.mapVal_fix (fun e he => by rw [hr e he])]
  rfl

end Sys2Proof.Machine
end

