-- ==== Sys2Proof/Laws/Vector.lean ====
section
/-! SUPPORT. What the issue of a vector instruction does where nothing stops it: which lanes complete, and what the commit of
their results leaves in each thread. -/

namespace Sys2Proof.Machine

/-- A shortfall of 0 is no shortfall: nothing is worst among reads that are all readable. -/
theorem Team.worst_none {t : Team} {x : Ctx} {rs : List Rd} (h : ∀ r ∈ rs, t.short x r = 0) : t.worst x rs = none := by
  have key : ∀ (rs : List Rd), (∀ r ∈ rs, t.short x r = 0) → ∀ b, rs.foldl (fun b r =>
      if t.short x r = 0 then b else
      match b with
      | none => some r
      | some q => if t.short x q < t.short x r then some r else b) b = b := by
    intro rs
    induction rs with
    | nil => intro _ b; rfl
    | cons r rs ih =>
      intro h b
      rw [List.foldl_cons, if_pos (h r (by simp))]
      exact ih (fun q hq => h q (by simp [hq])) b
  exact key rs h none

/-- No operand of a group that is not early has a shortfall. -/
theorem State.short_of_not_early {s : State} {x : Ctx} {reads : Nat → List Rd} (h : s.anyEarly x reads = false) {j : Nat}
    (hj : j ∈ x.group) {r : Rd} (hr : r ∈ reads j) : (s.team x.team).short x r = 0 := by
  unfold State.anyEarly at h
  rw [List.any_eq_false] at h
  have h1 := h j hj
  rw [Bool.not_eq_true, List.any_eq_false] at h1
  simpa using h1 r hr

theorem mem_insertNat {a b : Nat} {l : List Nat} : a ∈ insertNat b l ↔ a = b ∨ a ∈ l := by
  induction l with
  | nil => simp [insertNat]
  | cons c l ih => unfold insertNat; split <;> simp [ih, or_left_comm]

theorem mem_sortNat {a : Nat} {l : List Nat} : a ∈ sortNat l ↔ a ∈ l := by
  unfold sortNat
  induction l with
  | nil => simp
  | cons c l ih => simp [mem_insertNat, ih]

/-- Where no read is early nothing traps WAIT_SHORT (R127). -/
theorem State.waitShorts_nil {s : State} {x : Ctx} {g : Option Nat} {reads : Nat → List Rd} (h : s.anyEarly x reads = false) :
    s.waitShorts x g reads = [] := by
  unfold State.waitShorts
  dsimp only
  split
  · rfl
  · rw [Team.worst_none]
    intro r hr
    obtain ⟨j, hj, hr⟩ := List.mem_flatMap.1 hr
    exact State.short_of_not_early h (mem_sortNat.1 hj) hr

/-- A lane whose guard is 1 and whose operands are consumed gives the instruction's value. -/
theorem VInstr.lane_val {v : VInstr} {s : State} {x : Ctx} {j : Nat} {vs : List (List (Option DWord))}
    (hg : (s.team x.team).consumed (guardRd v.guard j) = none) (hon : s.guardOn x v.guard j = true)
    (hv : s.consume x j v.opds = .ok vs)
    (hd : ∀ i, v.dst = .win i → (((s.team x.team).thread j).iget i).toNat < (s.team x.team).wlen) :
    v.lane s x j = .val (v.f (s.team x.team) j vs).1 (v.f (s.team x.team) j vs).2 := by
  simp only [VInstr.lane, hg, hon, hv, Bool.not_true, Bool.false_eq_true, if_false]
  cases hv : v.dst with
  | win i => simp [Nat.not_le.2 (hd i hv)]
  | _ => rfl

/-- A lane whose guard is 0 is off (R119). -/
theorem VInstr.lane_off {v : VInstr} {s : State} {x : Ctx} {j : Nat}
    (hg : (s.team x.team).consumed (guardRd v.guard j) = none) (hon : s.guardOn x v.guard j = false) : v.lane s x j = .off := by
  simp [VInstr.lane, hg, hon]

/-- A vector instruction of which no operand is early and no lane traps commits its lanes, and does nothing else; the exceptions of
VREDU's gangs may take a free value. -/
theorem execVector_commits {v : VInstr} {s : State} {x : Ctx} (hx : s.ctx = some x)
    (he : s.anyEarly x (s.compared x v.guard v.opds) = false) (hn : ∀ m ∈ x.group, ∀ i, v.lane s x m ≠ .trap i) :
    execVector v s = .next ((v.commit s x (x.group.map (fun j => (j, v.lane s x j)))).spendFresh
      (v.gangFlags && s.anyEarly x (fun j => s.readsOf x j v.opds))) := by
  simp only [execVector, hx, VInstr.issue, State.waitShorts_nil he, he, Bool.and_false, Bool.not_false, List.isEmpty_nil,
    Bool.and_true, if_true, Bool.false_or]
  rw [List.filterMap_eq_nil_iff.2]
  · rfl
  · intro c hc
    obtain ⟨m, hm, rfl⟩ := List.mem_map.1 hc
    cases hl : v.lane s x m with
    | trap i => exact absurd hl (hn m hm i)
    | _ => rfl

/-! ### What a commit leaves -/

/-- A destination of a thread holds a value. -/
def Dst.Holds (d : Dst) (t : Team) (y : Thread) (a : DWord) : Prop :=
  match d with
  | .v n => y.vget n = lo32 a
  | .v64 n => y.v64 n = a
  | .p n => y.pget n = (n == 0 || a != 0)
  | .ix i => i < 4 → y.iget i = a.extractLsb' 0 8
  | .win i => y.vget (t.wbase + (y.iget i).toNat) = lo32 a

theorem Thread.v64_v64set (y : Thread) (n : Nat) (a : DWord) : (y.v64set n a).v64 n = a := by
  unfold Thread.v64 Thread.v64set
  rw [Thread.vget_vset, Thread.vget_vset_ne _ _ (Nat.ne_of_lt (Nat.lt_succ_self n)), Thread.vget_vset, pair64_lo_hi]

theorem Thread.pget_pset (y : Thread) (n : Nat) (b : Bool) (h : n < 8) : (y.pset n b).pget n = (n == 0 || b) := by
  unfold Thread.pget Thread.pset
  by_cases h0 : n = 0
  · simp [h0]
  · cases b <;> simp [h0, h]

theorem Thread.iget_iset (y : Thread) (i : Nat) (b : BitVec 8) (h : i < 4) : (y.iset i b).iget i = b := by
  unfold Thread.iget Thread.iset
  apply BitVec.eq_of_getLsbD_eq
  intro k hk
  have h1 : 8 * i + k < 32 := by omega
  have h2 : decide (8 * i + k < 8 * i) = false := by simp
  have h3 : 8 * i + k - 8 * i = k := by omega
  have h4 : ∀ h, (255#32)[k]'h = true := by
    match k, hk with
    | 0, _ | 1, _ | 2, _ | 3, _ | 4, _ | 5, _ | 6, _ | 7, _ => decide
  simp [hk, h1, h3, h4, h2]

/-- A destination holds what was written to it. -/
theorem Dst.holds_write (d : Dst) (t : Team) (y : Thread) (a : DWord) (hp : ∀ n, d = .p n → n < 8) :
    d.Holds t (d.write t y a) a := by
  cases d with
  | v n => exact Thread.vget_vset y n _
  | v64 n => exact Thread.v64_v64set y n a
  | p n => exact Thread.pget_pset y n _ (hp n rfl)
  | ix i => exact Thread.iget_iset y i _
  | win i => exact Thread.vget_vset y _ _

/-- The threads of a team after results of a fixed latency are written: those whose every result is a hold it. -/
theorem Dst.holds_fold (d : Dst) (grp avail : Nat) (pc : DWord) (j : Nat) (a : DWord) (hp : ∀ n, d = .p n → n < 8)
    (out : List (Nat × DWord × BitVec 5)) : ∀ t : Team, (∀ c ∈ out, c.1 = j → c.2.1 = a) →
      (∃ c ∈ out, c.1 = j) ∨ d.Holds t (t.thread j) a →
      let t' := out.foldl (fun t c =>
        { t.setThread c.1 (d.write t (t.thread c.1) c.2.1) with
          marks := addMarks t.marks grp c.1 (d.slots t (t.thread c.1)) avail pc }) t
      d.Holds t' (t'.thread j) a := by
  induction out with
  | nil => intro t _ h; exact h.resolve_left (by simp)
  | cons c out ih =>
    intro t ha h
    refine ih _ (fun e he => ha e (by simp [he])) ?_
    have hw : ∀ (t : Team) (x : Thread) (ms : List Mark) (y : Thread), d.Holds { t.setThread c.1 x with marks := ms } y a
        = d.Holds t y a := by intros; cases d <;> rfl
    rw [hw]
    by_cases hc : c.1 = j
    · right
      have := ha c (by simp) hc
      subst hc
      show d.Holds t ((t.setThread c.1 (d.write t (t.thread c.1) c.2.1)).thread c.1) a
      rw [Team.thread_setThread, this]
      exact Dst.holds_write d t _ a hp
    · rcases h with ⟨e, he, hej⟩ | h
      · rcases List.mem_cons.1 he with rfl | he
        · exact absurd hej hc
        · exact .inl ⟨e, he, hej⟩
      · right
        show d.Holds t ((t.setThread c.1 (d.write t (t.thread c.1) c.2.1)).thread j) a
        rw [Team.thread_setThread_ne _ _ (Ne.symm hc)]
        exact h

/-- A lane with a value leaves it in its thread's destination, where the latency is fixed (R44). -/
theorem VInstr.commit_holds {v : VInstr} {s : State} {x : Ctx} {l j : Nat} {a : DWord} {fl : BitVec 5} (hl : v.lat = some l)
    (hj : j ∈ x.group) (hv : v.lane s x j = .val a fl) (hp : ∀ n, v.dst = .p n → n < 8) :
    let t := (v.commit s x (x.group.map (fun j => (j, v.lane s x j)))).team x.team
    v.dst.Holds t (t.thread j) a := by
  have hw : ∀ (t : Team) (f : List (Nat × BitVec 5)) (y : Thread),
      v.dst.Holds { t with fpend := f } y a = v.dst.Holds t y a := by intros; cases v.dst <;> rfl
  simp only [VInstr.commit, hl, State.team_setTeam]
  rw [hw]
  refine Dst.holds_fold v.dst x.grp (x.cc + l) x.pc j a hp _ _ ?_ (.inl ?_)
  · intro c hc hj'
    obtain ⟨e, he, hc⟩ := List.mem_filterMap.1 hc
    obtain ⟨m, -, rfl⟩ := List.mem_map.1 he
    have hmj : m = j := by
      revert hc
      cases hm : v.lane s x m with
      | off => intro hc; cases hc
      | val b f => intro hc; cases hc; exact hj'
      | trap i =>
        intro hc
        dsimp only at hc
        split at hc <;> cases hc
        exact hj'
    subst hmj
    rw [hv] at hc
    cases hc
    rfl
  · exact ⟨_, List.mem_filterMap.2 ⟨(j, v.lane s x j), List.mem_map.2 ⟨j, hj, rfl⟩, by rw [hv]⟩, rfl⟩

/-- A lane with a value brings its words as the team's youngest result, where the result is interlocked (R45). -/
theorem VInstr.commit_brings {v : VInstr} {s : State} {x : Ctx} {j : Nat} {a : DWord} {fl : BitVec 5} (hl : v.lat = none)
    (hj : j ∈ x.group) (hv : v.lane s x j = .val a fl) :
    ∃ r, ((v.commit s x (x.group.map (fun j => (j, v.lane s x j)))).team x.team).results = (s.team x.team).results ++ [r] ∧
      r.load = false ∧ (∀ n, v.dst = .v n → (j, n, lo32 a) ∈ r.vs) ∧
      ∀ n, v.dst = .v64 n → (j, n, lo32 a) ∈ r.vs ∧ (j, n + 1, hi32 a) ∈ r.vs := by
  simp only [VInstr.commit, hl, State.team_setTeam]
  refine ⟨_, rfl, rfl, ?_, ?_⟩ <;> intro n hn
  · refine List.mem_flatMap.2
      ⟨_, List.mem_filterMap.2 ⟨(j, v.lane s x j), List.mem_map.2 ⟨j, hj, rfl⟩, by rw [hv]⟩, ?_⟩
    rw [hn]
    simp [Dst.slots]
  · constructor <;> refine List.mem_flatMap.2
      ⟨_, List.mem_filterMap.2 ⟨(j, v.lane s x j), List.mem_map.2 ⟨j, hj, rfl⟩, by rw [hv]⟩, ?_⟩ <;> rw [hn] <;> simp

/-- What the issue of a vector instruction does where nothing stops it: it commits its lanes, each thread whose guard is 1 with
the instruction's value, and every other lane off. -/
theorem execVector_ready {v : VInstr} {s : State} {x : Ctx} (hx : s.ctx = some x)
    (he : s.anyEarly x (s.compared x v.guard v.opds) = false)
    (hall : ∀ m ∈ x.group, (s.team x.team).consumed (guardRd v.guard m) = none ∧
      (s.guardOn x v.guard m = true → ∃ vs, s.consume x m v.opds = .ok vs))
    (hwin : ∀ m ∈ x.group, s.guardOn x v.guard m = true → ∀ i, v.dst = .win i →
      (((s.team x.team).thread m).iget i).toNat < (s.team x.team).wlen) :
    execVector v s = .next ((v.commit s x (x.group.map (fun j => (j, v.lane s x j)))).spendFresh
      (v.gangFlags && s.anyEarly x (fun j => s.readsOf x j v.opds))) := by
  refine execVector_commits hx he fun m hm i => ?_
  cases hon : s.guardOn x v.guard m with
  | false => rw [VInstr.lane_off (hall m hm).1 hon]; exact Lane.noConfusion
  | true =>
    obtain ⟨vs, hv⟩ := (hall m hm).2 hon
    rw [VInstr.lane_val (hall m hm).1 hon hv (hwin m hm hon)]
    exact Lane.noConfusion

end Sys2Proof.Machine
end

