-- ==== Sys2Proof/Tests/Slice0.lean ====
section
/-! SUPPORT. Tests: words written out from the spec's encodings, ill-formed terms, single steps with expected values worked out
from the rules, and for every statement with hypotheses a state that meets them. -/

namespace Sys2Proof.Tests

-- One theorem after another: those that compute in the kernel wait for the ones before them.
set_option Elab.async false

open Sys2Proof Sys2Proof.Machine Sys2Proof.Claims

/-! ### Decoding: the words of the spec's examples, and words written field by field -/

/-- A word from its fields, each a value and a width, the most significant first. -/
def fields (l : List (Nat × Nat)) : Word := BitVec.ofNat 32 (l.foldl (fun a f => a * 2 ^ f.2 + f.1) 0)

/-- R118: format A is LM, VB, VA, VD, P, OP, W and the mark 1, of 3, 6, 6, 6, 2, 6, 2 and 1 bits; R131: VSUB is OP 0x02. -/
theorem test_fields_vsub : decode32 (fields [(5, 3), (3, 6), (2, 6), (1, 6), (2, 2), (0x02, 6), (3, 2), (1, 1)]) =
    .ok (.vsub { lm := 5, vb := 3, va := 2, vd := 1, p := 2, w := 3 }) := by rfl
/-- R134: VSFU is OP 0x28 of format U, whose FN6 stands above VA; VFDIV is FN6 0x14. -/
theorem test_fields_vfdiv : decode32 (fields [(2, 3), (0x14, 6), (5, 6), (4, 6), (0, 2), (0x28, 6), (0, 2), (1, 1)]) =
    .ok (.vfdiv { lm := 2, va := 5, vd := 4, p := 0, w := 0 }) := by rfl

theorem test_word_vand : decode32 0x230A2251 = .ok (.vand { lm := 1, vb := 6, va := 5, vd := 4, p := 1, w := 0 }) := by rfl
theorem test_word_vsub64 : decode32 0x06144091 = .ok (.vsub64 { lm := 0, vb := 12, va := 10, vd := 8, p := 0, w := 0 }) := by rfl
theorem test_word_vaddi : decode32 0xFF8E3901 = .ok (.vaddi { imm := 0x1FF, va := 7, vd := 7, p := 0, w := 0 }) := by rfl
theorem test_word_vmovi : decode32 0x00803131 = .ok (.vmovi { imm := 64, vd := 6, p := 0, w := 0 }) := by rfl
theorem test_word_vsel : decode32 0xE30A22F1 = .ok (.vsel { ps := 7, vb := 6, va := 5, vd := 4, p := 1, w := 0 }) := by rfl
theorem test_word_vfadd : decode32 0x061650A5 = .ok (.vfadd { lm := 0, vb := 12, va := 11, vd := 10, p := 0, w := 2 }) := by rfl
theorem test_word_vclz : decode32 0x020C393F = .ok (.vclz { lm := 0, va := 6, vd := 7, p := 0, w := 3 }) := by rfl
theorem test_word_vrems : decode32 0x098A2141 = .ok (.vremS { lm := 0, va := 5, vd := 4, p := 0, w := 0 }) := by rfl
theorem test_word_vcvt : decode32 0x4A94A14F =
    .ok (.vcvt { e := 2, src := .f32, dst := .t8, va := 10, vd := 20, p := 0, w := 3 }) := by rfl
theorem test_word_vbdoti8 : decode32 0x00611199 = .ok (.vbdotI8 { vb := 3, va := 2, vd := 8 }) := by rfl
theorem test_word_ld : decode32 0x918441A9 =
    .ok (.ld { hint := .bypass, sc := .cluster, acq := 0, sx := 0, sz := 3, va := 2, vd := 8, p := 0, w := 0 }) := by rfl
theorem test_word_st : decode32 0x1D0419B1 =
    .ok (.st { hint := .normal, sc := .partition, rel := 1, sz := 2, va := 2, vd := 3, p := 0, w := 0 }) := by rfl
theorem test_word_atom : decode32 0xDC8441B9 =
    .ok (.atom { wide := 1, sc := .partition, op := .cas, va := 2, vd := 8, p := 0, w := 0 }) := by rfl
theorem test_word_nmred : decode32 0xD80831C1 =
    .ok (.nmred { wide := 1, sc := .partition, op := .add, va := 4, vd := 6, p := 0, w := 0 }) := by rfl
theorem test_word_tld : decode32 0x60C0F5C9 =
    .ok (.tld { peer := 1, core := 2, h := 1, va := 32, vd := 30, p := 2, w := 0 }) := by rfl
theorem test_word_tatom : decode32 0xDC628CF9 =
    .ok (.tatom { peer := 1, core := 2, op := .xchg, h := 3, va := 5, vd := 6, w := 0 }) := by rfl
theorem test_word_ushl : decode32 0x07118DD9 = .ok (.ushl { sb := 2, sa := 6, sd := 6, w := 0 }) := by rfl
theorem test_word_uaddi : decode32 0xFFC107E1 = .ok (.uaddi { imm := 0x1FF8, sa := 4, sd := 3, w := 0 }) := by rfl
theorem test_word_mstrm : decode32 0x9C6223E9 = .ok (.mstrm { re := 1, sd := 7, sb := 3, sa := 2, w := 0 }) := by rfl
theorem test_word_cpy : decode32 0x006211E9 = .ok (.cpy { re := 0, sd := 0, sb := 3, sa := 2, w := 0 }) := by rfl
theorem test_word_tqpop : decode32 0x946243E9 = .ok (.tqpop { sd := 5, sb := 3, sa := 2, w := 0 }) := by rfl
theorem test_word_xstat : decode32 0xB00D01E9 = .ok (.xstat { sd := 12, sa := 13, w := 0 }) := by rfl
theorem test_word_binit : decode32 0x001485F1 = .ok (.binit { sb := 5, sa := 4, idx := 2, w := 0 }) := by rfl
theorem test_word_barv : decode32 0x40801BF1 = .ok (.barv { sc := .cluster, idx := 13, w := 0 }) := by rfl
theorem test_word_bexp : decode32 0x018079F1 = .ok (.bexp { sa := 3, idx := 12, w := 0 }) := by rfl
theorem test_word_ksign : decode32 0x488007F1 = .ok (.ksign { sc := .cluster, idx := 3, w := 0 }) := by rfl
theorem test_word_rget : decode32 0x0A1463F1 = .ok (.rget { cons := 1, h := 3, sb := 5, w := 0 }) := by rfl
theorem test_word_talloc : decode32 0x0C10A5F1 = .ok (.talloc { level := .gwin, h := 5, sb := 4, w := 0 }) := by rfl
theorem test_word_tinfo : decode32 0x0D1861F1 = .ok (.tinfo { h := 3, sb := 6, w := 0 }) := by rfl
theorem test_word_gets : decode32 0x103193F7 = .ok (.gets { vk := 1, hi := 1, sa := 12, num := 0x0C, w := 3 }) := by rfl
theorem test_word_lmap : decode32 0x0E0163F1 = .ok (.lmap { m := 1, sa := 11, w := 0 }) := by rfl
theorem test_word_plog : decode32 0x0E80A7F1 = .ok (.plog { sa := 5, idx := 3, w := 0 }) := by rfl
theorem test_word_trap : decode32 0x12800BF1 = .ok (.trap { code := 5, w := 0 }) := by rfl
theorem test_word_mwait : decode32 0x0680E1F1 = .ok (.mwait { sa := 7, w := 0 }) := by rfl
theorem test_word_yield : decode32 0x140001F1 = .ok (.yield 0) := by rfl
theorem test_word_vxor16 : decode16 0x30AC = .ok (.vxorC { s := 6, d := 5 }) := by rfl
theorem test_word_xlspawn : decodeHost 0x0000050B = .ok (.xlspawn 10) := by rfl
theorem test_word_xlqpush : decodeHost 0x00C5A50B = .ok (.xlqpush 10 11 12) := by rfl

/-! ### What the decoder refuses (R131, R142) -/

theorem test_refused_op0 : decode32 0x00000001 = .error .unlisted := by rfl
theorem test_refused_header : decode32 0x0A1811F9 = .error .headerForm := by rfl
theorem test_refused_scope6 : decode32 0xC08019F1 = .error .badScope := by rfl
theorem test_refused_funct3 : decodeHost 0x0000350B = .error .badCustom := by rfl

/-! ### Ill-formed terms: one for each check of WellFormed -/

theorem test_ill_mov : (Instr.mov { s := 0, d := 0 }).illForm = some .reserved := by decide
theorem test_ill_vadd64 : (Instr.vadd64 { lm := 0, vb := 13, va := 10, vd := 8, p := 0, w := 0 }).illForm = some .oddPair := by decide
theorem test_ill_vcmp : (Instr.vcmp { lm := 0, vb := 3, va := 2, cond := .eq, pd := 0, p := 0, w := 0 }).illForm = some .p0Dest := by decide
theorem test_ill_vcmpi : (Instr.vcmpi { imm := 3, va := 2, cond := .eq, pd := 0, p := 0, w := 0 }).illForm = some .p0Dest := by decide
theorem test_ill_vfcmp : (Instr.vfcmp { lm := 0, vb := 3, va := 2, cond := .eq, pd := 0, p := 0, w := 0 }).illForm = some .p0Dest := by decide
theorem test_ill_vvote : (Instr.vvoteAny { ps := 1, pd := 0, p := 0, w := 0 }).illForm = some .p0Dest := by decide
theorem test_ill_vballot : (Instr.vballot { ps := 1, vd := 3, p := 0, w := 0 }).illForm = some .oddPair := by decide
theorem test_ill_vdfma : (Instr.vdfma { vc := 9, vb := 8, va := 6, vd := 4, w := 0 }).illForm = some .oddPair := by decide
theorem test_ill_vcvt_same : (Instr.vcvt { e := 0, src := .f32, dst := .f32, va := 2, vd := 4, p := 0, w := 0 }).illForm = some .badConvert := by decide
theorem test_ill_vcvt_element : (Instr.vcvt { e := 1, src := .f32, dst := .int, va := 2, vd := 4, p := 0, w := 0 }).illForm = some .badConvert := by decide
theorem test_ill_ld_address : (Instr.ld { hint := .normal, sc := .gang, acq := 0, sx := 0, sz := 2, va := 3, vd := 4, p := 0, w := 0 }).illForm = some .oddPair := by decide
theorem test_ill_ld_sx : (Instr.ld { hint := .normal, sc := .gang, acq := 0, sx := 1, sz := 2, va := 2, vd := 4, p := 0, w := 0 }).illForm = some .reserved := by decide
theorem test_ill_st_pair : (Instr.st { hint := .normal, sc := .gang, rel := 0, sz := 3, va := 2, vd := 5, p := 0, w := 0 }).illForm = some .oddPair := by decide
theorem test_ill_cas : (Instr.atom { wide := 1, sc := .gang, op := .cas, va := 2, vd := 6, p := 0, w := 0 }).illForm = some .oddPair := by decide
theorem test_ill_atom_fadd : (Instr.atom { wide := 1, sc := .gang, op := .fadd, va := 2, vd := 6, p := 0, w := 0 }).illForm = some .unlisted := by decide
theorem test_ill_nmred_fmax : (Instr.nmred { wide := 1, sc := .gang, op := .fmax, va := 2, vd := 6, p := 0, w := 0 }).illForm = some .unlisted := by decide
theorem test_ill_tld_core : (Instr.tld { peer := 0, core := 2, h := 1, va := 2, vd := 6, p := 0, w := 0 }).illForm = some .reserved := by decide
theorem test_ill_tatom_core : (Instr.tatom { peer := 0, core := 2, op := .add, h := 1, va := 2, vd := 6, w := 0 }).illForm = some .reserved := by decide
theorem test_ill_cpy_sd : (Instr.cpy { re := 0, sd := 5, sb := 3, sa := 2, w := 0 }).illForm = some .reserved := by decide
theorem test_ill_lmap : (Instr.lmap { m := 0, sa := 3, w := 0 }).illForm = some .badLaneMap := by decide
theorem test_ill_gets_number : (Instr.gets { vk := 0, hi := 0, sa := 3, num := 0x15, w := 0 }).illForm = some .badSpecial := by decide
theorem test_ill_gets_scope : (Instr.gets { vk := 0, hi := 0, sa := 3, num := 0x0C, w := 0 }).illForm = some .badSpecial := by decide
theorem test_ill_gets_pair : (Instr.gets { vk := 1, hi := 0, sa := 3, num := 0x0D, w := 0 }).illForm = some .oddPair := by decide
theorem test_ill_sets_readonly : (Instr.sets { vk := 0, hi := 0, sa := 3, num := 0x07, w := 0 }).illForm = some .badSpecial := by decide

/-! ### Small states -/

/-- A thread in its pass with some v registers. -/
def thr (v : List (Nat × Word)) : Thread := { Thread.empty with loc := .pass, v := v }

/-- A team of four threads of one gang of 16 on core 0, thread 0 with some v registers. -/
def team0 (v : List (Nat × Word)) : Team :=
  { placedTeam with
    trapVec := 0x2000, ctxid := 7, teamId := 5, leagueId := 3, wbase := 16, wlen := 8, tsUnits := 16, sys := true
    lm := [(1, 0x0005), (2, 0x0041), (7, 0x0002)]
    threads := [(0, thr v), (1, thr []), (2, thr []), (3, thr [])] }

/-- A pass on core 0 of those groups, at the first word of its body, after a header at 0x1000. -/
def pass0 (body : List Byte) (gs : List (List Nat)) : Pass :=
  { placedPass 0 0 0 with hdr := 0x1000, addr := 0x1000, body := body, groups := gs }

/-- A body of one word, and of two. -/
def one : List Byte := toBytes 4 0x01840809
def two : List Byte := toBytes 4 0x01840809 ++ toBytes 4 0x01840809

/-- One slice that runs, with a team on core 0 in slot 0 of a launch. -/
def world (t : Team) (p : Pass) : State :=
  { State.reset.powered with
    turn := .core 0, nextSeq := 1
    cores := [(0, { Core.empty with
      passes := [p], lines := (upto 0 66).map (fun n => { team := 0, q := 0, n := n, dirty := false })
      slots := [(0, { record := [], state := 2, refuse := 0, team := some 0 })] })]
    clusters := [(0, { Cluster.empty with started := true })], dies := [(0, Die.empty)]
    slices := [(0, Slice.empty)], harts := [(0, Hart.empty)], teams := [(0, t)] }

/-- Thread 0 alone, and all four threads, with some v registers in thread 0. -/
def lone (v : List (Nat × Word)) : State := world (team0 v) (pass0 one [[0]])
def four (v : List (Nat × Word)) : State := world (team0 v) (pass0 one [[0, 1, 2, 3]])

/-- What an outcome leaves. -/
def left (o : Host.Outcome State Fault Refusal) : State :=
  match o with
  | .next t => t
  | _ => State.reset

/-- Thread 0 of the team after an instruction, and the words of the team's youngest result under way. -/
def thread0 (i : Instr) (s : State) : Thread := ((left (exec i s)).team 0).thread 0
def youngest (i : Instr) (s : State) : List (Nat × Nat × Word) :=
  match ((left (exec i s)).team 0).results.getLast? with
  | some r => r.vs
  | none => []

/-! ### Single steps: vector instructions -/

/-- R418: a sum wraps at 32 bits. -/
theorem test_vadd_wraps :
    (thread0 (.vadd { lm := 0, vb := 2, va := 1, vd := 3, p := 0, w := 0 }) (lone [(1, 0xFFFFFFFF), (2, 2)])).vget 3 = 1 := by decide
/-- R441: the difference is VA − VB. -/
theorem test_vsub_order :
    (thread0 (.vsub { lm := 0, vb := 2, va := 1, vd := 1, p := 0, w := 0 }) (lone [(1, 3), (2, 5)])).vget 1 = 0xFFFFFFFE := by decide
/-- R449's example: 0 − 1 on pairs. -/
theorem test_vsub64 :
    (thread0 (.vsub64 { lm := 0, vb := 12, va := 10, vd := 8, p := 0, w := 0 }) (lone [(12, 1)])).v64 8 = 0xFFFFFFFFFFFFFFFF := by decide
theorem test_vmulh_signed :
    (thread0 (.vmulhS { lm := 0, vb := 1, va := 1, vd := 2, p := 0, w := 0 }) (lone [(1, 0x80000000)])).vget 2 = 0x40000000 := by decide
theorem test_vmulh_unsigned :
    (thread0 (.vmulhU { lm := 0, vb := 1, va := 1, vd := 2, p := 0, w := 0 }) (lone [(1, 0xFFFFFFFF)])).vget 2 = 0xFFFFFFFE := by decide
theorem test_vadd_saturates :
    (thread0 (.vaddSat { lm := 0, vb := 2, va := 1, vd := 3, p := 0, w := 0 }) (lone [(1, 0x80000000), (2, 0xFFFFFFFF)])).vget 3 = 0x80000000 := by decide
/-- R441: a shift uses b[4:0], and VSHR.S keeps the sign. -/
theorem test_vshr_signed_by_33 :
    (thread0 (.vshrS { lm := 0, vb := 2, va := 1, vd := 3, p := 0, w := 0 }) (lone [(1, 0x80000000), (2, 33)])).vget 3 = 0xC0000000 := by decide
theorem test_vmin_unsigned :
    (thread0 (.vminU { lm := 0, vb := 2, va := 1, vd := 3, p := 0, w := 0 }) (lone [(1, 0x80000000), (2, 1)])).vget 3 = 1 := by decide
/-- R442: the examples of VMOVI. -/
theorem test_vmovi_negative : (thread0 (.vmovi { imm := 0x7FFF, vd := 6, p := 0, w := 0 }) (lone [])).vget 6 = 0xFFFFFFFF := by decide
/-- R443: VXORI with −1 inverts every bit. -/
theorem test_vxori_inverts :
    (thread0 (.vxori { imm := 0x1FF, va := 1, vd := 2, p := 0, w := 0 }) (lone [(1, 0x0F0F0F0F)])).vget 2 = 0xF0F0F0F0 := by decide
theorem test_vshi_rotates :
    (thread0 (.vshi { kind := .rot, amount := 4, va := 1, vd := 2, p := 0, w := 0 }) (lone [(1, 0x80000001)])).vget 2 = 0x00000018 := by decide
/-- R425: GE.U of 0x80000000 and 1. -/
theorem test_vcmp_unsigned :
    (thread0 (.vcmp { lm := 0, vb := 2, va := 1, cond := .geU, pd := 5, p := 0, w := 0 }) (lone [(1, 0x80000000), (2, 1)])).p = 0x21 := by decide
theorem test_vcmp_signed :
    (thread0 (.vcmp { lm := 0, vb := 2, va := 1, cond := .geS, pd := 5, p := 0, w := 0 }) (lone [(1, 0x80000000), (2, 1)])).p = 0x01 := by decide
/-- R444: PS = 0 selects v[VB]. -/
theorem test_vsel_false :
    (thread0 (.vsel { ps := 3, vb := 2, va := 1, vd := 4, p := 0, w := 0 }) (lone [(1, 11), (2, 22)])).vget 4 = 22 := by decide
theorem test_vmad :
    (thread0 (.vmad { vc := 3, vb := 2, va := 1, vd := 4, w := 0 }) (lone [(1, 0xFFFFFFFF), (2, 3), (3, 5)])).vget 4 = 2 := by decide
theorem test_vclz : (thread0 (.vclz { lm := 0, va := 1, vd := 2, p := 0, w := 0 }) (lone [(1, 0x00010000)])).vget 2 = 15 := by decide
theorem test_vbrev : (thread0 (.vbrev { lm := 0, va := 1, vd := 2, p := 0, w := 0 }) (lone [(1, 0x00000006)])).vget 2 = 0x60000000 := by decide
theorem test_vsext : (thread0 (.vsextB { lm := 0, va := 1, vd := 2, p := 0, w := 0 }) (lone [(1, 0x1280)])).vget 2 = 0xFFFFFF80 := by decide
/-- R89: a division truncates towards zero; by zero the quotient is all ones, and the remainder the dividend. -/
theorem test_vdiv_truncates :
    youngest (.vdivS { lm := 0, va := 1, vd := 2, p := 0, w := 0 }) (lone [(1, 2), (2, 0xFFFFFFF9)]) = [(0, 2, 0xFFFFFFFD)] := by decide
theorem test_vrem_by_zero :
    youngest (.vremU { lm := 0, va := 1, vd := 2, p := 0, w := 0 }) (lone [(2, 77)]) = [(0, 2, 77)] := by decide
/-- R433: 1.5 + 2.25 is 3.75, and +0 + −0 is +0. -/
theorem test_vfadd :
    (thread0 (.vfadd { lm := 0, vb := 2, va := 1, vd := 3, p := 0, w := 0 }) (lone [(1, 0x3FC00000), (2, 0x40100000)])).vget 3 = 0x40700000 := by decide
theorem test_vfadd_zeros :
    (thread0 (.vfadd { lm := 0, vb := 2, va := 1, vd := 3, p := 0, w := 0 }) (lone [(2, 0x80000000)])).vget 3 = 0 := by decide
/-- R433: ∞ − ∞ is the canonical NaN, with NV. -/
theorem test_vfsub_infinities :
    (thread0 (.vfsub { lm := 0, vb := 1, va := 1, vd := 3, p := 0, w := 0 }) (lone [(1, 0x7F800000)])).vget 3 = 0x7FC00000 := by decide
/-- R436: VFNMA is −(a·b) + c: −(2·3) + 7 is 1. -/
theorem test_vfnma :
    (thread0 (.vfnma { vc := 3, vb := 2, va := 1, vd := 4, w := 0 })
      (lone [(1, 0x40000000), (2, 0x40400000), (3, 0x40E00000)])).vget 4 = 0x3F800000 := by decide
/-- R431: 1·2 + 3·4 + 0.5 in BF16 pairs is 14.5. -/
theorem test_vdot2 :
    (thread0 (.vdot2 { vc := 3, vb := 2, va := 1, vd := 4, w := 0 })
      (lone [(1, 0x40403F80), (2, 0x40804000), (3, 0x3F000000)])).vget 4 = 0x41680000 := by decide
/-- R430: 1·1 + 2^-52 in FP64. -/
theorem test_vdfma :
    (thread0 (.vdfma { vc := 10, vb := 6, va := 6, vd := 4, w := 0 }) (lone [(7, 0x3FF00000), (11, 0x3CB00000)])).v64 4
      = 0x3FF0000000000001 := by decide
theorem test_vfcmp_nan :
    (thread0 (.vfcmp { lm := 0, vb := 2, va := 1, cond := .unord, pd := 3, p := 0, w := 0 }) (lone [(1, 0x7FC00000)])).p = 0x09 := by decide
/-- R110's example of VREQ: a T8 word from scale 1.0 to 2.0. -/
theorem test_vreq :
    (thread0 (.vreq { vb := 2, va := 1, vd := 3, w := 0 }) (lone [(1, 0x017FE84B), (2, 0x00008078)])).vget 3 = 0x0077D02B := by decide +kernel
/-- The example of VCVT: 20.0 saturates to the largest T8 code in element 3, and the other elements stay. -/
theorem test_vcvt_t8 :
    (thread0 (.vcvt { e := 3, src := .f32, dst := .t8, va := 11, vd := 20, p := 0, w := 0 })
      (lone [(11, 0x41A00000), (20, 0x00E84C4B)])).vget 20 = 0x7FE84C4B := by decide
theorem test_vcvt_int :
    (thread0 (.vcvt { e := 0, src := .f32, dst := .int, va := 1, vd := 2, p := 0, w := 0 }) (lone [(1, 0xC0200000)])).vget 2
      = 0xFFFFFFFE := by decide
/-- R447: a special function of an exact argument: 2^3, and the square root of 9. -/
theorem test_vex2 : youngest (.vex2 { lm := 0, va := 1, vd := 2, p := 0, w := 0 }) (lone [(1, 0x40400000)]) = [(0, 2, 0x41000000)] := by decide +kernel
theorem test_vsqrt : youngest (.vsqrt { lm := 0, va := 1, vd := 2, p := 0, w := 0 }) (lone [(1, 0x41100000)]) = [(0, 2, 0x40400000)] := by decide +kernel
/-- R453: a horizontal exchange gives thread 1 the word of thread 0. -/
theorem test_qxch : (((left (exec (.qxchH { va := 1, vd := 2, p := 0, w := 0 }) (four [(1, 9)]))).team 0).thread 1).vget 2 = 9 := by decide
/-- R129: a ROT by 1 in the quad gives thread 3 the word of thread 0. -/
theorem test_routed : (((left (exec (.vmov { lm := 2, va := 1, vd := 2, p := 0, w := 0 }) (four [(1, 9)]))).team 0).thread 3).vget 2 = 9 := by decide
/-- R454: the ballot of lane 0 alone. -/
theorem test_vballot :
    (thread0 (.vballot { ps := 0, vd := 8, p := 0, w := 0 }) (lone [])).v64 8 = 1 := by decide
/-- R455: the unsigned sum over the gang's present lanes. -/
theorem test_vredu :
    (youngest (.vredu { op := .add, va := 1, vd := 2, p := 0, w := 0 }) (four [(1, 9)])).map (fun r => r.2.2) = [9, 9, 9, 9] := by decide
theorem test_getv_lane : (((left (exec (.getv { sel := .lane, vd := 2, p := 0, w := 0 }) (four []))).team 0).thread 3).vget 2 = 3 := by decide
/-- R80: a window index at WLEN is REG_BOUNDS. -/
theorem test_window_bound : (thread0 (.vstx { n := 0, vs := 1, p := 0, w := 0 })
    (world { team0 [] with wlen := 0 } (pass0 one [[0]]))).trapCause = 0x04 := by decide
/-! ### States that meet the hypotheses of the statements: issues of vector instructions -/

/-- `Ready` and one executing thread, by computation, with a further test of the context and the operands' values. -/
def runsB (s : State) (j : Nat) (g : Option Nat) (os : List Opd) (P : Ctx → List (List (Option DWord)) → Bool) : Bool :=
  match s.ctx with
  | none => false
  | some x =>
    !s.anyEarly x (s.compared x g os) &&
      x.group.all (fun m => ((s.team x.team).consumed (guardRd g m)).isNone && (!s.guardOn x g m || (s.consume x m os).toBool)) &&
      x.group.contains j && s.guardOn x g j &&
      match s.consume x j os with
      | .ok vs => P x vs
      | .error _ => false

theorem runs_of {s : State} {j : Nat} {g : Option Nat} {os : List Opd} {P : Ctx → List (List (Option DWord)) → Bool}
    (h : runsB s j g os P = true) : ∃ x vs, Runs s x j g os vs ∧ P x vs = true := by
  unfold runsB at h
  split at h
  · simp at h
  next x hx =>
    simp only [Bool.and_eq_true, Bool.not_eq_true', List.all_eq_true, Bool.or_eq_true, List.contains_iff_mem] at h
    obtain ⟨⟨⟨⟨h1, h2⟩, h3⟩, h4⟩, h5⟩ := h
    split at h5
    next vs hvs =>
      refine ⟨x, vs, ⟨⟨hx, h1, fun m hm => ⟨by simpa using (h2 m hm).1, fun hg => ?_⟩⟩, h3, h4, hvs⟩, h5⟩
      have := (h2 m hm).2
      rw [hg] at this
      cases hc : s.consume x m os with
      | ok v => exact ⟨v, rfl⟩
      | error e => rw [hc] at this; simp [Except.toBool] at this
    · simp at h5

/-- The same with a proposition. -/
theorem runs_and {s : State} {j : Nat} {g : Option Nat} {os : List Opd} (P : Ctx → List (List (Option DWord)) → Prop)
    [∀ x vs, Decidable (P x vs)] (h : runsB s j g os (fun x vs => decide (P x vs)) = true) :
    ∃ x vs, Runs s x j g os vs ∧ P x vs := by
  obtain ⟨x, vs, h1, h2⟩ := runs_of h
  exact ⟨x, vs, h1, of_decide_eq_true h2⟩

/-- A vector instruction meets, in a state and for thread 0, the hypotheses of the statements about its form. -/
def Meets (s : State) (i : Instr) : Prop :=
  ∃ F x vs, vform i = some F ∧ Runs s x 0 F.guard F.opds vs ∧ DstOk s x F.guard F.dst

/-- The destination's hypothesis by computation. -/
def dstOkB (s : State) (x : Ctx) (g : Option Nat) (d : Dst) : Bool :=
  match d with
  | .win i => x.group.all (fun m => !s.guardOn x g m || decide ((((s.team x.team).thread m).iget i).toNat < (s.team x.team).wlen))
  | _ => true

theorem dstOk_of {s : State} {x : Ctx} {g : Option Nat} {d : Dst} (h : dstOkB s x g d = true) : DstOk s x g d := by
  cases d <;> simp only [DstOk, dstOkB] at *
  intro m hm hg
  simp only [List.all_eq_true, Bool.or_eq_true, Bool.not_eq_true', decide_eq_true_eq] at h
  rcases h m hm with h | h
  · rw [hg] at h; cases h
  · exact h

def meetsB (s : State) (i : Instr) : Bool :=
  match vform i with
  | some F => runsB s 0 F.guard F.opds (fun x _ => dstOkB s x F.guard F.dst)
  | none => false

theorem meets_of {s : State} {i : Instr} (h : meetsB s i = true) : Meets s i := by
  unfold meetsB at h
  split at h
  next F hF =>
    obtain ⟨x, vs, h1, h2⟩ := runs_of h
    exact ⟨F, x, vs, hF, h1, dstOk_of h2⟩
  · simp at h

/-- All of a list do. -/
theorem meets_all {s : State} {l : List Instr} (h : l.all (meetsB s) = true) : ∀ i ∈ l, Meets s i :=
  fun i hi => meets_of (by simpa using (List.all_eq_true.mp h) i hi)

theorem witness_IntegerFormatAResults :
    ∀ i ∈ [Instr.vadd { lm := 7, vb := 2, va := 1, vd := 3, p := 0, w := 0 }, .vshl { lm := 0, vb := 63, va := 63, vd := 63, p := 0, w := 3 },
        .vadd64 { lm := 1, vb := 12, va := 10, vd := 8, p := 0, w := 0 }, .vsub64 { lm := 0, vb := 62, va := 62, vd := 62, p := 0, w := 0 }],
      Meets (four [(1, 5), (63, 40)]) i := meets_all (by decide)
theorem witness_IntegerImmediateUnaryAndCompactResults_compact :
    ∀ i ∈ [Instr.vaddC { s := 2, d := 1 }, .mov { s := 31, d := 63 }], Meets (four [(1, 5)]) i := meets_all (by decide)
theorem witness_IntegerImmediateUnaryAndCompactResults :
    ∀ i ∈ [Instr.vaddi { imm := 0x100, va := 1, vd := 2, p := 0, w := 0 }, .vshi { kind := .rot, amount := 31, va := 1, vd := 2, p := 0, w := 0 },
        .vmovi { imm := 0x4000, vd := 2, p := 0, w := 0 }, .vclz { lm := 0, va := 1, vd := 2, p := 0, w := 0 },
        .vmad { vc := 31, vb := 2, va := 1, vd := 4, w := 0 }], Meets (four [(1, 5)]) i := meets_all (by decide)
theorem witness_TaperedCodesDecode :
    0x7F < 256 ∧ Tap.t8.decode 0x7F = some 960 ∧ Tap.t6.decode 0x1F = some 112 ∧ Tap.t8.decode 0x80 = none := by decide
theorem witness_CompareAndSelectResults :
    ∀ i ∈ [Instr.vcmp { lm := 0, vb := 2, va := 1, cond := .gtS, pd := 7, p := 0, w := 0 },
        .vcmpi { imm := 0x1FF, va := 1, cond := .ltU, pd := 1, p := 0, w := 0 },
        .vsel { ps := 7, vb := 2, va := 1, vd := 4, p := 0, w := 0 }], Meets (four [(1, 5)]) i := meets_all (by decide)
theorem witness_FloatWordResults :
    ∀ i ∈ [Instr.vfadd { lm := 0, vb := 2, va := 1, vd := 3, p := 0, w := 0 }, .vfmulC { s := 2, d := 1 },
        .vdot2 { vc := 3, vb := 2, va := 1, vd := 4, w := 0 }, .vfrint { lm := 0, va := 1, vd := 2, p := 0, w := 0 }],
      Meets (four [(1, 0x3F800000)]) i := meets_all (by decide)
/-- R62, R92: a signalling NaN raises NV, pending for the cycle of the result. -/
theorem test_vfadd_raises :
    ((left (exec (.vfadd { lm := 0, vb := 2, va := 1, vd := 3, p := 0, w := 0 }) (four [(1, 0x7F800001)]))).team 0).fpend.map Prod.snd
      = [flagNV] := by decide
theorem witness_DoubleAndCompareResults :
    ∀ i ∈ [Instr.vdadd { lm := 0, vb := 12, va := 10, vd := 8, p := 0, w := 0 }, .vdmul { lm := 0, vb := 12, va := 10, vd := 8, p := 0, w := 0 },
        .vdfma { vc := 30, vb := 8, va := 6, vd := 4, w := 0 }, .vfcmp { lm := 0, vb := 9, va := 8, cond := .lt, pd := 3, p := 0, w := 0 }],
      Meets (four [(1, 0x3F800000)]) i := meets_all (by decide)
theorem witness_ConversionAndBlockDotResults :
    ∀ i ∈ [Instr.vreq { vb := 6, va := 5, vd := 4, w := 0 }, .vbdotT8 { vc := 12, vb := 3, va := 2, vd := 8, bs := 3 },
        .vbdotT6 { vc := 12, vb := 3, va := 2, vd := 8, bs := 0 }, .vbdotI8 { vb := 3, va := 2, vd := 8 },
        .vcvt { e := 0, src := .f64, dst := .f32, va := 10, vd := 5, p := 0, w := 0 },
        .vcvt { e := 3, src := .f32, dst := .t8, va := 11, vd := 20, p := 0, w := 0 }], Meets (four [(2, 0x40404040)]) i :=
  meets_all (by decide)
theorem witness_IntegerDivisionResults : Meets (four [(1, 3)]) (.vdivU { lm := 0, va := 1, vd := 2, p := 0, w := 0 }) :=
  meets_of (by decide)
theorem witness_SpecialFunctionResults :
    ∀ i ∈ [Instr.vrcp { lm := 0, va := 1, vd := 2, p := 0, w := 0 },
        .vfdiv { lm := 2, va := 1, vd := 2, p := 0, w := 0 }], Meets (four [(1, 0x3F800000)]) i := meets_all (by decide)
theorem witness_LaneNetworkAndMoveResults :
    ∀ i ∈ [Instr.qxchH { va := 1, vd := 2, p := 0, w := 0 }, .qxchV { va := 1, vd := 2, p := 0, w := 0 }, .qxchD { va := 1, vd := 2, p := 0, w := 0 },
        .qbcast { n := 3, va := 1, vd := 2, p := 0, w := 0 }, .vvoteAny { ps := 1, pd := 2, p := 0, w := 0 },
        .vvoteAll { ps := 1, pd := 2, p := 0, w := 0 }, .vballot { ps := 1, vd := 2, p := 0, w := 0 },
        .vredu { op := .fadd, va := 1, vd := 2, p := 0, w := 0 }, .vseti { va := 1, n := 3, p := 0, w := 0 },
        .vmovx { n := 0, vd := 2, p := 0, w := 0 }, .vstx { n := 3, vs := 1, p := 0, w := 0 },
        .getv { sel := .pawn, vd := 2, p := 0, w := 0 }, .vmovu { hi := 1, sa := 31, vd := 2, p := 0, w := 0 }], Meets (four [(1, 7)]) i := meets_all (by decide)
/-- With a guard that is 0 in some threads and 1 in others, which frames tell apart. -/
theorem witness_VectorInstructionsChangeOnlyTheirDestination :
    Meets (world { team0 [(1, 7)] with threads := [(0, { thr [(1, 7)] with p := 3 }), (1, thr []), (2, thr []), (3, thr [])] }
      (pass0 one [[0, 1, 2, 3]])) (.vadd { lm := 0, vb := 2, va := 1, vd := 3, p := 1, w := 0 }) := meets_of (by decide)
theorem witness_FloatSpecialCases :
    fmt32.unpack 0x7FC00000 = .nan false ∧ (∃ q m e, fmt32.unpack 0x3F800000 = .fin q m e ∧ m ≠ 0) ∧
      (∀ f ∈ [fmt32, fmt64, fmtB16], ∃ q m e, 1 < 2 ^ (f.eb + f.p) ∧ f.unpack 1 = .fin q m e ∧ m ≠ 0) ∧
      (natBits 0xF8 3 5 = 31 ∧ natBits 0x7800 3 5 = 0 ∧ natBits 0x7800 11 5 = 15 ∧ natBits 0x7800 16 2 = 0 ∧
        ∀ j, j < 4 → natBits 0x12345678 (8 * j) 8 ≠ 0x80) ∧
      packing (cvtOf .t6 .t8 3).dst = some (8, 4) ∧ packing (cvtOf .t6 .t8 3).src = some (6, 5) := by
  refine ⟨by decide, ⟨_, _, _, rfl, by decide⟩, ?_, by decide, rfl, rfl⟩
  simp only [List.forall_mem_cons]
  exact ⟨⟨_, _, _, by decide, rfl, by decide⟩, ⟨_, _, _, by decide +kernel, rfl, by decide⟩, ⟨_, _, _, by decide, rfl, by decide⟩, by simp⟩
/-! ### More hypotheses by computation -/

/-- The context of the issue, and a thread's operand values in it. -/
def theCtx (s : State) : Ctx :=
  match s.ctx with
  | some x => x
  | none => { core := 0, team := 0, group := [], pc := 0, word := 0, next := none, last := false, hdr := 0, w0 := 0, w1 := 0, cc := 0, grp := 0 }
def vals (s : State) (j : Nat) (os : List Opd) : List (List (Option DWord)) :=
  match s.consume (theCtx s) j os with
  | .ok vs => vs
  | .error _ => []

theorem theCtx_of {s : State} {x : Ctx} (h : s.ctx = some x) : theCtx s = x := by simp [theCtx, h]

/-- Thread j is the whole group and runs with its operands readable. -/
def soloB (s : State) (j : Nat) (g : Option Nat) (os : List Opd) : Bool :=
  runsB s j g os (fun x _ => x.group == [j] && !(s.team x.team).isPawn j)

theorem solo_of {s : State} {j : Nat} {g : Option Nat} {os : List Opd} (h : soloB s j g os = true) :
    Solo s (theCtx s) j g os (vals s j os) := by
  obtain ⟨x, vs, hr, hp⟩ := runs_of h
  simp only [Bool.and_eq_true, beq_iff_eq, Bool.not_eq_true'] at hp
  have hx := theCtx_of hr.1.1
  have hv : vals s j os = vs := by simp [vals, hx, hr.2.2.2]
  rw [hx, hv]
  exact ⟨hr, hp⟩

/-- Pawn j is the whole group and runs with its operands readable. -/
def soloPawnB (s : State) (j : Nat) (g : Option Nat) (os : List Opd) : Bool :=
  runsB s j g os (fun x _ => x.group == [j] && (s.team x.team).isPawn j)

theorem soloPawn_of {s : State} {j : Nat} {g : Option Nat} {os : List Opd} (h : soloPawnB s j g os = true) :
    SoloPawn s (theCtx s) j g os (vals s j os) := by
  obtain ⟨x, vs, hr, hp⟩ := runs_of h
  simp only [Bool.and_eq_true, beq_iff_eq] at hp
  have hx := theCtx_of hr.1.1
  have hv : vals s j os = vs := by simp [vals, hx, hr.2.2.2]
  rw [hx, hv]
  exact ⟨hr, hp⟩

/-- A team of one real thread; thread 1, a pawn of its quad, is alone in its pass, with some v registers. -/
def pawn1 (v : List (Nat × Word)) : State :=
  world { team0 [] with t := 1, threads := [(0, thr []), (1, thr v), (2, thr []), (3, thr [])] } (pass0 one [[1]])

theorem pair_of {α β : Type} {p : α × β} {a : α} (h : p.1 = a) : p = (a, p.2) := by cases p; cases h; rfl

/-- A core's scratch of hypotheses on contexts that a computation settles. -/
theorem uniform_of {s : State} {srcs : List Nat} (h : s.ctx = some (theCtx s))
    (h1 : s.anyEarly (theCtx s) (gangReads srcs (s.team (theCtx s).team)) = false)
    (h2 : ((theCtx s).gangs (s.team (theCtx s).team)).all (fun g => srcs.all (fun n => !(s.team (theCtx s).team).spoison g n)) = true) :
    Uniform s (theCtx s) srcs := by
  refine ⟨h, h1, fun g hg n hn => ?_⟩
  have := List.all_eq_true.mp (List.all_eq_true.mp h2 g hg) n hn
  simpa using this

/-- No thread waits on an object, by computation. -/
def noBarrierHold (s : State) (b : Option Nat) : Bool :=
  s.teams.all (fun e => e.2.threads.all (fun y => match y.2.loc with
    | .held (.barrier n _ _) _ => b.isSome && b != some n
    | _ => true))

theorem noHold_of {s : State} {b : Nat} (h : noBarrierHold s (some b) = true) :
    ∀ e ∈ s.teams, ∀ y ∈ e.2.threads, ∀ ph sc r, y.2.loc ≠ .held (.barrier b ph sc) r := by
  intro e he y hy ph sc r hc
  have := List.all_eq_true.mp (List.all_eq_true.mp h e he) y hy
  rw [hc] at this
  simp at this

/-! ### Traps and early operands -/

theorem witness_TrapEntersTheHandlerOrKills_handler :
    let s := lone []
    (s.team 0).state = .resident 0 0 ∧ ((s.team 0).thread 0).loc ≠ .exited ∧ ((s.team 0).thread 0).loc ≠ .vacant ∧
      ((s.team 0).thread 0).loc ≠ .dormant ∧ ((s.team 0).thread 0).handler = false ∧ (s.team 0).trapVec ≠ 0 := by decide
theorem witness_TrapEntersTheHandlerOrKills_kill :
    let s := world { team0 [] with trapVec := 0 } (pass0 one [[0]])
    (s.team 0).state = .resident 0 0 ∧ ((s.team 0).thread 0).loc = .pass ∧
      (((s.team 0).thread 0).handler = true ∨ (s.team 0).trapVec = 0) ∧ s.laterGroups 0 = [] ∧ (s.team 0).susp = [] ∧
      ∀ cl ∈ s.clusters, cl.2.matrix.table = [] ∧ cl.2.copy.table = [] := by decide
/-- Thread 0 of one team with a trap that its handler takes. -/
theorem handled_lone (v : List (Nat × Word)) : Handled (lone v) 0 0 :=
  ⟨⟨0, 0, rfl⟩, rfl, rfl, by show (0x2000 : DWord) ≠ 0; decide⟩

/-- lm3 is 0, whose MODE 0 is refused. -/
theorem witness_OperandsThatTrap :
    let s := lone []
    let x := theCtx s
    let f : FA := { lm := 3, vb := 2, va := 1, vd := 3, p := 0, w := 0 }
    let F := formA f 4
    vform (.vadd f) = some F ∧ s.ctx = some x ∧ x.group = [0] ∧ (s.team x.team).isPawn 0 = false ∧
      s.anyEarly x (s.compared x F.guard F.opds) = false ∧ (s.team x.team).consumed (guardRd F.guard 0) = none ∧
      s.guardOn x F.guard 0 = true ∧ (∃ e, s.consume x 0 F.opds = .error e) ∧ (s.team x.team).state = .resident 0 0 ∧
      ((s.team x.team).thread 0).loc = .pass ∧ ((s.team x.team).thread 0).handler = false ∧ (s.team x.team).trapVec ≠ 0 := by
  refine ⟨rfl, rfl, rfl, rfl, by decide, by decide, by decide, ⟨_, rfl⟩, rfl, rfl, rfl, by decide⟩
theorem witness_OperandsThatTrap_poison :
    let s := world { team0 [] with threads := [(0, { thr [] with bad := [63] })] } (pass0 one [[0]])
    63 < 64 ∧ 63 ∈ ((s.team (theCtx s).team).thread 0).bad := by decide
/-- A pawn that reads a poisoned v1. -/
def poisonedPawn : State :=
  world { team0 [] with t := 1, threads := [(0, thr []), (1, { thr [] with bad := [1] }), (2, thr []), (3, thr [])] } (pass0 one [[1]])
theorem witness_OperandsThatTrap_pawn :
    let s := poisonedPawn
    let F := formA { lm := 0, vb := 2, va := 1, vd := 3, p := 0, w := 0 } 4
    vform (.vadd { lm := 0, vb := 2, va := 1, vd := 3, p := 0, w := 0 }) = some F ∧ s.ctx = some (theCtx s) ∧ (theCtx s).group = [1] ∧
      (s.team 0).isPawn 1 = true ∧ s.anyEarly (theCtx s) (s.compared (theCtx s) F.guard F.opds) = false ∧
      s.guardOn (theCtx s) F.guard 1 = true ∧ (∃ e, s.consume (theCtx s) 1 F.opds = .error e) ∧ ∀ n, F.dst ≠ .win n :=
  ⟨rfl, rfl, by decide, by decide, by decide, by decide, ⟨_, rfl⟩, by simp [formA]⟩
/-- R27: the pawn does not trap, and its result is zero. -/
theorem test_pawn_does_not_trap :
    let y := ((left (exec (.vadd { lm := 0, vb := 2, va := 1, vd := 3, p := 0, w := 0 }) poisonedPawn)).team 0).thread 1
    y.handler = false ∧ y.vget 3 = 0 := by decide

/-- v1 is readable from cycle 10 on, and the issue is at cycle 0. -/
def early : State :=
  world { team0 [] with waitCheck := true, marks := [{ tid := 0, slot := 1, grp := 0, avail := 10, pc := 0x0F08 }] } (pass0 one [[0]])
theorem witness_OperandsThatTrap_early :
    let s := early
    let x := theCtx s
    let f : FA := { lm := 0, vb := 2, va := 1, vd := 3, p := 0, w := 0 }
    let F := formA f 4
    vform (.vadd f) = some F ∧ s.ctx = some x ∧ x.group = [0] ∧ (s.team x.team).isPawn 0 = false ∧
      s.guardOn x F.guard 0 = true ∧ (s.team x.team).waitCheck = true ∧
      (∃ r m, (s.team x.team).worst x (s.compared x F.guard F.opds 0) = some r ∧ (s.team x.team).markOf x r = some m) ∧
      (s.team x.team).state = .resident 0 0 ∧ ((s.team x.team).thread 0).loc = .pass ∧
      ((s.team x.team).thread 0).handler = false ∧ (s.team x.team).trapVec ≠ 0 := by
  refine ⟨rfl, rfl, rfl, rfl, by decide, rfl, ⟨{ owner := 0, slot := 1, early := 0 }, { tid := 0, slot := 1, grp := 0, avail := 10, pc := 0x0F08 }, rfl, by decide⟩, rfl, rfl, rfl, by decide⟩
/-- R127: the shortfall and the producer. -/
theorem test_wait_short :
    let y := thread0 (.vadd { lm := 0, vb := 2, va := 1, vd := 3, p := 0, w := 0 }) early
    y.trapCause = 0x03 ∧ y.info0 = 1 + 256 * 10 ∧ y.info1 = 0x0F08 ∧ y.vget 3 = 0 := by decide

/-! ### Uniform instructions -/

/-- One gang, with s3, s4 and s5. -/
def uni (s3 s4 s5 : DWord) : State := world { team0 [] with s := [(3, s3), (4, s4), (5, s5)] } (pass0 one [[0, 1, 2, 3]])
def sreg (i : Instr) (s : State) (n : Nat) : DWord := ((left (exec i s)).team 0).sget 0 n

theorem test_uslt_unsigned : sreg (.usltU { sb := 4, sa := 3, sd := 6, w := 0 }) (uni 1 (0 - 1) 0) 6 = 1 := by decide
theorem test_umulhu : sreg (.umulhU { sb := 4, sa := 3, sd := 6, w := 0 }) (uni 0x8000000000000000 4 0) 6 = 2 := by decide
/-- R413: −8 is added, and a write of s0 is ignored. -/
theorem test_uaddi : sreg (.uaddi { imm := 0x1FF8, sa := 3, sd := 4, w := 0 }) (uni 5 0 0) 4 = 0xFFFFFFFFFFFFFFFD := by decide
theorem test_s0_ignored : sreg (.uaddi { imm := 1, sa := 3, sd := 0, w := 0 }) (uni 5 0 0) 0 = 0 := by decide
/-- R60: 0x14 is CTXID, 0x00 TEAMID. -/
theorem test_gets_ctxid : sreg (.gets { vk := 0, hi := 0, sa := 6, num := 0x14, w := 0 }) (uni 0 0 0) 6 = 7 := by decide
/-- R61: SETS of FRM takes two bits. -/
theorem test_sets_frm :
    ((left (exec (.sets { vk := 0, hi := 0, sa := 3, num := 0x09, w := 0 }) (uni 6 0 0))).team 0).frm = 2 := by decide
/-- R61: outside a handler a write of TRAPPC is ignored. -/
theorem test_sets_trappc_ignored :
    (thread0 (.sets { vk := 1, hi := 0, sa := 4, num := 0x0F, w := 0 }) (lone [(4, 0x44)])).trapPc = 0 := by decide


/-! ### Operand values -/

/-- Lane map 1 holds d. Threads 0 to 3 of a gang of 16 hold 1 to 4 in v1, 0x50 to 0x53 in v5, 0x60 to 0x63 in v6, and 3, 7, 8 and 255
in i0; the window is v16 to v23; thread b has register r poisoned. -/
def laned (d : BitVec 16) (b r : Nat) (g : List Nat) : State :=
  let y := fun (j : Nat) (i : Word) => (j, { thr [(1, BitVec.ofNat 32 (j + 1)), (5, BitVec.ofNat 32 (0x50 + j)), (6, BitVec.ofNat 32 (0x60 + j))] with
    ix := i, p := if j % 2 = 0 then 2 else 0, bad := if j = b then [r] else [] })
  world { team0 [] with lm := [(1, d)], s := [(3, 0x4000)], threads := [y 0 3, y 1 7, y 2 8, y 3 255] } (pass0 one [g])
def all4 : List Nat := [0, 1, 2, 3]

/-- MODE 1 to 5, of a quad and of the gang, with each fill, of parameter 1. -/
def goodMaps : List (BitVec 16) :=
  [0x41, 0x42, 0x43, 0x44, 0x45, 0x49, 0x4A, 0x4B, 0x4C, 0x4D, 0x51, 0x52, 0x53, 0x54, 0x55, 0x59, 0x5A, 0x5B, 0x5C, 0x5D]
def readsB (d : BitVec 16) (g : List Nat) (j : Nat) (os : List Opd) : Bool :=
  runsB (laned d 9 0 g) j none os (fun x vs => vs == os.map (operandValue ((laned d 9 0 g).team x.team) x j))
def Reads (d : BitVec 16) (g : List Nat) (j : Nat) (os : List Opd) : Prop :=
  ∃ x vs, Runs (laned d 9 0 g) x j none os vs ∧ vs = os.map (operandValue ((laned d 9 0 g).team x.team) x j)
theorem reads_of {d : BitVec 16} {g : List Nat} {j : Nat} {os : List Opd} (h : readsB d g j os = true) : Reads d g j os := by
  obtain ⟨x, vs, h1, h2⟩ := runs_of h
  exact ⟨x, vs, h1, by simpa using h2⟩
theorem laned_shaped (d : BitVec 16) (b r : Nat) (g : List Nat) : Shaped ((laned d b r g).team 0) :=
  ⟨.inl rfl, by show 16 + 8 ≤ 64; decide⟩
/-- Each mode, scope and fill, in the first and the last thread of the group; the words of a pair go together. -/
theorem witness_OperandValues_routed : ∀ d ∈ goodMaps, Reads d all4 0 [.rv 1 5, .rv64 1 5] ∧ Reads d all4 3 [.rv 1 5, .rv64 1 5] := by
  have h : goodMaps.all (fun d => readsB d all4 0 [.rv 1 5, .rv64 1 5] && readsB d all4 3 [.rv 1 5, .rv64 1 5]) = true := by
    decide +kernel
  intro d hd
  have := List.all_eq_true.mp h d hd
  rw [Bool.and_eq_true] at this
  exact ⟨reads_of this.1, reads_of this.2⟩
/-- Own registers, quad partners in and out of the group, a block, the gang, and the first and last register of the window. -/
theorem witness_OperandValues_lanes :
    Reads 0x41 [0, 1, 2] 0 [.v 63, .v64 62, .rv 0 5, .quadX 1 5, .quadX 3 6, .quadB 3 5, .p 1, .s 3, .block 0 8 5, .gangV 5, .gangP 1, .ix 0] ∧
    Reads 0x41 [0, 1] 0 [.ix 0, .win 0] ∧ Reads 0x41 [0, 1] 1 [.ix 0, .win 0] :=
  ⟨reads_of (by decide +kernel), reads_of (by decide +kernel), reads_of (by decide +kernel)⟩
theorem laned_short (d : BitVec 16) (b r : Nat) (g : List Nat) (x : Ctx) (q : Rd) : ((laned d b r g).team 0).short x q = 0 := by
  simp [Team.short, Team.markOf, laned, world, team0, State.team, Tab.get, Tab.find?, placedTeam, Team.empty]
/-- Descriptors of MODE 0, 6 and 7, of SCOPE 2 and 3, and with each of bits 15:12; i0 at WLEN and above it. -/
theorem witness_OperandValues_refused :
    (∀ d ∈ [(0x40 : BitVec 16), 0x46, 0x47, 0x61, 0x71, 0x1041, 0x2041, 0x4041, 0x8041], badRoute d) ∧
      (∀ d ∈ goodMaps, ¬badRoute d) ∧
      (∀ j ∈ [2, 3], ((laned 0x41 9 0 all4).team 0).wlen ≤ ((((laned 0x41 9 0 all4).team 0).thread j).iget 0).toNat) ∧
      ∀ j ∈ [0, 1], ((((laned 0x41 9 0 all4).team 0).thread j).iget 0).toNat < ((laned 0x41 9 0 all4).team 0).wlen := by
  refine ⟨by simp [badRoute], by simp [badRoute, goodMaps], by decide, by decide⟩
/-- What each operand of thread 0 consumes when thread 1 or it has a poisoned register; a fill value consumes none. -/
theorem witness_OperandValues_poison :
    let t := fun (b r : Nat) => (laned 0x44 b r all4).team 0
    let x := fun (b r : Nat) => theCtx (laned 0x44 b r all4)
    Consumes (t 0 5) (x 0 5) 0 (.v 5) ∧ Consumes (t 0 6) (x 0 6) 0 (.v64 5) ∧ Consumes (t 1 5) (x 1 5) 0 (.rv 1 5) ∧
      Consumes (t 0 1) (x 0 1) 0 (.rv 1 5) ∧ Consumes (t 1 5) (x 1 5) 0 (.quadX 1 5) ∧ Consumes (t 1 5) (x 1 5) 0 (.quadB 1 5) ∧
      Consumes (t 0 64) (x 0 64) 0 (.p 1) ∧ ¬Consumes (t 0 64) (x 0 64) 0 (.p 0) ∧ Consumes (t 0 65) (x 0 65) 0 (.ix 0) ∧
      Consumes (t 0 19) (x 0 19) 0 (.win 0) ∧ Consumes (t 3 5) (x 3 5) 0 (.block 0 8 5) ∧ Consumes (t 3 5) (x 3 5) 0 (.gangV 5) ∧
      Consumes (t 3 64) (x 3 64) 0 (.gangP 1) ∧ ¬Consumes (t 0 5) (x 0 5) 0 (.rv 1 5) := by
  refine ⟨?_, ?_, ?_, ?_, ?_, ?_, ?_, ?_, ?_, ?_, ?_, ?_, ?_, ?_⟩ <;> simp only [Consumes, BadRoute, Bad, if_false, Nat.one_ne_zero] <;> decide +kernel

/-! ### Rounding and block steps -/

/-- BF16 subnormals and their edge: two and a half units is a tie between even and odd; 127.75 units reach the least normal number
after rounding, 127.625 do not. -/
theorem witness_RoundingAndBlockSteps_round :
    (dyad 5 (-134) ≠ magOf fmtB16 2 ∧ magOf fmtB16 2 ≤ dyad 5 (-134) ∧ dyad 5 (-134) < magOf fmtB16 3 ∧
      ¬upFrom fmtB16 0 false 2 (dyad 5 (-134)) ∧ upFrom fmtB16 3 false 2 (dyad 5 (-134)) ∧ 2 + 1 < 2 ^ (fmtB16.p - 1)) ∧
    (magOf fmtB16 127 ≤ dyad 511 (-135) ∧ upFrom fmtB16 0 false 127 (dyad 511 (-135)) ∧ reachesNormal fmtB16 0 false (dyad 511 (-135)) ∧
      upFrom fmtB16 0 false 127 (dyad 1021 (-136)) ∧ ¬reachesNormal fmtB16 0 false (dyad 1021 (-136)) ∧ 127 + 1 = 2 ^ (fmtB16.p - 1)) ∧
    (upFrom fmtB16 2 true 0x3F80 (dyad 257 (-8)) ∧ 2 ^ (fmtB16.p - 1) < 0x3F80 + 1 ∧ 0x3F80 + 1 < fmtB16.inf) ∧
    (upFrom fmtB16 0 false 0x7F7F (dyad 511 119) ∧ dyad 511 119 ≠ magOf fmtB16 0x7F7F ∧ dyad 511 119 < magOf fmtB16 0x7F80 ∧
      0x7F7F + 1 = fmtB16.inf ∧ magOf fmtB16 fmtB16.inf ≤ dyad 1 128 ∧ dyad 256 (-8) = magOf fmtB16 0x3F80) := by
  simp only [upFrom, goesUp, reachesNormal]
  refine ⟨⟨?_, ?_, ?_, ?_, ?_, ?_⟩, ⟨?_, ?_, ?_, ?_, ?_, ?_⟩, ⟨?_, ?_, ?_⟩, ?_, ?_, ?_, ?_, ?_, ?_⟩ <;> decide +kernel
/-- R90, R92: those numbers rounded. -/
theorem test_round_inexact :
    fmtB16.round 0 false 5 (-134) = (2, flagNX ||| flagUF) ∧ fmtB16.round 3 false 5 (-134) = (3, flagNX ||| flagUF) ∧
      fmtB16.round 0 false 511 (-135) = (128, flagNX) ∧ fmtB16.round 0 false 1021 (-136) = (128, flagNX ||| flagUF) ∧
      fmtB16.round 2 true 257 (-8) = (0xBF81, flagNX) ∧ fmtB16.round 0 false 511 119 = (0x7F80, flagOF ||| flagNX) ∧
      fmtB16.round 1 false 1 128 = (0x7F7F, flagOF ||| flagNX) := by decide +kernel
/-- Products of BF16 elements: a NaN, infinity times zero, infinities of either sign, and finite ones; FP32 accumulators of each kind;
sums of zero and not. -/
theorem witness_RoundingAndBlockSteps_sum :
    (BadProduct (0x7FC0, 0x3F80) ∧ BadProduct (0x8000, 0xFF80) ∧ ¬BadProduct (0x7F80, 0x3F80)) ∧
    (InfProduct false (0x7F80, 0x3F80) ∧ InfProduct true (0xBF80, 0x7F80) ∧ ¬InfProduct true (0x3F80, 0x4000) ∧ ¬InfProduct false (0x3F80, 0x4000)) ∧
    (NanCode fmt32 0x7FA00000 ∧ InfCode fmt32 0xFF800000 ∧ signOf fmt32 0xFF800000 = true ∧ FinCode fmt32 0xBF800000) ∧
    number fmt32 0xBF800000 + number fmtB16 0x3F80 * number fmtB16 0x3F80 = 0 ∧
    number fmt32 0x3F800000 + number fmtB16 0x3F80 * number fmtB16 0x4000 ≠ 0 ∧
    ((if false then -1 else 1) * dyad 3 0 = number fmt32 0x3F800000 + number fmtB16 0x3F80 * number fmtB16 0x4000) := by
  simp only [BadProduct, InfProduct, NanCode, InfCode, FinCode]
  refine ⟨⟨?_, ?_, ?_⟩, ⟨?_, ?_, ?_, ?_⟩, ⟨?_, ?_, ?_, ?_⟩, ?_, ?_, ?_⟩ <;> decide +kernel
/-- R105: an exact zero sum is −0 only under RDN, and a sum of +0 and zero products is +0 in every mode. -/
theorem test_bf16_step :
    bf16Step 0 0x3F800000 [0x3F80] [0x4000] = (0x40400000, 0) ∧ bf16Step 2 0xBF800000 [0x3F80] [0x3F80] = (0x80000000, 0) ∧
      bf16Step 2 0 [0] [0x3F80] = (0, 0) ∧ bf16Step 0 0 [0x7F80, 0xFF80] [0x3F80, 0x3F80] = (0x7FC00000, flagNV) := by decide +kernel
/-- T8 codes and scales: the NaN code, a NaN and a zero scale, finite ones. T8 rounds past its largest value, between codes and to zero. -/
theorem witness_RoundingAndBlockSteps_taps :
    Tap.t8.decode 0x80 = none ∧ Tap.t8.decode 0x40 ≠ none ∧ (∃ c, sx8 c = .nan) ∧ (∃ c, sx8 c = .zero) ∧ (∃ c m e, sx8 c = .fin m e) ∧
      ((15 : Rat) < dyad 31 (-1) ∧ dyad 3 0 ≤ (15 : Rat) ∧ (7 : Rat) < dyad 8 0) ∧
      ((some (3 : Word) :: [none]).length = 2 ^ 1 ∧ [some (3 : Word)].length = 2 ^ 0) := by
  refine ⟨by decide, by decide, ⟨0xFF, by decide⟩, ⟨0, by decide⟩, ⟨0x78, _, _, rfl⟩, by decide +kernel, by decide⟩

/-! ### Page walks -/

/-- A table of Sv57 at frame 0x100: its entry 0 leads to frame 0x101 and its entry 2 beyond memory. At frame 0x101 entry 0 leads to frame 0x102.
There are 1 GiB leaves: one of every permission, one that may not be written, one of PBMT 2, one beyond memory; then frame 0x103,
whose entry 0 leads to 4 KiB and 64 KiB leaves at frame 0x104; and from entry 16 a 16 GiB leaf, and from 32 one whose entries differ. -/
def pages : Memory :=
  let row := fun (a e : Nat) => (List.range 16).map (fun i => (a + 8 * i, e))
  let entries := [(0x100000, 0x101 * 2 ^ 10 + 1), (0x100010, 2 ^ 43 * 2 ^ 10 + 1), (0x101000, 0x102 * 2 ^ 10 + 1), (0x102000, 0xDF), (0x102008, 0x53),
    (0x102010, 2 ^ 62 + 0xDF), (0x102018, 2 ^ 40 * 2 ^ 10 + 0xDF), (0x102020, 0x103 * 2 ^ 10 + 1)] ++ row 0x102080 (2 ^ 63 + 2 ^ 21 * 2 ^ 10 + 0x1F) ++
    [(0x102100, 2 ^ 63 + 2 ^ 21 * 2 ^ 10 + 0x1F), (0x103000, 0x104 * 2 ^ 10 + 1), (0x104000, 0x5 * 2 ^ 10 + 0x1F)] ++
    row 0x104080 (2 ^ 63 + 8 * 2 ^ 10 + 0x1F)
  { Memory.empty with cells := entries.flatMap (fun c => ((toBytes 8 c.2).mapIdx (fun i b => (c.1 + i, b))).filter (fun c => c.2 != 0)) }
def paged (satp hgatp : DWord) : State := (world { team0 [] with satp := satp, hgatp := hgatp } (pass0 one [[0]])).setMem pages
def reachOf : Reach := (paged 0 0).walkReach 0
def sv57 : DWord := 0xA000000000000100
/-- Virtual addresses of each of them. -/
theorem witness_PageWalks_first :
    let sp : Space := { asid := 0, vmid := 0, satp := sv57, hgatp := 0 }
    let f := fun (va : DWord) => firstIn sp pages (direct reachOf) va
    f 0x12345678 = .leaf 2 0x102000 0xDF 18 ∧ f 0x40000000 = .leaf 2 0x102008 0x53 18 ∧ f 0x80000000 = .leaf 2 0x102010 (2 ^ 62 + 0xDF) 18 ∧
      f 0xC0000000 = .leaf 2 0x102018 (2 ^ 50 + 0xDF) 18 ∧ f 0x100000ABC = .leaf 0 0x104000 0x141F 0 ∧
      f 0x10001F000 = .leaf 0 0x1040F8 (2 ^ 63 + 2 ^ 13 + 0x1F) 4 ∧ f 0x400000000 = .leaf 2 0x102080 (2 ^ 63 + 2 ^ 31 + 0x1F) 22 ∧
      f 0x800000000 = .mixed ∧ f 0x1000000000000 = .noLeaf ∧ f 0x2000000000000 = .away := by decide +kernel
theorem witness_PageWalks_permits :
    permits 0xDF .write ∧ permits 0xDF .atom ∧ ¬permits 0x53 .write ∧ ¬permits 0x53 .exec ∧ permits 0x53 .read ∧
      4096 * frameOf (2 ^ 63 + 2 ^ 13 + 0x1F) 4 0x10001F = 0xF000 ∧ (paged 0 0).memEnd ≤ 4096 * frameOf (2 ^ 50 + 0xDF) 18 0xC0000 ∧
      pteBits (2 ^ 62 + 0xDF) 61 2 = 2 ∧ 0x12345678 < (paged 0 0).memEnd := by
  simp only [permits]; decide +kernel
/-- The same table as a second stage alone, and as both. -/
theorem witness_PageWalks_second :
    let sp : Space := { asid := 0, vmid := 1, satp := 0, hgatp := sv57 }
    (secondIn sp pages reachOf 0x12345678 = .leaf 2 0x102000 0xDF 18 ∧ secondIn sp pages reachOf 0x1000000000000 = .noLeaf ∧
      secondIn sp pages reachOf 0x2000000000000 = .away) ∧
    let sp : Space := { asid := 0, vmid := 1, satp := sv57, hgatp := sv57 }
    firstIn sp pages (guestEntry sp pages reachOf) 0x12345678 = .leaf 2 0x102000 0xDF 18 ∧
      firstIn sp pages (guestEntry sp pages reachOf) 0x1000000000000 = .noLeaf ∧ sp.satp.extractLsb' 60 4 = 10 ∧
      firstIn sp pages (guestEntry sp pages reachOf) 0x40000000 = .leaf 2 0x102008 0x53 18 ∧
      let sp := { sp with satp := 0xA000001000000100 }
      secondIn sp pages reachOf (4096 * (sp.satp.extractLsb' 0 44).toNat) = .noLeaf := by
  decide +kernel
/-- A core's TLB and a die's that serve an address, and neither. -/
theorem witness_PageWalks_tlbs :
    let e : TlbEntry := { asid := 0, vmid := 0, vpn := 4, order := 0, ppn := 4, r := true, w := true, x := true, u := true, d := true, pbmt := 0 }
    let sp : Space := { asid := 0, vmid := 0, satp := sv57, hgatp := 0 }
    let s := paged sv57 0
    let s1 := s.updCore 0 (fun k => { k with tlb := [e] })
    let s2 := s.setDie 0 { Die.empty with tlb := [e] }
    (s1.core 0).tlb.find? (fun t => t.serves sp 0x4000 .read) = some e ∧
      ((s2.core 0).tlb.find? (fun t => t.serves sp 0x4000 .read) = none ∧ (s2.die (coreDie 0)).tlb.find? (fun t => t.serves sp 0x4000 .read) = some e) ∧
      ((s.core 0).tlb.find? (fun t => t.serves sp 0x4000 .read) = none ∧ (s.die (coreDie 0)).tlb.find? (fun t => t.serves sp 0x4000 .read) = none) := by
  decide +kernel
/-- R170: a walk for a write sets A and D in the 4 KiB leaf and gives its frame's address. -/
theorem test_walk_sets_ad :
    let w := walk (paged 0 0).memEnd reachOf { asid := 0, vmid := 0, satp := sv57, hgatp := 0 } pages 0x100000ABC .write
    w.tr = .ok 0x5ABC 0 ∧ w.mem.readNat 0x104000 8 = 0x14DF := by decide +kernel

/-! ### Words that are refused -/

/-- OP 0, an unlisted FN6, an odd pair, p0 as a destination, a reserved field and a header in a body; and words of instructions. -/
theorem witness_IllFormedWordsAreRefused :
    (∀ w ∈ [(0x00000001 : Word), 0x1F8C393F, 0x06944091, 0x00000099, 0x1F0419B1, 0x0A1811F9, 0x00000000], listed w = false) ∧
      ∀ w ∈ [(0x230A2251 : Word), 0x918441A9, 0x0E0163F1, 0x9C6223E9, 0x06144091], listed w = true := by
  have h : ([(0x00000001 : Word), 0x1F8C393F, 0x06944091, 0x00000099, 0x1F0419B1, 0x0A1811F9, 0x00000000].all (fun w => !listed w) &&
    [(0x230A2251 : Word), 0x918441A9, 0x0E0163F1, 0x9C6223E9, 0x06144091].all listed) = true := by decide +kernel
  rw [Bool.and_eq_true, List.all_eq_true, List.all_eq_true] at h
  exact ⟨fun w hw => by simpa using h.1 w hw, h.2⟩
theorem witness_IllFormedWordsAreRefused_trap :
    let s := lone []
    s.ctx = some (theCtx s) ∧ (theCtx s).group = [0] ∧ (s.team (theCtx s).team).isPawn 0 = false ∧
      (s.team (theCtx s).team).state = .resident 0 0 ∧ ((s.team (theCtx s).team).thread 0).loc = .pass ∧
      ((s.team (theCtx s).team).thread 0).handler = false ∧ (s.team (theCtx s).team).trapVec ≠ 0 := by decide

theorem witness_UniformResultsAndFrame :
    let s := uni 1 2 3
    Uniform s (theCtx s) [3, 4] ∧ Uniform s (theCtx s) [0] ∧ 0 ∈ (theCtx s).gangs (s.team (theCtx s).team) :=
  ⟨uniform_of rfl (by decide) (by decide), uniform_of rfl (by decide) (by decide), by decide⟩
theorem witness_SpecialRegisterReads :
    (let s := uni 1 2 3
     Uniform s (theCtx s) [] ∧ 0 ∈ (theCtx s).gangs (s.team (theCtx s).team) ∧
       ∃ e ∈ teamRegisters s (theCtx s), e.1 = (0x14 : BitVec 5).toNat) ∧
    (let f : FSpec := { vk := 1, hi := 1, sa := 30, num := 0x0F, w := 0 }
     (Instr.gets f).illForm = none ∧ (∃ e ∈ threadRegisters, e.1 = f.num.toNat) ∧
       ∃ x vs, Runs (lone []) x 0 none [] vs ∧ DstOk (lone []) x none (specDst f true)) := by
  refine ⟨⟨uniform_of rfl (by decide) (by decide), by decide, by decide⟩, by decide, by decide, ?_⟩
  obtain ⟨x, vs, h, -⟩ := runs_of (s := lone []) (j := 0) (g := none) (os := []) (P := fun _ _ => true) (by decide)
  exact ⟨x, vs, h, trivial⟩
theorem witness_SpecialRegisterWrites :
    (let s := uni 1 2 3
     let f : FSpec := { vk := 0, hi := 0, sa := 3, num := 0x12, w := 0 }
     (Instr.sets f).illForm = none ∧ Uniform s (theCtx s) [f.sa.toNat] ∧
       ((theCtx s).realGangs (s.team (theCtx s).team)).getLast? = some 0) ∧
    (let f : FSpec := { vk := 1, hi := 0, sa := 4, num := 0x0F, w := 0 }
     (Instr.sets f).illForm = none ∧ ∃ x vs, Runs (lone []) x 0 none [specOpd f (f.num.toNat != 0x0C)] vs) := by
  refine ⟨⟨by decide, uniform_of rfl (by decide) (by decide), by decide⟩, by decide, ?_⟩
  obtain ⟨x, vs, h, -⟩ := runs_of (s := lone []) (j := 0) (g := none) (os := [.v64 4]) (P := fun _ _ => true) (by decide)
  exact ⟨x, vs, h⟩

theorem witness_SpecialRegisterWrites_outside :
    (Instr.sets { vk := 1, hi := 0, sa := 4, num := 0x0F, w := 0 }).illForm = none ∧ (lone []).ctx = some (theCtx (lone [])) ∧
      ∀ j ∈ (theCtx (lone [])).group, (((lone []).team (theCtx (lone [])).team).thread j).handler = false := ⟨by decide, rfl, by decide⟩

/-- The same with a program log that takes channel 3, of 4 records at 0x8000. -/
def logging : State :=
  (uni 0x41 2 3).setDie 0 { Die.empty with plogMask := 8, pl := { Ring.empty with base := 0x8000, log2n := 2 } }
theorem witness_LaneMapAndProgramLog :
    (let s := uni 0x41 2 3
     Uniform s (theCtx s) [3] ∧ ((theCtx s).realGangs (s.team (theCtx s).team)).getLast? = some 0 ∧
       (s.die (coreDie (theCtx s).core)).plogMask.getLsbD 3 = false) ∧
    (let s := logging
     OneGang s (theCtx s) 0 [3] ∧ (s.die (coreDie (theCtx s).core)).plogMask.getLsbD 3 = true ∧
       (s.die (coreDie (theCtx s).core)).pl.configured = true ∧ (s.die (coreDie (theCtx s).core)).pl.full = false) :=
  ⟨⟨uniform_of rfl (by decide) (by decide), by decide, by decide⟩,
    ⟨uniform_of rfl (by decide) (by decide), by decide, by decide⟩, by decide, by decide, by decide⟩
/-- R392: the record's value, channel and gang. -/
theorem test_plog :
    let t := left (exec (.plog { sa := 3, idx := 3, w := 0 }) logging)
    t.mem.readNat 0x8000 8 = 0x41 ∧ t.mem.readNat 0x801C 1 = 3 ∧ (t.die 0).pl.tail = 1 := by decide
theorem test_lmap : ((left (exec (.lmap { m := 7, sa := 3, w := 0 }) (uni 0x10041 2 3))).team 0).lmGet 7 = 0x41 := by decide

/-! ### Global memory -/

/-- Thread 0 alone with the address 0x4000 in v2:v3 and some data in v4 to v7, and bytes at 0x4000. -/
def atMem : State :=
  (lone [(2, 0x4000), (4, 0x11223344), (5, 0x55667788)]).setMem (Memory.empty.write 0x4000 [0x80, 0x02, 0x03, 0x04])
def ldb : FLd := { hint := .normal, sc := .gang, acq := 0, sx := 1, sz := 0, va := 2, vd := 6, p := 0, w := 0 }
def stw : FSt := { hint := .normal, sc := .gang, rel := 0, sz := 2, va := 2, vd := 4, p := 0, w := 0 }
def addw : FRmw AtomOp := { wide := 0, sc := .partition, op := .add, va := 2, vd := 4, p := 0, w := 0 }
def redw : FRmw NmOp := { wide := 0, sc := .cluster, op := .add, va := 2, vd := 4, p := 0, w := 0 }

/-- R383: a byte is extended by its sign. -/
theorem test_ld_byte_signed : youngest (.ld ldb) atMem = [(0, 6, 0xFFFFFF80)] := by decide
/-- R383: little-endian. -/
theorem test_ld_word : youngest (.ld { ldb with sx := 0, sz := 2 }) atMem = [(0, 6, 0x04030280)] := by decide
/-- R147: an address that is no multiple of the size. -/
theorem test_ld_misaligned :
    let y := thread0 (.ld { ldb with sx := 0, sz := 1 }) (lone [(2, 0x4001)])
    y.trapCause = 0x05 ∧ y.info0 = 0x4001 ∧ y.handler = true := by decide
/-- R180: a store reaches memory at its home, not at its issue. -/
theorem test_st_then_home :
    let t := left (exec (.st stw) atMem)
    t.mem.readNat 0x4000 4 = 0x04030280 ∧ (left (exec (.storePerformedAtHome 0 0) t)).mem.readNat 0x4000 4 = 0x11223344 := by decide
/-- R354: an atomic at its home adds and replies with the old word. -/
theorem test_atom_at_home :
    let t := left (exec (.atomAtHome 0 0) (left (exec (.atom addw) atMem)))
    t.mem.readNat 0x4000 4 = 0x152535C4 ∧ ((t.team 0).results.map Result.vs) = [[(0, 4, 0x04030280)]] := by decide
theorem test_nmred_performed :
    (left (exec (.nmredUpdatePerformed 0 0) (left (exec (.nmred redw) atMem)))).mem.readNat 0x4000 4 = 0x152535C4 := by decide

/-- The L1 holds the line of 0x4000. -/
def inL1 : State := atMem.setCore 0 { atMem.core 0 with l1 := [{ line := 0x80, bytes := List.replicate 128 7, bad := [] }] }
theorem witness_LoadResults :
    (∃ pa nc s1, Solo atMem (theCtx atMem) 0 (some 0) [.v64 2] (vals atMem 0 [.v64 2]) ∧
      atMem.checked (theCtx atMem) .gang (sc (vals atMem 0 [.v64 2]) 0) 1 .read = (.ok pa nc, s1) ∧ (s1.core 0).atq = [] ∧
      (s1.core 0).stq = [] ∧ (s1.core 0).l1.find? (fun l => l.line == pa / 128) = none ∧ s1.mem.poisoned pa 1 = false) ∧
    ∃ pa s1 l, Solo inL1 (theCtx inL1) 0 (some 0) [.v64 2] (vals inL1 0 [.v64 2]) ∧
      inL1.checked (theCtx inL1) .gang (sc (vals inL1 0 [.v64 2]) 0) 1 .read = (.ok pa false, s1) ∧ (s1.core 0).atq = [] ∧
      (s1.core 0).l1.find? (fun l => l.line == pa / 128) = some l ∧ l.bad = [] ∧ ldb.hint ≠ .bypass ∧ ldb.acq = 0 ∧ ¬Wide ldb.sc :=
  ⟨⟨0x4000, false, _, solo_of (by decide), pair_of (by decide), by decide, by decide, by decide, by decide⟩,
    0x4000, _, _, solo_of (by decide), pair_of (by decide), by decide, rfl, rfl, by decide, rfl, by simp [Wide, ldb]⟩
theorem witness_StoreResults :
    ∃ pa nc s1, Solo atMem (theCtx atMem) 0 (some 0) [.v64 2, .v 4] (vals atMem 0 [.v64 2, .v 4]) ∧
      atMem.checked (theCtx atMem) .gang (sc (vals atMem 0 [.v64 2, .v 4]) 0) 4 .write = (.ok pa nc, s1) ∧
      (stw.rel = 1 → (theCtx atMem).last = true) :=
  ⟨0x4000, false, _, solo_of (by decide), pair_of (by decide), by decide⟩
theorem witness_AtomicsAreSentToTheirHomes :
    (∃ pa nc s1, Solo atMem (theCtx atMem) 0 (some 0) (atomOpds .add false 2 4) (vals atMem 0 (atomOpds .add false 2 4)) ∧
      (theCtx atMem).last = true ∧
      atMem.checked (theCtx atMem) .partition (sc (vals atMem 0 (atomOpds .add false 2 4)) 0) 4 .atom = (.ok pa nc, s1)) ∧
    ∃ pa nc s1, Solo atMem (theCtx atMem) 0 (some 0) [.v64 2, .v 4] (vals atMem 0 [.v64 2, .v 4]) ∧ (theCtx atMem).last = true ∧
      atMem.checked (theCtx atMem) .cluster (sc (vals atMem 0 [.v64 2, .v 4]) 0) 4 .write = (.ok pa nc, s1) :=
  ⟨⟨0x4000, false, _, solo_of (by decide), by decide, pair_of (by decide)⟩,
    0x4000, false, _, solo_of (by decide), by decide, pair_of (by decide)⟩

/-- Thread 0 with an address that no table maps: Sv57 from a root of zeros, and a region entry. -/
def unmapped : State :=
  world { team0 [(2, 0x4000)] with satp := 0xA000000000000100, threads := [(0, { thr [(2, 0x4000)] with trapPc := 0x1000 })] }
    (pass0 one [[0]])
theorem witness_AccessesTrapAndFault_order :
    (let s := lone [(2, 0x4000)]
     Solo s (theCtx s) 0 (some 0) [.v64 2] (vals s 0 [.v64 2]) ∧ Handled s 0 0 ∧ s.scopeDenied (s.team 0).vmid .system = true) ∧
    (let s := lone [(2, 0x4002)]
     Solo s (theCtx s) 0 (some 0) [.v64 2] (vals s 0 [.v64 2]) ∧ Handled s 0 0 ∧ s.scopeDenied (s.team 0).vmid .gang = false ∧
       (sc (vals s 0 [.v64 2]) 0).toNat % 4 ≠ 0) ∧
    (let s := lone [(3, 0x80000000)]
     Solo s (theCtx s) 0 (some 0) [.v64 2] (vals s 0 [.v64 2]) ∧ Handled s 0 0 ∧ s.scopeDenied (s.team 0).vmid .gang = false ∧
       (sc (vals s 0 [.v64 2]) 0).toNat % 4 = 0 ∧ canonical (sc (vals s 0 [.v64 2]) 0) = false) :=
  ⟨⟨solo_of (by decide), handled_lone _, by decide⟩, ⟨solo_of (by decide), handled_lone _, by decide, by decide⟩,
    solo_of (by decide), handled_lone _, by decide, by decide, by decide⟩
theorem witness_AccessesTrapAndFault_park :
    let s := unmapped
    ∃ cause s1, Solo s (theCtx s) 0 (some 0) [.v64 2] (vals s 0 [.v64 2]) ∧ Handled s 0 0 ∧ ((s.team 0).thread 0).trapPc ≠ 0 ∧
      s.checked (theCtx s) .gang (sc (vals s 0 [.v64 2]) 0) 1 .read = (.stop (.park (sc (vals s 0 [.v64 2]) 0) .read cause), s1) ∧
      (s1.die (coreDie (theCtx s).core)).faults = [] :=
  ⟨1, _, solo_of (by decide), ⟨⟨0, 0, rfl⟩, rfl, rfl, by decide⟩, by decide, pair_of (by decide), by decide⟩
/-- R173: the parked thread. -/
theorem test_fault_parks :
    let t := left (exec (.ld ldb) unmapped)
    ((t.team 0).thread 0).loc = .parked ∧ ((t.team 0).thread 0).info0 = 0x4000 ∧ (t.die 0).faults.length = 1 := by decide
/-- The pawn of `pawn1` with an address that no table maps. -/
def unmappedPawn : State :=
  (pawn1 [(2, 0x4000)]).setTeam 0 { (pawn1 [(2, 0x4000)]).team 0 with satp := 0xA000000000000100 }
theorem witness_AccessesTrapAndFault_pawn :
    (let s := pawn1 [(2, 0x4000)]
     (mute s (theCtx s) (.st stw) = some (some 0, [.v64 2, .v 4]) ∧ SoloPawn s (theCtx s) 1 (some 0) [.v64 2, .v 4] (vals s 1 [.v64 2, .v 4])) ∧
       (mute s (theCtx s) (.fence { sc := .cluster, kind := .ar, w := 0 }) = some (none, []) ∧ SoloPawn s (theCtx s) 1 none [] (vals s 1 [])) ∧
       SoloPawn s (theCtx s) 1 (some 0) (atomOpds .add false 2 4) (vals s 1 (atomOpds .add false 2 4)) ∧
       SoloPawn s (theCtx s) 1 none [.v 5, .v 6] (vals s 1 [.v 5, .v 6])) ∧
    (let s := unmappedPawn
     ∃ o s1, SoloPawn s (theCtx s) 1 (some 0) [.v64 2] (vals s 1 [.v64 2]) ∧
       s.checked (theCtx s) .gang (sc (vals s 1 [.v64 2]) 0) 1 .read = (.stop o, s1)) :=
  ⟨⟨⟨rfl, soloPawn_of (by decide)⟩, ⟨rfl, soloPawn_of (by decide)⟩, soloPawn_of (by decide), soloPawn_of (by decide)⟩,
    .park 0x4000 .read 1, _, soloPawn_of (by decide), pair_of (by decide)⟩
theorem test_pawn_stores_nothing : ((left (exec (.st stw) (pawn1 [(2, 0x4000)]))).core 0).stq = [] := by decide

/-- The instruction is not the last of its body. -/
def notLast : State := world (team0 [(2, 0x4000)]) (pass0 two [[0]])
theorem witness_IrrevocableInstructionsMustBeLast :
    let s := notLast
    s.ctx = some (theCtx s) ∧ (theCtx s).group = [0] ∧ (s.team 0).isPawn 0 = false ∧ (theCtx s).last = false ∧ Handled s 0 0 :=
  ⟨rfl, rfl, by decide, by decide, ⟨0, 0, rfl⟩, rfl, rfl, by decide⟩
theorem test_atom_not_last :
    let y := thread0 (.atom addw) notLast
    y.trapCause = 0x02 ∧ y.info0 = 1 ∧ y.trapPc = 0x1008 := by decide

/-- A core with a store under way. -/
def storing : State :=
  let s := lone []
  s.setCore 0 { s.core 0 with
    stq := [{ pa := 0x4000, bytes := [1, 2], vmid := 0, rel := false, team := 0, tid := 0 }]
    nmq := [{ team := 0, tid := 0, op := .add, wide := false, pa := 0x4000, v := 5, vmid := 0 }] }
theorem witness_FenceResults :
    let s := storing
    Solo s (theCtx s) 0 none [] (vals s 0 []) ∧ (s.team 0).onCore = some (theCtx s).core ∧
      s.scopeDenied (s.team 0).vmid .cluster = false ∧ s.scopeDenied (s.team 0).vmid .gang = false ∧
      s.mem.bad = [] ∧ s.mem.lost = [] ∧ (∀ r ∈ (s.core (theCtx s).core).nmq, PlainUpdate r ∧ r.after = 0) ∧ Wide .cluster ∧ ¬Wide .team ∧ Quiet s ∧
      (s.core (theCtx s).core).atq = [] ∧ (s.core (theCtx s).core).arrivals = [] ∧ (s.core (theCtx s).core).sigs = [] ∧
      ∀ st ∈ (s.core (theCtx s).core).stq, st.vmid = 0 :=
  ⟨solo_of (by decide), by decide, by decide, by decide, rfl, rfl, by unfold PlainUpdate; decide, by simp [Wide], by simp [Wide],
    ⟨by decide, by decide, by decide⟩, by decide, by decide, by decide, by decide⟩
/-- R188: NM performs the thread's update; an acquire orders later stores after the stores that its thread has read. -/
theorem test_fence_nm :
    (left (exec (.fence { sc := .team, kind := .nm, w := 0 }) storing)).mem.read 0x4000 2 = [5, 0] := by decide
theorem test_fence_acq_seen :
    (thread0 (.fence { sc := .team, kind := .acq, w := 0 })
      (storing.updThread 0 0 (fun x => { x with seen := 3 }))).after = 3 := by decide
theorem test_fence_ar :
    (left (exec (.fence { sc := .cluster, kind := .ar, w := 0 }) storing)).mem.read 0x4000 2 = [1, 2] := by decide

/-! ### Tiles and rings -/

/-- A scratchpad tile of 4 by 4 words, and a ring of 4 slots with slot 0 filled. -/
def tile : Handle :=
  { level := .scr, rows := 4, cols := 4, wide := false, base := 0, rstride := 0, cstride := 0, phead := 0, chead := 0, slots := [],
    unit := 0, data := [(5, 0x50)], bad := [] }
def ring4 : Handle :=
  { tile with level := .ring, phead := 1, slots := [(0, .filled), (2, .taken), (3, .reserved)], unit := 1 }
/-- Thread 0 alone with an element index in v5 and a word in v6; its team holds the tile in h3 and the ring in h4. -/
def tiles (ix : Word) : State :=
  world { team0 [(5, ix), (6, 0x66)] with h := [(3, tile), (4, ring4)], s := [(3, 0x4000), (4, 2), (5, 3), (6, 9)] } (pass0 one [[0]])
def t3 : FT := { peer := 0, core := 0, h := 3, va := 5, vd := 6, p := 0, w := 0 }
def a3 : FTatom := { peer := 0, core := 0, op := .add, h := 3, va := 5, vd := 6, w := 0 }

theorem test_tld : (thread0 (.tld t3) (tiles 5)).vget 6 = 0x50 := by decide
/-- R157: an index at ROWS·COLS is reason 3 on handle 3. -/
theorem test_tld_index :
    let y := thread0 (.tld t3) (tiles 16)
    y.trapCause = 0x08 ∧ y.info0 = 3 + 256 * 3 := by decide
theorem test_tatom :
    let t := left (exec (.tatom a3) (tiles 5))
    (((t.team 0).handle? 3).map (fun h => h.elem 5)) = some 0xB6 ∧ ((t.team 0).results.map Result.vs) = [[(0, 6, 0x50)]] := by decide
theorem witness_TileAccessResults :
    let s := tiles 15
    let x := theCtx s
    Solo s x 0 (some 0) [.v 5] (vals s 0 [.v 5]) ∧ Solo s x 0 (some 0) [.v 5, .v 6] (vals s 0 [.v 5, .v 6]) ∧
      Solo s x 0 none [.v 5, .v 6] (vals s 0 [.v 5, .v 6]) ∧ s.tileOf x t3 = .ok (0, tile) ∧ s.resolve x false 0 3 = .ok (0, tile) ∧
      tile.level ≠ .gwin ∧ (wd (vals s 0 [.v 5]) 0).toNat < tile.rows * tile.cols ∧ tile.poisoned 15 = false ∧ x.last = true :=
  ⟨solo_of (by decide), solo_of (by decide), solo_of (by decide), rfl, rfl, by decide, by decide, by decide, by decide⟩

/-- A window at 0x4000 in h6. -/
def windowed : State :=
  (tiles 5).setTeam 0 { (tiles 5).team 0 with h := [(6, { tile with level := .gwin, base := 0x4000, rstride := 16, cstride := 4 })] }
def t6 : FT := { t3 with h := 6 }
theorem witness_TileAccessResults_window :
    ∃ h pa nc s1 s2, windowed.tileOf (theCtx windowed) t6 = .ok (0, h) ∧ h.level = .gwin ∧ h.wide = false ∧
      (wd (vals windowed 0 [.v 5]) 0).toNat < h.rows * h.cols ∧ Solo windowed (theCtx windowed) 0 (some 0) [.v 5] (vals windowed 0 [.v 5]) ∧
      windowed.checked (theCtx windowed) .team (windowAt h 5) 4 .read = (.ok pa nc, s1) ∧ (s1.core 0).atq = [] ∧ (s1.core 0).stq = [] ∧
      (s1.core 0).l1.find? (fun l => l.line == pa / 128) = none ∧ s1.mem.poisoned pa 4 = false ∧
      Solo windowed (theCtx windowed) 0 (some 0) [.v 5, .v 6] (vals windowed 0 [.v 5, .v 6]) ∧
      windowed.checked (theCtx windowed) .team (windowAt h 5) 4 .write = (.ok pa nc, s2) :=
  ⟨_, 0x4014, false, _, _, rfl, rfl, rfl, by decide, solo_of (by decide), pair_of (by decide), by decide, by decide, by decide, by decide,
    solo_of (by decide), pair_of (by decide)⟩
/-- R168: element 5 of 4 columns is row 1, column 1. -/
theorem test_window_store :
    ((left (exec (.tst t6) windowed)).core 0).stq.map (fun q => (q.pa, q.bytes)) = [(0x4014, [0x66, 0, 0, 0])] := by decide

/-- A shape descriptor of 2 rows of 3 words at 0x4000, for s3. -/
def shaping : State :=
  (tiles 0).setMem (Memory.empty.write 0x4000 [2, 0, 3, 0, 4])
theorem witness_TileHandleAndRingResults_talloc :
    ∃ d s1, OneGang shaping (theCtx shaping) 0 [3] ∧ (shaping.team 0).handle? 7 = none ∧
      ((shaping.team 0).sget 0 3).toNat % 8 = 0 ∧
      shaping.loadDWords (theCtx shaping) ((theCtx shaping).ofGang (shaping.team 0) 0) ((shaping.team 0).sget 0 3) 4 = (.ok d, s1) ∧ ShapeOk .scr d ∧
      s1.tilesUsed (theCtx shaping).core < 128 ∧
      ((s1.team 0).h.map (fun e => e.2.units)).foldl (· + ·) 0 + unitsOf .scr d ≤ (s1.team 0).tsUnits ∧
      ∃ lo, RunFree s1 0 lo (unitsOf .scr d) :=
  ⟨[2, 0, 3, 0, 4] ++ List.replicate 27 0, _, ⟨uniform_of rfl (by decide) (by decide), by decide, by decide⟩, by decide, by decide,
    pair_of rfl, ⟨by decide, by decide, by decide, by decide, by decide, trivial⟩, by decide,
    by decide, 2, by decide, by decide⟩
theorem witness_TileHandleAndRingResults_tfree :
    let s := tiles 0
    OneGang s (theCtx s) 0 [] ∧ Tab.sortedFrom 0 (s.team 0).h = true ∧ ((s.team 0).handle? 3).isSome = true ∧
      s.handleBusy 0 3 = false ∧ (s.team 0).handle? 4 = some ring4 ∧ ring4.rows < 2 ^ 16 ∧ ring4.cols < 2 ^ 16 ∧
      (ring4.level = .ring → ring4.rows ≤ 64 ∧ ring4.phead < 64 ∧ ring4.chead < 64) :=
  ⟨⟨uniform_of rfl (by decide) (by decide), by decide, by decide⟩, by decide, by decide, by decide, rfl, by decide, by decide, by decide⟩
/-- R160: the ring's word: FREE 1 and FILLED 1, PHEAD 1, LEVEL 1, 4 by 4. -/
theorem test_tinfo :
    ((left (exec (.tinfo { h := 4, sb := 6, w := 0 }) (tiles 0))).team 0).results.map Result.ss
      = [[(0, 6, 0x0204100100040004)]] := by decide
theorem test_talloc :
    (((left (exec (.talloc { level := .scr, h := 7, sb := 3, w := 0 }) shaping)).team 0).handle? 7).map
      (fun h => (h.rows, h.cols, h.unit)) = some (2, 3, 2) := by decide
theorem witness_TileHandleAndRingResults_ring :
    let s := tiles 0
    let x := theCtx s
    s.ctx = some x ∧ x.realGangs (s.team x.team) = [0] ∧ (s.team x.team).handle? 4 = some ring4 ∧
      ring4.slot ring4.chead = .filled ∧ ring4.slot ring4.phead = .free ∧ (tile.slot tile.chead ≠ .filled) ∧
      OneGang s x 0 [4] ∧ OneGang s x 0 [5] ∧ ((s.team x.team).sget 0 4).toNat < ring4.rows ∧
      ring4.slot ((s.team x.team).sget 0 4).toNat = .taken ∧ ring4.slot ((s.team x.team).sget 0 5).toNat = .reserved ∧
      ¬(((s.team x.team).sget 0 6).toNat < ring4.rows) ∧ x.group = [0] ∧ Handled s 0 0 :=
  ⟨rfl, by decide, rfl, by decide, by decide, by decide, ⟨uniform_of rfl (by decide) (by decide), by decide, by decide⟩,
    ⟨uniform_of rfl (by decide) (by decide), by decide, by decide⟩, by decide, by decide, by decide, by decide, rfl,
    ⟨0, 0, rfl⟩, rfl, rfl, by decide⟩
theorem test_rget_producer :
    let t := (left (exec (.rget { cons := 0, h := 4, sb := 7, w := 0 }) (tiles 0))).team 0
    t.results.map Result.ss = [[(0, 7, 1)]] ∧ (t.handle? 4).map (fun h => (h.phead, h.slot 1)) = some (2, .reserved) := by decide
/-- R394: giving a slot that the producer does not hold is reason 10. -/
theorem test_rput_refused :
    (thread0 (.rput { cons := 0, h := 4, sb := 4, w := 0 }) (tiles 0)).info0 = 10 + 256 * 4 := by decide

/-! ### Barrier objects, convergence registers, monitors and traps -/

def open1 : Barrier := { Barrier.empty with state := 1, expect := 2, arrived := 1 }
def failed : Barrier := { Barrier.empty with state := 2, expect := 2, err := 5 }
/-- Thread 0 alone; b3 is open with one arrival of two, b4 open at a boundary, b5 in an error phase. -/
def objects : State :=
  world { team0 [] with
    b := [(3, open1), (4, { open1 with arrived := 0 }), (5, failed)], s := [(3, 2), (4, 1), (5, 0x4000)]
    k := [(3, { Conv.empty with state := 1, expect := 2 })] } (pass0 one [[0]])
theorem still_objects (n : Nat) (h : (objects.team (objects.barrierOwner 0 n)).clean = false ∧
    (objects.team (objects.barrierOwner 0 n)).state ≠ .away) : Still objects 0 0 n :=
  ⟨rfl, rfl, h.1, h.2, noHold_of (by simp [noBarrierHold, objects, world, team0, thr])⟩
theorem witness_BarrierObjectResults :
    let s := objects
    let x := theCtx s
    OneGang s x 0 [3, 4] ∧ OneGang s x 0 [4] ∧ OneGang s x 0 [] ∧ Still s x.core x.team 0 ∧ Still s x.core x.team 3 ∧
      1 ≤ ((s.team x.team).sget 0 3).toNat ∧ ((s.team x.team).sget 0 3).toNat ≤ 8192 ∧ (s.barrier x.team 3).state = 1 ∧
      (s.barrier x.team 5).state ≠ 0 ∧ (s.barrier x.team 3).expect < 2 ^ 14 ∧ (s.barrier x.team 3).arrived < 2 ^ 14 :=
  ⟨⟨uniform_of rfl (by decide) (by decide), by decide, by decide⟩, ⟨uniform_of rfl (by decide) (by decide), by decide, by decide⟩,
    ⟨uniform_of rfl (by decide) (by decide), by decide, by decide⟩, still_objects 0 (by decide), still_objects 3 (by decide),
    by decide, by decide, by decide, by decide, by decide, by decide⟩
theorem witness_BarrierArrivalAndWaitResults :
    let s := objects
    let x := theCtx s
    Solo s x 0 none [] (vals s 0 []) ∧ x.last = true ∧ s.scopeDenied (s.team x.team).vmid .cluster = false ∧
      (s.core x.core).arrivals = [] ∧ (s.core x.core).sigs = [] ∧ (s.team x.team).onCore = some x.core ∧
      ((s.barrier x.team 4).state = 1 ∧ (s.barrier x.team 4).arrived = 0 ∧ (s.barrier x.team 4).pend = 0) ∧
      ((s.barrier x.team 3).state = 1 ∧ ¬((s.barrier x.team 3).arrived = 0 ∧ (s.barrier x.team 3).pend = 0)) ∧
      (s.barrier x.team 5).state = 2 ∧ Handled s 0 0 :=
  ⟨solo_of (by decide), by decide, by decide, rfl, rfl, by decide, by decide, by decide, by decide, ⟨0, 0, rfl⟩, rfl, rfl, by decide⟩
/-- R351: the second arrival of two completes the phase. -/
theorem test_arrival_completes :
    let t := left (exec (.barrierArrival 0) (left (exec (.barv { sc := .team, idx := 3, w := 0 }) objects)))
    t.barrier 0 3 = { open1 with arrived := 0, phase := true } := by decide
theorem test_bwait_holds :
    (thread0 (.bwait { sc := .team, idx := 3, w := 0 }) objects).loc
      = .held (.barrier 3 false .team) { pc := 0x1008, word := (theCtx (lone [])).word, next := none, hdr := 0x1000, w0 := placedW0, w1 := placedW1 } := by decide
theorem test_bwait_error :
    let y := thread0 (.bwait { sc := .team, idx := 5, w := 0 }) objects
    y.trapCause = 0x0F ∧ y.info0 = 5 + 256 * 5 := by decide
theorem test_bstat :
    ((left (exec (.bstat { sa := 6, idx := 3, w := 0 }) objects)).team 0).results.map Result.ss
      = [[(0, 6, 0x0000000200010002)]] := by decide
theorem witness_ConvergenceRegisterResults :
    let s := objects
    let x := theCtx s
    OneGang s x 0 [5, 3] ∧ (s.core x.core).arrivals = [] ∧ (s.core x.core).sigs = [] ∧ ((s.team x.team).conv 1).err = false ∧ ((s.team x.team).conv 1).state = 0 ∧
      1 ≤ ((s.team x.team).sget 0 3).toNat ∧ ((s.team x.team).sget 0 3).toNat ≤ 2048 ∧ Solo s x 0 none [] (vals s 0 []) ∧
      x.last = true ∧ s.scopeDenied (s.team x.team).vmid .cluster = false ∧ ((s.team x.team).conv 3).err = false ∧
      ((s.team x.team).conv 3).state = 1 ∧
      ((s.team x.team).conv 3).signed + (s.core x.core).pendingSigs x.team 3 < ((s.team x.team).conv 3).expect :=
  ⟨⟨uniform_of rfl (by decide) (by decide), by decide, by decide⟩, rfl, rfl, by decide, by decide, by decide, by decide,
    solo_of (by decide), by decide, by decide, by decide, by decide, by decide⟩
/-- Threads 0 and 1; b3 is uninitialised and b5 in an error phase; of the registers k1 is armed, k2 has an error to report. -/
def refusing : State :=
  world { team0 [] with
    b := [(5, failed)], s := [(3, 8193), (4, 2049), (5, 0x4000), (6, 4097)]
    k := [(1, { Conv.empty with state := 1, expect := 2, signed := 2 }), (2, { Conv.empty with err := true, errCode := 9 })] }
    (pass0 one [[0, 1]])
theorem refusing_still (n : Nat) : Still refusing 0 0 n :=
  ⟨rfl, rfl, by simp [refusing, world, team0, State.barrierOwner, State.team, Tab.get, Tab.find?, placedTeam, Team.empty],
    by simp [refusing, world, team0, State.barrierOwner, State.team, Tab.get, Tab.find?, placedTeam, Team.empty],
    noHold_of (by simp [noBarrierHold, refusing, world, team0, thr])⟩
theorem refusing_handled : AllHandled refusing (theCtx refusing) :=
  ⟨by decide, fun j hj _ => by
    have : j = 0 ∨ j = 1 := by simpa [show (theCtx refusing).group = [0, 1] from rfl] using hj
    obtain rfl | rfl := this <;> exact ⟨⟨0, 0, rfl⟩, rfl, rfl, by decide⟩⟩
theorem witness_BarrierObjectResults_traps :
    let s := refusing
    let x := theCtx s
    OneGang s x 0 [3, 4] ∧ OneGang s x 0 [7, 4] ∧ OneGang s x 0 [4] ∧ OneGang s x 0 [] ∧ AllHandled s x ∧
      8192 < ((s.team x.team).sget 0 3).toNat ∧ ((s.team x.team).sget 0 7).toNat = 0 ∧ Still s x.core x.team 5 ∧ Still s x.core x.team 3 ∧
      (s.barrier x.team 5).state = 2 ∧ (s.barrier x.team 3).state = 0 :=
  ⟨⟨uniform_of rfl (by decide) (by decide), by decide, by decide⟩, ⟨uniform_of rfl (by decide) (by decide), by decide, by decide⟩,
    ⟨uniform_of rfl (by decide) (by decide), by decide, by decide⟩, ⟨uniform_of rfl (by decide) (by decide), by decide, by decide⟩,
    refusing_handled, by decide, by decide, refusing_still 5, refusing_still 3, by decide, by decide⟩
theorem witness_ConvergenceRegisterResults_traps :
    let s := refusing
    let x := theCtx s
    OneGang s x 0 [5, 4] ∧ OneGang s x 0 [5, 6] ∧ OneGang s x 0 [5, 7] ∧ (s.core x.core).arrivals = [] ∧ (s.core x.core).sigs = [] ∧
      AllHandled s x ∧ ((s.team x.team).conv 2).err = true ∧ ((s.team x.team).conv 1).err = false ∧ ((s.team x.team).conv 1).state ≠ 0 ∧
      ((s.team x.team).conv 0).state = 0 ∧ 2048 < ((s.team x.team).sget 0 4).toNat ∧ 2048 < ((s.team x.team).sget 0 6).toNat ∧
      ((s.team x.team).sget 0 7).toNat = 0 ∧ ((s.team x.team).conv 1).expect ≤ ((s.team x.team).conv 1).signed + (s.core x.core).pendingSigs x.team 1 :=
  ⟨⟨uniform_of rfl (by decide) (by decide), by decide, by decide⟩, ⟨uniform_of rfl (by decide) (by decide), by decide, by decide⟩,
    ⟨uniform_of rfl (by decide) (by decide), by decide, by decide⟩, rfl, rfl, refusing_handled, by decide, by decide, by decide,
    by decide, by decide, by decide, by decide, by decide⟩
theorem witness_ConvergenceRegisterResults_ksign_traps :
    let s := { refusing with cores := (lone []).cores }
    let x := theCtx s
    Solo s x 0 none [] (vals s 0 []) ∧ x.last = true ∧ Handled s x.team 0 ∧ s.scopeDenied (s.team x.team).vmid .team = false ∧
      ((s.team x.team).conv 2).err = true ∧ ((s.team x.team).conv 0).state ≠ 1 ∧ ((s.team x.team).conv 1).state = 1 :=
  ⟨solo_of (by decide), by decide, ⟨⟨0, 0, rfl⟩, rfl, rfl, by decide⟩, by decide, by decide, by decide, by decide⟩
/-- R211, R377: KARM of a register whose ERR is set traps in both threads with reason 4 and the code, and clears ERR. -/
theorem test_karm_error :
    let t := left (exec (.karm { sa := 5, sb := 4, idx := 2, w := 0 }) refusing)
    ([0, 1].map (fun j => (((t.team 0).thread j).trapCause, ((t.team 0).thread j).info0))) = [(0x14, 0x90204), (0x14, 0x90204)] ∧
      (t.team 0).conv 2 = { Conv.empty with errCode := 9 } := by decide
/-- R211, R379: a signature beyond EXPECT traps with reason 1. -/
theorem test_ksign_beyond :
    let y := thread0 (.ksign { sc := .team, idx := 1, w := 0 }) { refusing with cores := (lone []).cores }
    y.trapCause = 0x14 ∧ y.info0 = 0x101 := by decide
/-- R359: EXPECT of 8,193 traps ILLEGAL_OP in both threads. -/
theorem test_binit_expect :
    let t := left (exec (.binit { sa := 3, sb := 4, idx := 3, w := 0 }) refusing)
    [0, 1].map (fun j => ((t.team 0).thread j).trapCause) = [0x01, 0x01] ∧ (t.team 0).b = [(5, failed)] := by decide
theorem test_ksign_signs :
    ((left (exec (.ksignSignature 0) (left (exec (.ksign { sc := .team, idx := 3, w := 0 }) objects)))).team 0).conv 3
      = { Conv.empty with state := 1, expect := 2, signed := 1 } := by decide

/-- Thread 0 armed on the line of 0x4000, whose line has or has not been written. -/
def armed (w : Bool) : State :=
  world { team0 [] with
    s := [(3, 0x4000), (4, 500)]
    threads := [(0, { thr [] with mon := some { va := 0x4000, line := 0x80, sc := .team, written := w } })] } (pass0 one [[0]])
theorem witness_WaitingInstructionResults :
    (∃ pa nc s1, Solo objects (theCtx objects) 0 none [.s 5] (vals objects 0 [.s 5]) ∧
      objects.checked (theCtx objects) .team (sc (vals objects 0 [.s 5]) 0) 4 .read = (.ok pa nc, s1)) ∧
    (Solo objects (theCtx objects) 0 none [.s 3] (vals objects 0 [.s 3]) ∧ (objects.core 0).arms = [] ∧
      ((objects.team 0).thread 0).mon = none) ∧
    (∀ w, Solo (armed w) (theCtx (armed w)) 0 none [.s 4] (vals (armed w) 0 [.s 4]) ∧
      ∃ m, (((armed w).team 0).thread 0).mon = some m ∧ m.written = w) ∧
    Solo objects (theCtx objects) 0 none [] (vals objects 0 []) ∧ (theCtx objects).last = true := by
  refine ⟨⟨0x4000, false, _, solo_of (by decide), pair_of (by decide)⟩, ⟨solo_of (by decide), rfl, by decide⟩, ?_,
    solo_of (by decide), by decide⟩
  intro w
  cases w
  · exact ⟨solo_of (by decide), _, rfl, rfl⟩
  · exact ⟨solo_of (by decide), _, rfl, rfl⟩
theorem test_mwait_written : (thread0 (.mwait { sa := 4, w := 0 }) (armed true)).mon = none := by decide
theorem test_syscall_holds :
    (thread0 (.syscall { sa := 3, w := 0 }) (lone [])).loc
      = .held (.gather 3) { pc := 0x1008, word := (theCtx (lone [])).word, next := none, hdr := 0x1000, w0 := placedW0, w1 := placedW1 } := by decide

/-- Thread 0 in its handler, to return to 0x3000. -/
def handling : State :=
  world { team0 [] with threads := [(0, { thr [] with handler := true, trapPc := 0x3000 })] } (pass0 one [[0]])
theorem witness_TrapInstructionsAndHandlerReturn :
    (Solo (lone []) (theCtx (lone [])) 0 none [] (vals (lone []) 0 []) ∧ Handled (lone []) 0 0) ∧
    (let s := handling
     let y := (s.team 0).thread 0
     s.ctx = some (theCtx s) ∧ (theCtx s).group = [0] ∧ (s.team 0).isPawn 0 = false ∧ y.loc = .pass ∧ y.handler = true ∧
       y.trapPc.toNat % 2 = 0 ∧ canonical y.trapPc = true) :=
  ⟨⟨solo_of (by decide), handled_lone _⟩, rfl, rfl, by decide, by decide, by decide, by decide, by decide⟩
theorem test_trap :
    let y := thread0 (.trap { code := 5, w := 0 }) (lone [(1, 9)])
    y.trapCause = 0x10 ∧ y.info0 = 5 ∧ y.trapPc = 0x1008 ∧ y.loc = .waits 0x2000 ∧ y.vget 1 = 9 := by decide
theorem test_hret : (thread0 (.hret 0) handling).loc = .waits 0x3000 := by decide
theorem test_hret_outside : (thread0 (.hret 0) (lone [])).trapCause = 0x01 := by decide

/-! ### Posting to the engines, and task queues -/

/-- One gang alone with s2 and s3, in a team that may or may not issue DGST. -/
def poster (s2 s3 : DWord) (sys : Bool) : State :=
  world { team0 [] with s := [(2, s2), (3, s3)], sys := sys } (pass0 one [[0]])
def fx : FX := { re := 1, sd := 7, sb := 3, sa := 2, w := 0 }
theorem witness_EnginePostsAndStatus :
    (let s := poster 0x4000 0x10 true
     let x := theCtx s
     OneGang s x 0 [2, 3] ∧ x.last = true ∧ (s.team 0).sys = true ∧ ∀ p ∈ (s.core x.core).passes, p.team = x.team → p.wait = none) ∧
    (let s := poster 0x4000 0x10 false
     let x := theCtx s
     OneGang s x 0 [2, 3] ∧ x.last = true ∧ x.group = [0] ∧ (s.team 0).sys = false ∧ Handled s 0 0) :=
  ⟨⟨⟨uniform_of rfl (by decide) (by decide), by decide, by decide⟩, by decide, by decide, by decide⟩,
    ⟨uniform_of rfl (by decide) (by decide), by decide, by decide⟩, by decide, rfl, by decide, ⟨0, 0, rfl⟩, rfl, rfl, by decide⟩
/-- A group of pawns. -/
theorem witness_EnginePostsAndStatus_pawns :
    let s := pawn1 []
    s.ctx = some (theCtx s) ∧ s.anyEarly (theCtx s) (gangReads [2, 3] (s.team 0)) = false ∧ s.anyEarly (theCtx s) (gangReads [2, 0] (s.team 0)) = false ∧
      ∀ m ∈ (theCtx s).group, (s.team 0).isPawn m = true := ⟨rfl, by decide, by decide, by decide⟩
theorem test_pawns_post_nothing :
    ((left (exec (.mlds fx) (pawn1 []))).core 0).passes.map (fun p => p.wait.isSome) = [false] := by decide
theorem test_post_waits :
    ((left (exec (.mlds fx) (poster 0x4000 0x10 true))).core 0).passes.map (fun p => p.wait.isSome) = [true] := by decide
theorem test_dgst_refused : (thread0 (.dgst fx) (poster 0x4000 0x10 false)).trapCause = 0x01 := by decide
theorem witness_EnginePostsAndStatus_status :
    (let s := poster 0 0 true
     OneGang s (theCtx s) 0 [2] ∧ (theCtx s).last = true ∧ (s.team 0).sget 0 2 = 0 ∧ (s.cluster 0).matrix.table.length ≤ 16 ∧
       (s.cluster 0).copy.table.length ≤ 32 ∧ s.commandCount 0 ≤ 32) ∧
    (let s := poster 1 0 true
     OneGang s (theCtx s) 0 [2] ∧ (s.team 0).sget 0 2 = 1 ∧ ((s.cluster 0).matrix.promosOf (s.team 0)).length ≤ 1024) ∧
    (let s := poster 2 0 true
     OneGang s (theCtx s) 0 [2] ∧ 2 ≤ ((s.team 0).sget 0 2).toNat) :=
  ⟨⟨⟨uniform_of rfl (by decide) (by decide), by decide, by decide⟩, by decide, by decide, by decide, by decide, by decide⟩,
    ⟨⟨uniform_of rfl (by decide) (by decide), by decide, by decide⟩, by decide, by decide⟩,
    ⟨uniform_of rfl (by decide) (by decide), by decide, by decide⟩, by decide⟩
/-- R460: an idle cluster has 16 and 32 free entries. -/
theorem test_xstat :
    ((left (exec (.xstat { sd := 5, sa := 2, w := 0 }) (poster 0 0 true))).team 0).results.map Result.ss = [[(0, 5, 0x00102000)]] := by decide

/-- Queue 0 is enabled, with a share of 16 entries and those on the chip. -/
def queued (chip : List (List Byte × List Nat)) (s2 s3 : DWord) : State :=
  (poster s2 s3 true).setSlice 0 { Slice.empty with queues := [(0, { Queue.empty with ctl := 0x01000001, ring := 0x10008, chip := chip })] }
def entry7 : List Byte × List Nat := (List.replicate 64 7, [])
/-- The same queue bound to a launch. -/
def bound0 : State :=
  (poster 0x10000 0x4000 true).setSlice 0
    { Slice.empty with queues := [(0, { Queue.empty with ctl := 0x01000005, ring := 0x10008 })] }
theorem witness_TaskQueueInstructionResults_push :
    (let s := queued [] 0x10000 0x4000
     let x := theCtx s
     ∃ bs s1, OneGang s x 0 [2, 3] ∧ x.last = true ∧ (s.core x.core).stq = [] ∧ (s.core x.core).atq = [] ∧
       (s.core x.core).arrivals = [] ∧ (s.core x.core).sigs = [] ∧
       s.queueRefuse 0x10000 (s.team 0).asid (s.team 0).vmid false = none ∧ (0x4000 : DWord).toNat % 64 = 0 ∧
       s.loadDWords x (x.ofGang (s.team 0) 0) 0x4000 (8 * selCount 0x10000) = (.ok bs, s1) ∧ (s.queue 0).pushes = [] ∧ (s.queue 0).pops = [] ∧
       (s.queue 0).inRing = 0 ∧ (s.queue 0).chip.length + selCount 0x10000 ≤ (s.queue 0).share) ∧
    (let s := queued [] 0x1000001 0x4000
     let x := theCtx s
     OneGang s x 0 [2, 3] ∧ x.last = true ∧ x.group = [0] ∧ Handled s 0 0 ∧ reasonOf s (s.team 0) ((s.team 0).sget 0 2) false = 1) ∧
    (let s := bound0
     OneGang s (theCtx s) 0 [2, 3] ∧ (theCtx s).group = [0] ∧ Handled s 0 0 ∧ reasonOf s (s.team 0) ((s.team 0).sget 0 2) true = 3) :=
  ⟨⟨List.replicate 64 0, _, ⟨uniform_of rfl (by decide) (by decide), by decide, by decide⟩, by decide, by decide, by decide, by decide, by decide,
      by decide, by decide, pair_of rfl, by decide, by decide, by decide, by decide⟩,
    ⟨⟨uniform_of rfl (by decide) (by decide), by decide, by decide⟩, by decide, rfl, ⟨⟨0, 0, rfl⟩, rfl, rfl, by decide⟩, by decide⟩,
    ⟨uniform_of rfl (by decide) (by decide), by decide, by decide⟩, rfl, ⟨⟨0, 0, rfl⟩, rfl, rfl, by decide⟩, by decide⟩
theorem witness_TaskQueueInstructionResults_pop :
    (let s := queued [entry7] 0x0 0x4000
     OneGang s (theCtx s) 0 [2, 3] ∧ (theCtx s).group = [0] ∧
       s.queueRefuse ((s.team 0).sget 0 2) (s.team 0).asid (s.team 0).vmid true = none ∧ selCount ((s.team 0).sget 0 2) = 0) ∧
    (let s := queued [entry7] 0x10000 0x4000
     OneGang s (theCtx s) 0 [2, 3] ∧ (theCtx s).group = [0] ∧ s.queueRefuse 0x10000 (s.team 0).asid (s.team 0).vmid true = none ∧
       selCount 0x10000 = 1 ∧ (∃ s1, s.probeWrite 0 0 (theCtx s).pc 0x4000 1 = (.ok [0x4000], s1)) ∧ (s.queue 0).chip = entry7 :: [] ∧
       entry7.1.length = 64 ∧ (s.queue 0).inRing = 0 ∧ (s.queue 0).pops = [] ∧ (s.queue 0).pushes = [] ∧ Quiet s ∧
       (s.core 0).stq = [] ∧ (s.team 0).vmid = 0) ∧
    (∀ sel ∈ [(0x10000 : DWord), 0x810000],
      let s := queued [] sel 0x4000
      OneGang s (theCtx s) 0 [2, 3] ∧ s.queueRefuse sel (s.team 0).asid (s.team 0).vmid true = none ∧ selCount sel ≠ 0 ∧
        (∃ s1, s.probeWrite 0 0 (theCtx s).pc 0x4000 (selCount sel) = (.ok [0x4000], s1)) ∧ (s.queue 0).chip = [] ∧
        (s.queue 0).inRing = 0) ∧ selNb 0x810000 = true ∧ selNb 0x10000 = false := by
  refine ⟨⟨⟨uniform_of rfl (by decide) (by decide), by decide, by decide⟩, rfl, by decide, by decide⟩,
    ⟨⟨uniform_of rfl (by decide) (by decide), by decide, by decide⟩, rfl, by decide, by decide, ⟨_, pair_of rfl⟩, by decide,
      by decide, by decide, by decide, by decide, ⟨by decide, by decide, by decide⟩, by decide, by decide⟩, ?_, by decide, by decide⟩
  simp only [List.forall_mem_cons]
  exact ⟨⟨⟨uniform_of rfl (by decide) (by decide), by decide, by decide⟩, by decide, by decide, ⟨_, pair_of rfl⟩, by decide, by decide⟩,
    ⟨⟨uniform_of rfl (by decide) (by decide), by decide, by decide⟩, by decide, by decide, ⟨_, pair_of rfl⟩, by decide, by decide⟩, by simp⟩
/-- R255: the oldest entry is stored and 1 is replied. -/
theorem test_tqpop :
    let t := left (exec (.tqpop { sd := 5, sb := 3, sa := 2, w := 0 }) (queued [entry7] 0x10000 0x4000))
    t.mem.readNat 0x4020 1 = 7 ∧ (t.team 0).results.map Result.ss = [[(0, 5, 1)]] ∧ (t.queue 0).chip = [] := by decide
theorem test_tqpop_bound : (thread0 (.tqpop { sd := 5, sb := 3, sa := 2, w := 0 }) bound0).info0 = 3 := by decide
theorem test_tqpush_refused :
    (thread0 (.tqpush { re := 1, sd := 5, sb := 3, sa := 2, w := 0 }) (queued [] 0x40 0x4000)).info0 = 1 + 0x40 * 0x10000 := by decide

/-! ### Host harts -/

/-- Hart 0 takes its turn, with some registers. -/
def hosting (h : Hart) : State := { lone [] with turn := .hart 0, harts := [(0, h)] }
/-- A launch of one team of 16 threads with its kernel at 0x1000 and its counter at 0x5000. -/
def caller : Hart :=
  { Hart.empty with priv := .u, satp := 0xA000000000000100, x := [(10, 0x1000), (12, 0x5000), (13, 0xF00000001)] }
/-- A slice whose launch table is full. -/
def launch0 : Launch :=
  { a := [], asid := 0, vmid := 0, satp := 0, hgatp := 0, hartSlice := 0, depMet := true, bound := 0, retired := 0, withdrawn := [], reserved := none,
    seq := 0, qspawn := none, qbad := [] }
theorem witness_LaunchInstructionResults :
    (hosting caller).turn = .hart 0 ∧ refusalOf Hart.empty = some (-3) ∧
      refusalOf { caller with x := [(10, 0x1000), (12, 0x5000)] } = some (-1) ∧
      refusalOf { caller with x := [(10, 0x1000), (12, 0x5000), (13, 0x0100000F00000001)] } = some (-6) ∧
      refusalOf { caller with x := [(10, 0x1000), (12, 0x5004), (13, 0xF00000001)] } = some (-2) ∧ refusalOf caller = none ∧
      ((hosting caller).slice 0).launches.freeKey 0 < 64 ∧ (argAt (launchArgs caller) 3).getLsbD 50 = false ∧
      64 ≤ Tab.freeKey ((upto 0 64).map (fun n => (n, launch0))) 0 := by decide
theorem test_xlspawn_bare :
    ((left (exec (.xlspawn 10) (hosting { Hart.empty with x := [(10, 0x1000)] }))).hart 0).get 10 = BitVec.ofInt 64 (-3) := by decide
theorem test_xlspawn_enters :
    let t := left (exec (.xlspawn 10) (hosting caller))
    (t.hart 0).get 10 = 0 ∧ (t.hart 0).pc = 4 ∧ (t.launch? 0 0).isSome = true := by decide

/-- Hart 0 in M-mode with a counter of 5 at 0x5000, which a2 names, and a target in t1. -/
def waiter (target : DWord) : State :=
  (hosting { Hart.empty with x := [(6, target), (12, 0x5000)] }).setMem (Memory.empty.write 0x5000 [5])
theorem witness_JoinAndPushInstructionResults :
    ((waiter 5).turn = .hart 0 ∧ ((waiter 5).hart 0).priv = .m ∧ (((waiter 5).hart 0).get 12).toNat % 8 = 0 ∧
      0x5000 < (waiter 5).memEnd ∧ (waiter 5).mem.poisoned 0x5000 8 = false ∧
      (((waiter 5).hart 0).get 6).toNat ≤ (waiter 5).mem.readNat 0x5000 8 ∧
      (waiter 6).mem.readNat 0x5000 8 < (((waiter 6).hart 0).get 6).toNat ∧ (((waiter 5).hart 0).get 6).toNat % 8 ≠ 0) ∧
    (let s := hosting { Hart.empty with jwait := some { rd := 5, pa := 0x5000, va := 0x5000, till := 9 } }
     (∃ j, (s.hart 0).jwait = some j ∧ j.rd = (5 : BitVec 5).toNat ∧ j.pa < 2 ^ 40 ∧ s.mem.poisoned j.pa 8 = false)) ∧
    (let s := hosting { Hart.empty with jwait := some { rd := 5, pa := 0x10000000008, va := 0x5000, till := 9 } }
     (∃ j, (s.hart 0).jwait = some j ∧ j.rd = (5 : BitVec 5).toNat ∧ 2 ^ 40 ≤ j.pa)) ∧
    (let s := { (queued [] 0 0).setHart 0 { Hart.empty with x := [(11, 0x10000), (12, 0x4000), (13, 0x1000000)] } with turn := .hart 0 }
     let h := s.hart 0
     s.queueRefuse (h.get 13) h.space.asid h.space.vmid false = some 4 ∧
       ∃ l s1 s2 bs, s.turn = .hart 0 ∧ s.queueRefuse (h.get 11) h.space.asid h.space.vmid false = none ∧
         (s.queue 0).pushes = [] ∧ (s.queue 0).pops = [] ∧ (s.queue 0).inRing = 0 ∧ selCount (h.get 11) ≠ 0 ∧
         (s.queue 0).chip.length + selCount (h.get 11) ≤ (s.queue 0).share ∧ (h.get 12).toNat % 64 = 0 ∧
         s.hartPieces 0 .read ((List.range (selCount (h.get 11))).map (fun i => (h.get 12 + BitVec.ofNat 64 (64 * i), 64))) = (.ok l, s1) ∧
         s1.readPieces l = (some bs, s2)) := by
  refine ⟨by decide, ⟨_, rfl, by decide, by decide, by decide⟩, ⟨_, rfl, by decide, by decide⟩, by decide, [(0x4000, 64)], _, _, List.replicate 64 0, rfl, by decide,
    by decide, by decide, by decide, by decide, by decide, by decide, pair_of rfl, pair_of rfl⟩
theorem test_xljwait_answers : ((left (exec (.xljwait 5 12 6) (waiter 5))).hart 0).get 5 = 5 := by decide
theorem test_xljwait_waits : ((left (exec (.xljwait 5 12 6) (waiter 6))).hart 0).jwait.isSome = true := by decide

/-! ### What a core and the homes of its accesses do of themselves -/

def arriving : State :=
  world { team0 [] with results := [{ load := true, vs := [(0, 6, 9), (0, 7, 1)], ss := [(0, 5, 3)], flags := 1 }] } (pass0 one [[0]])
theorem witness_ResultsAreWritten :
    ∃ r, (arriving.team 0).results = r :: [] ∧ r.vs.Pairwise (fun a b => a.1 ≠ b.1 ∨ a.2.1 ≠ b.2.1) ∧
      r.ss.Pairwise (fun a b => a.1 ≠ b.1 ∨ a.2.1 ≠ b.2.1) ∧ ∀ v ∈ r.ss, v.2.1 < 32 :=
  ⟨_, rfl, by decide, by decide, by decide⟩
theorem test_load_reply : (((left (exec (.loadReply 0) arriving)).team 0).thread 0).vget 6 = 9 := by decide

def atomic0 : AtomReq :=
  { team := 0, tid := 0, op := .cas, wide := false, pa := 0x4000, va := 0x4000, a := 0x80, b := 9, vd := 4, sc := .cluster, pc := 0x1008, rel := false }
def nmred0 : NmReq := { team := 0, tid := 0, op := .fmax, wide := false, pa := 0x4000, v := 0x3F800000, vmid := 0 }
def sending : State := atMem.setCore 0 { atMem.core 0 with atq := [atomic0], nmq := [nmred0] }
/-- An update of a thread that has executed FENCE.NM, with an earlier store under way. -/
def following : State := storing.setCore 0 { storing.core 0 with nmq := [{ nmred0 with after := 1 }] }
theorem witness_AccessesArePerformedAtTheirHomes :
    (∃ st, (storing.core 0).stq = st :: [] ∧ Quiet storing ∧ st.vmid = 0 ∧ st.rel = false ∧ st.after = 0 ∧ storing.mem.wf = true) ∧
    ((sending.core 0).atq = [atomic0] ∧ (sending.core 0).stq = [] ∧ (sending.core 0).arrivals = [] ∧ (sending.core 0).sigs = [] ∧ Quiet sending ∧ (sending.team atomic0.team).vmid = 0 ∧
      sending.mem.poisoned atomic0.pa 4 = false ∧ (atomic0.op = .fadd → atomic0.wide = false)) ∧
    ((sending.core 0).nmq = [nmred0] ∧ nmred0.after = 0 ∧ PlainUpdate nmred0 ∧ sending.mem.poisoned nmred0.pa 4 = false) ∧
    let s := following
    ((s.core 0).nmq = [{ nmred0 with after := 1 }] ∧ Quiet s ∧ PlainUpdate { nmred0 with after := 1 } ∧ s.mem.poisoned nmred0.pa 4 = false ∧
      (s.core 0).arrivals = [] ∧ (s.core 0).sigs = [] ∧ (s.core 0).stq ≠ [] ∧ ∀ st ∈ (s.core 0).stq, st.vmid = 0 ∧ st.seq < 1) :=
  ⟨⟨_, rfl, ⟨by decide, by decide, by decide⟩, by decide, rfl, rfl, by decide⟩,
    ⟨rfl, by decide, by decide, by decide, ⟨by decide, by decide, by decide⟩, by decide, by decide, by decide⟩,
    ⟨rfl, rfl, by unfold PlainUpdate; decide, by decide⟩,
    rfl, ⟨by decide, by decide, by decide⟩, by unfold PlainUpdate; decide, by decide, by decide, by decide, by decide, by decide⟩
/-- R353: CAS leaves memory alone where the old word differs from the comparand. -/
theorem test_cas_fails : (left (exec (.atomAtHome 0 0) sending)).mem.readNat 0x4000 4 = 0x04030280 := by decide

/-- Thread 0 waits in BWAIT on b3, whose last arrival is on its way; a signature and an arming are too. -/
def away0 : Resume := { pc := 0x1008, word := 0, next := some 0x100C, hdr := 0x1000, w0 := placedW0, w1 := placedW1 }
def coming : State :=
  let s := world { team0 [] with
    b := [(3, open1)], k := [(3, { Conv.empty with state := 1, expect := 1 })]
    threads := [(0, { thr [] with loc := .held (.barrier 3 false .team) away0 })] } (pass0 one [[0]])
  s.setCore 0 { s.core 0 with
    arrivals := [{ team := 0, tid := 0, b := 3, rel := false }], sigs := [{ team := 0, tid := 0, k := 3, frm := 0, rel := false }]
    arms := [{ team := 0, tid := 0, mon := { va := 0x4000, line := 0x80, sc := .team, written := false } }] }
/-- The same where no thread waits. -/
def unwatched : State :=
  objects.setCore 0 { objects.core 0 with arrivals := [{ team := 0, tid := 0, b := 3, rel := false }] }
theorem witness_ArrivalsSignaturesAndArmingsArrive :
    (∃ a, (unwatched.core 0).arrivals = a :: [] ∧ a.rel = false ∧ IssuedFirst (unwatched.core 0) a.seq ∧ (unwatched.team (unwatched.barrierOwner a.team a.b)).clean = false ∧
      (unwatched.barrier a.team a.b).state = 1 ∧ (unwatched.barrier a.team a.b).arrived ≠ (unwatched.barrier a.team a.b).expect ∧
      noBarrierHold unwatched (some a.b) = true) ∧
    (3 < 12 ∧ (coming.core 0).arrivals = [{ team := 0, tid := 0, b := 3, rel := false }] ∧ IssuedFirst (coming.core 0) 0 ∧ (coming.team 0).clean = false ∧
      (coming.team 0).state = .resident 0 0 ∧ coming.barrierWaiters 0 3 = [(0, 0)] ∧
      ((coming.team 0).thread 0).loc = .held (.barrier 3 (coming.barrier 0 3).phase .team) away0 ∧ away0.next = some 0x100C ∧
      ((coming.team 0).thread 0).handler = false ∧ (coming.barrier 0 3).state = 1 ∧ (coming.barrier 0 3).pend = 0 ∧
      (coming.barrier 0 3).arrived + 1 = (coming.barrier 0 3).expect) ∧
    (∃ g, (coming.core 0).sigs = g :: [] ∧ g.rel = false ∧ IssuedFirst (coming.core 0) g.seq ∧ ((coming.team g.team).conv g.k).state = 1 ∧
      ((coming.team g.team).conv g.k).signed < ((coming.team g.team).conv g.k).expect) ∧
    ∃ a, (coming.core 0).arms = a :: [] :=
  ⟨⟨_, rfl, by decide, by unfold IssuedFirst; decide, by decide, by decide, by decide, by decide⟩, by unfold IssuedFirst; decide,
    ⟨_, rfl, by decide, by unfold IssuedFirst; decide, by decide, by decide⟩, _, rfl⟩
/-- R464: of two watched threads whose counters stand at 5 and 7 of 10, only the second has reached BTIMEOUT where the watchdog
fires. -/
theorem test_watch_counters_stop_at_the_first_to_fire :
    (((coming.setTeam 0 { coming.team 0 with btimeout := 10, threads :=
      [(0, { thr [] with loc := .held (.barrier 3 false .team) away0, watch := 5 }),
       (1, { thr [] with loc := .held (.barrier 3 false .team) away0, watch := 7 })] }).watchTime 0 20).watchLeft 0) = [(2, 0), (0, 1)] := by
  decide
theorem test_waiter_goes_on : (((left (exec (.barrierArrival 0) coming)).team 0).thread 0).loc = .waits 0x100C := by decide

def monitor0 : Monitor := { va := 0x4000, line := 0x80, sc := .team, written := false }
def timing : State :=
  let s := world { team0 [] with
    threads := [(0, { thr [] with loc := .held (.monitor (some 500) 500) away0, mon := some monitor0 })] }
    { pass0 one [[0]] with wait := some (.rget true 4 5 [{ gang := 0, tids := [0], a := 0, b := 0 }] 0) }
  s.setSlice 0 { Slice.empty with monitors := [{ team := 0, lines := [0x80], left := some 100, since := 0 }] }
def posting : State :=
  world (team0 []) { pass0 one [[0]] with wait := some (.post 0x08 true 5 [{ gang := 0, tids := [0], a := 0, b := 0 }] 0) }
theorem witness_TimeoutsEndTheirWaits :
    (let y := (timing.team 0).thread 0
     (timing.team 0).state = .resident 0 0 ∧ y.loc = .held (.monitor (some 500) 500) away0 ∧ y.mon = some monitor0 ∧
       y.handler = false ∧ (timing.team 0).trapVec ≠ 0) ∧
    (timing.slice 0).monitors = [{ team := 0, lines := [0x80], left := some 100, since := 0 }] ∧
    (∃ p, (timing.core 0).passes = [p] ∧ p.wait = some (.rget true 4 5 [{ gang := 0, tids := [0], a := 0, b := 0 }] 0)) ∧
    (∃ p, (posting.core 0).passes = [p] ∧ p.wait = some (.post 0x08 true 5 [{ gang := 0, tids := [0], a := 0, b := 0 }] 0)) ∧
    ∃ n j, (coming.team 0).state = .resident 0 0 ∧ coming.watchLeft 0 = [(n, j)] ∧ NoCommands coming ∧ (coming.team 0).susp = [] :=
  ⟨by decide, by decide, ⟨_, rfl, rfl⟩, ⟨_, rfl, rfl⟩, 0x1000000, 0, by decide, by decide, by unfold NoCommands; decide, rfl⟩
theorem test_mwait_timeout :
    let t := left (exec (.mwaitTimeout 0 0) timing)
    ((t.team 0).thread 0).trapCause = 0x0A ∧ ((t.team 0).thread 0).info1 = 500 ∧ (t.core 0).cc = 500 := by decide
theorem test_post_timeout : ((left (exec (.enginePostTimeout 0) posting)).team 0).results.map Result.ss = [[(0, 5, 0 - 1)]] := by decide

/-- The team's pass on the block at 0x1000 is selected, and the block is in memory: a gang-region header of KIND EXIT with a
body of one word. -/
def selecting : State :=
  let s := world { team0 [] with sel := some { pass0 [] [[0]] with addr := 0x1000 } } (pass0 one [[0]])
  (s.setCore 0 { s.core 0 with passes := [], lines := [] }).setMem
    (Memory.empty.write 0x1000 (toBytes 4 0x040001F9 ++ toBytes 4 5 ++ toBytes 4 0x01840809))
/-- A pass has issued its last instruction, and the team has another one selected. -/
def ending (w1 : Word) : State :=
  let s := world { team0 [] with sel := some (pass0 one [[1]]) } (pass0 one [[0]])
  s.setCore 0 { s.core 0 with passes := [], ended := [{ pass0 one [[0]] with w1 := w1 }] }
/-- An Sv57 root at 0x100000, a table at 0x101000, and at 0x102000 a 1 GiB leaf that maps address 0 with every permission. -/
def mapped : State :=
  (world { team0 [] with satp := 0xA000000000000100 } (pass0 one [[0]])).setMem (((Memory.empty.write 0x100000 [0x01, 0x04, 0x04]).write 0x101000 [0x01, 0x08, 0x04]).write 0x102000 [0xDF])
theorem witness_PassesStartAndEnd_start :
    let s := selecting
    ∃ p q s1, (s.core 0).passes.length < 4 ∧ s.halted = false ∧ s.resident 0 = [0] ∧
      (s.team 0).leaving = none ∧ (s.team 0).sel = some p ∧ p.team = 0 ∧ (s.core 0).passes.any (fun e => e.team == 0) = false ∧
      s.fetchBlock 0 p = (.ok q, s1) ∧ q.off < q.body.length :=
  ⟨{ pass0 [] [[0]] with addr := 0x1000 },
    { pass0 one [[0]] with addr := 0x1000, hdr := 0x1000, w0 := 0x040001F9, w1 := 5 }, _, by decide, by decide, by decide,
    by decide, by decide, by decide, by decide, pair_of rfl, by decide⟩
theorem witness_PassesStartAndEnd_line :
    let s := selecting
    (s.team 0).onCore = some 0 ∧ 65 < 66 ∧ 0 < (s.team 0).gangs * ((s.team 0).w / 16) ∧ (s.core 0).hasLine 0 0 65 = false ∧
      (s.core 0).lines.length < (s.core 0).lineCount ∧ s.mem.poisoned ((s.team 0).lineAddr 0 65) 64 = false := by decide
/-- Word 1 of the headers: FALL, SPLIT on p1 and on not p1 to a + 16, CALL to a + 16 and to a + 14, RET, JMPS s3 and s4, JMPV v6, KIND 7
and EXIT. -/
def kinds : List Word := [0, 0x4009, 0x4029, 0x4002, 0x3802, 3, 0xC4, 0x104, 0xC6, 7, 5]
/-- Thread 0 has v6:v7 = 0x2004 and v62:v63 = 0x3006; s3 is 0x4000 and s4 is 0x4002. -/
def ending2 (w1 : Word) (bad : List Nat) : State :=
  let s := ending w1
  s.updTeam 0 (fun t => { t with
    s := [(3, 0x4000), (4, 0x4002)], threads := t.threads.set 0 { thr [(6, 0x2004), (62, 0x3006)] with bad := bad } })
/-- What the clause on successors needs of a state. -/
def endsSoon (w1 : Word) (bad : List Nat) : Bool :=
  let s := ending2 w1 bad
  decide ((s.core 0).passes = []) && decide ((s.core 0).ended = [{ pass0 one [[0]] with w1 := w1 }]) &&
    s.passReady 0 { pass0 one [[0]] with w1 := w1 } && decide (s.resident 0 = [0]) && !(s.team 0).isPawn 0 && (s.team 0).sel.isSome &&
    decide (((s.team 0).thread 0).loc = .pass) && !((s.team 0).thread 0).handler && (s.team 0).trapVec != 0
theorem witness_PassesStartAndEnd_successor :
    (∀ w1 ∈ kinds, endsSoon w1 [] = true) ∧ endsSoon 0x4009 [64] = true ∧ endsSoon 3 [63] = true ∧ endsSoon 0xC6 [6] = true := by
  simp only [kinds, List.forall_mem_cons]
  exact ⟨⟨by decide, by decide, by decide, by decide, by decide, by decide, by decide, by decide, by decide, by decide, by decide, by simp⟩,
    by decide, by decide, by decide⟩
/-- R30: the addresses that the KINDs give. -/
theorem witness_PassesStartAndEnd_next :
    kinds.map (fun w1 => nextOf ((ending2 w1 []).team 0) 0 { pass0 one [[0]] with w1 := w1 }) =
      [some 0x100C, some 0x100C, some 0x1010, some 0x1010, some 0x100E, some 0x3006, some 0x4000, some 0x4002, some 0x2004, none, none] ∧
    kinds.map (fun w1 => spoiltFor ((ending2 w1 [6, 62, 64]).team 0) 0 { pass0 one [[0]] with w1 := w1 }) =
      [none, some 64, some 64, none, none, some 62, none, none, some 6, none, none] := ⟨by decide, by decide⟩
/-- Thread 0 after a successor: the trap, its value, and where it waits. -/
def succeeded (w1 : Word) (bad : List Nat) : BitVec 8 × DWord × DWord :=
  let y := ((left (exec (.successorEvaluation 0) (ending2 w1 bad))).team 0).thread 0
  (y.trapCause, y.info0, match y.loc with
    | .waits a => a
    | _ => 0)
/-- R30: SPLIT on p1, which is 0, falls through; RET and JMPV go to their pairs, JMPS to its s register. -/
theorem test_split : succeeded 0x4009 [] = (0, 0, 0x100C) ∧ succeeded 0x4029 [] = (0, 0, 0x1010) := by decide
theorem test_jumps : succeeded 0xC4 [] = (0, 0, 0x4000) ∧ succeeded 0xC6 [] = (0, 0, 0x2004) := by decide
/-- R282: a target that is not word-aligned, KIND 7, and a poisoned pair. -/
theorem test_successor_misaligned : succeeded 3 [] = (5, 0x3006, 0x2000) ∧ succeeded 0x104 [] = (5, 0x4002, 0x2000) := by decide
theorem test_successor_traps : succeeded 7 [] = (1, 7, 0x2000) ∧ succeeded 0xC6 [7] = (0x0C, 7, 0x2000) := by decide
def noPass : State := { lone [] with cores := [(0, { Core.empty with
  table := [{ team := 0, addr := 0x1000, mid := false, encl := none, age := 3, idle := 10, born := 0, ready := none }] })] }
theorem witness_PassesStartAndEnd_age :
    (noPass.team 0).onCore = some 0 ∧ (∀ p ∈ (noPass.core 0).passes, p.team ≠ 0) ∧ noPass.ageLeft 0 0 = some 246 := by decide
theorem witness_PassesStartAndEnd_walk :
    (mapped.core 0).tlb = [] ∧ (mapped.die (coreDie 0)).tlb = [] ∧
      ∃ pa pbmt e m, walk mapped.memEnd (mapped.walkReach (coreDie 0)) (mapped.team 0).space mapped.mem 0x4000 .read =
        { tr := .ok pa pbmt, entry := some e, mem := m, refusedBy := none } := by
  refine ⟨by decide, by decide, ?_⟩
  have h : (match walk mapped.memEnd (mapped.walkReach (coreDie 0)) (mapped.team 0).space mapped.mem 0x4000 .read with
    | ⟨.ok _ _, some _, _, none⟩ => true
    | _ => false) = true := by decide +kernel
  split at h
  · next e => exact ⟨_, _, _, _, e⟩
  · simp at h
/-- R30: KIND EXIT. -/
theorem test_exit : (((left (exec (.successorEvaluation 0) (ending 5))).team 0).thread 0).loc = .exited := by decide
/-- R30: KIND NEXT falls through to the header's address + 4 + 2·LEN. -/
theorem test_fall_through : (((left (exec (.successorEvaluation 0) (ending 0))).team 0).thread 0).loc = .waits 0x100C := by decide
theorem test_pass_start : ((left (exec (.passStart 0) selecting)).core 0).passes.map (fun p => p.body) = [one] := by decide

/-! ### The engines -/

/-- The team holds accumulator tile 2; MZACC of rows 1 and 2 of it, with an arrival at b3. -/
def mz : List Byte := [0x13, 0, 0, 0, 0, 0, 0, 0, 0, 0, 0, 0, 0, 0, 0, 0, 2, 1, 2, 0, 0] ++ List.replicate 43 0
def teamE : Team :=
  { team0 [] with accA := some 2, b := [(3, open1)], h := [(3, tile), (4, { tile with unit := 1, data := [] })] }
def postsOf (fn : Nat) (a b : DWord) : State :=
  (world teamE { pass0 one [[0]] with wait := some (.post fn true 7 [{ gang := 0, tids := [0], a := a, b := b }] 0) }).setMem
    (Memory.empty.write 0x4000 mz)
def zeroing (r : MatReq) : State :=
  (world teamE (pass0 one [[0]])).setCluster 0 { Cluster.empty with
    started := true, matrix := { Matrix.empty with table := [(0, r)], acc := [((2 * 128 + 1) * 512 + 7, 9), ((2 * 128 + 3) * 512, 8)] } }
def mzReq : MatReq :=
  { team := 0, fn := 0x13, addr := 0x4000, desc := some mz, cword := 0x13, frm := 0, coll := none, seq := 0, since := 0, state := .waiting,
    row := 0, pair := none, swapped := false, flags := 0, shadowWait := none, fault := none, err := none }
/-- MDRN of row 0 of accumulator tile 2 into a window at 0x4000 that no table maps. -/
theorem witness_PromotionKeepsTheExactTotal :
    ∃ e' x', (Promoter.int8 { promo := [], carry := none } 2 1 7 false 0x07FFFFFF [1]) = .ok (e', x') ∧ 7 < 512 ∧
      ∀ y ∈ [(1 : Int)], -(2 ^ 27) ≤ y ∧ y ≤ 2 ^ 27 := ⟨_, _, rfl, by decide, by decide⟩
/-- R223: 2^27 − 1 plus 1 leaves the low 28 bits at −2^27 and carries 1. -/
theorem witness_PromotionKeepsTheExactTotal_others :
    OneEach { promo := [], carry := none } ∧ 8 < 512 ∧ (1, 8) ≠ (1, 7) := ⟨.nil, by decide, by decide⟩
theorem test_escape :
    (match Promoter.int8 { promo := [], carry := none } 2 1 7 false 0x07FFFFFF [1] with
    | .ok (e, x) => (e.toNat, x.promo.map Promo.carry)
    | .error _ => (0, [])) = (0x08000000, [1]) := by decide
theorem witness_MatrixEngineSteps_accept :
    let s := postsOf 0x13 0x4000 0x13
    ∃ g s1, (s.cluster 0).matrix.posting = [] ∧ (s.cluster 0).matrix.table = [] ∧
      s.clusterPost 0 true = some (0, 0, 0x13, true, 7, g) ∧ (s.core 0).atq = [] ∧ g.a.toNat % 64 = 0 ∧ s.readDescriptor 0 0 g.a false = (.ok mz, s1) ∧
      natBit (fieldAt mz 1 1) 3 = false ∧ s.matCheck 0 0x13 mz g.b = none ∧ ¬(0x13 = 0x11 ∧ natBit (fieldAt mz 0x11 1) 0 = true) :=
  ⟨{ gang := 0, tids := [0], a := 0x4000, b := 0x13 }, _, by decide, by decide, by decide, by decide, by decide, pair_of rfl, by decide, by decide, by decide⟩
theorem witness_MatrixEngineSteps_grant :
    let s := zeroing mzReq
    (s.cluster 0).matrix.table = [(0, mzReq)] ∧ mzReq.fn = 0x13 ∧ mzReq.state = .waiting ∧ mzReq.desc = some mz ∧ mzReq.err = none ∧
      mzReq.row = 0 ∧ natBit (fieldAt mz 0x14 1) 7 = false ∧ fieldAt mz 0x11 1 + fieldAt mz 0x12 2 ≤ 128 ∧
      Tab.sortedFrom 0 (s.cluster 0).matrix.acc = true := by decide
theorem witness_MatrixEngineSteps_complete :
    let r := { mzReq with state := .granted, row := 2 }
    let s := zeroing r
    (s.cluster 0).matrix.table = [(0, r)] ∧ r.state = .granted ∧ r.row = fieldAt mz 0x12 2 ∧ r.cword.getLsbD 5 = false ∧
      OpenObject s 0 (objOf r.cword) :=
  ⟨by decide, by decide, by decide, by decide, by decide, by decide, by decide, noHold_of (by decide)⟩
theorem test_mzacc :
    let t := left (exec (.matrixGrant 0) (zeroing mzReq))
    Tab.get 0 (t.cluster 0).matrix.acc ((2 * 128 + 1) * 512 + 7) = 0 ∧ Tab.get 0 (t.cluster 0).matrix.acc ((2 * 128 + 3) * 512) = 8 := by
  decide +kernel

/-- A window at 0x4000, in a team whose page tables map nothing; MDRN of one word to it, and CPY of 16 bytes from it. -/
def window : Handle := { tile with level := .gwin, base := 0x4000, rstride := 16, cstride := 4 }
def md : List Byte :=
  [0x12, 0, 0, 0, 0, 0, 0, 0, 0, 0, 0, 0, 0, 0, 0, 0, 0, 5, 0, 2, 0, 0, 1, 0, 1, 0, 0, 0, 0, 0, 0x80, 0x3F] ++ List.replicate 32 0
def operand (addr kind h : Byte) : List Byte := [addr, 0, 0, 0, 0, 0, 0, 0, kind, h, 0, 0, 0, 0, 0, 0]
def cp (src dst : List Byte) : List Byte := [0x08, 0, 0, 0, 0, 0, 0, 0, 16, 0, 0, 0, 0, 0, 0, 0] ++ src ++ dst ++ List.replicate 16 0
def cpReq (d : List Byte) : CopyCmd :=
  { team := 0, fn := 0x08, addr := 0x4000, desc := some d, cword := 0x13, seq := 0, since := 0, state := .running, off := 0, dropped := [],
    srcSlot := none, dstSlot := none, buf := [], fault := none, err := none }
def teamF : Team := { teamE with satp := 0xA000000000000100, h := [(3, tile), (5, window)] }
def engines (t : Team) (m : Matrix) (c : Tab CopyCmd) : State :=
  (world t (pass0 one [[0]])).setCluster 0 { started := true, matrix := m, copy := { table := c } }
theorem witness_MatrixEngineSteps_fault :
    let r := { mzReq with fn := 0x12, desc := some md, state := .granted }
    let s := engines teamF { Matrix.empty with table := [(0, r)] } []
    ∃ va acc cause s1 r1, s.grantedReq 0 0 = some r ∧ s.runReq 0 0 r = (some (va, acc, cause), s1) ∧ s1.grantedReq 0 0 = some r1 ∧
      (s1.die (clusterDie 0)).faults = [] :=
  ⟨0x4000, .write, 1, _, { mzReq with fn := 0x12, desc := some md, state := .granted, begun := true }, by decide, pair_of (by decide +kernel), by decide +kernel, by decide +kernel⟩
theorem witness_MatrixEngineSteps_shadow :
    let r := { mzReq with fn := 0x10, desc := some (0x10 :: List.replicate 63 0) }
    let p : Plane := { team := 1, fmt := 0, cols := [], seq := 0 }
    let s := engines teamE { Matrix.empty with table := [(0, r)], shadow := some p } []
    (0, r) ∈ (s.cluster 0).matrix.table ∧ s.ready 0 r = true ∧ s.needsShadow 0 r = true ∧ (s.cluster 0).matrix.shadow = some p ∧
      p.team ≠ r.team := by decide

theorem witness_CopyAndDigestSteps_accept :
    let d := cp (operand 0 1 3) (operand 4 1 4)
    let s := (postsOf 0x08 0x4000 0x13).setMem (Memory.empty.write 0x4000 d)
    ∃ g s1, (s.cluster 0).copy.table = [] ∧ s.clusterPost 0 false = some (0, 0, 0x08, true, 7, g) ∧ (s.core 0).atq = [] ∧ g.a.toNat % 64 = 0 ∧
      s.readDescriptor 0 0 g.a false = (.ok d, s1) ∧ natBit (fieldAt d 1 1) 3 = false ∧ s.copyCheck 0 0x08 d g.b = none :=
  ⟨{ gang := 0, tids := [0], a := 0x4000, b := 0x13 }, _, by decide, by decide, by decide, by decide, pair_of rfl, by decide, by decide⟩
theorem witness_CopyAndDigestSteps_chunk :
    let d := cp (operand 0 1 3) (operand 4 1 4)
    let s := engines teamE Matrix.empty [(0, cpReq d)]
    (s.cluster 0).copy.table = [(0, cpReq d)] ∧ opKind (srcOp d) = 1 ∧ opKind (dstOp d) = 1 ∧ fieldAt (srcOp d) 0xA 1 = 0 ∧
      fieldAt (dstOp d) 0xA 1 = 0 ∧ ((s.team 0).handle? (opHandle (srcOp d))).isSome = true ∧
      ((s.team 0).handle? (opHandle (dstOp d))).isSome = true ∧ opHandle (srcOp d) ≠ opHandle (dstOp d) ∧ tile.bad = [] ∧
      opAddr (srcOp d) % 4 = 0 ∧ opAddr (dstOp d) % 4 = 0 ∧ copyLen d % 4 = 0 ∧ copyLen d ≤ 512 ∧ 0 < copyLen d ∧
      (cpReq d).cword.getLsbD 5 = false ∧ (s.team 0).state ≠ .away ∧ (cpReq d).buf = [] := by decide
/-- R235: 16 bytes from the tile's word 2 on go to the other tile's word 1 on. -/
theorem test_copy_chunk :
    let s := engines teamE Matrix.empty [(0, cpReq (cp (operand 8 1 3) (operand 4 1 4)))]
    (((left (exec (.copyChunkWritten 0 0) s)).team 0).handle? 4).map (fun h => h.data) = some [(1, 0), (2, 0), (3, 0), (4, 0x50)] := by
  decide +kernel
theorem witness_CopyAndDigestSteps_grant :
    let d := cp (operand 0 1 3) (operand 4 1 4)
    let r := { cpReq d with state := .waiting }
    let s := engines teamE Matrix.empty [(0, r)]
    (s.cluster 0).copy.table = [(0, r)] ∧ r.desc.isSome = true ∧ r.state = .waiting := by decide
theorem witness_CopyAndDigestSteps_fault :
    let r := cpReq (cp (operand 0 0 0) (operand 4 1 3))
    let s := engines teamF Matrix.empty [(0, r)]
    ∃ va acc cause s1 r1, s.runningCmd 0 0 = some r ∧ s.runChunk 0 0 r = (some (va, acc, cause), s1) ∧ s1.runningCmd 0 0 = some r1 ∧
      (s1.die (clusterDie 0)).faults = [] :=
  ⟨0, .read, 1, _, cpReq (cp (operand 0 0 0) (operand 4 1 3)), by decide, pair_of (by decide +kernel), by decide +kernel, by decide +kernel⟩
theorem witness_CopyAndDigestSteps_complete :
    let d := cp (operand 0 1 3) (operand 4 1 4)
    let r := { cpReq d with off := 16 }
    let s := engines teamE Matrix.empty [(0, r)]
    (s.cluster 0).copy.table = [(0, r)] ∧ r.state = .running ∧ r.desc = some d ∧ r.err = none ∧ r.fn ≠ 0x30 ∧ r.fn ≠ 0x09 ∧
      copyLen d ≤ r.off ∧ r.dropped = [] ∧ natBit (fieldAt d 1 1) 4 = false ∧ OpenObject s 0 (objOf r.cword) :=
  ⟨by decide, by decide, by decide, by decide, by decide, by decide, by decide, by decide, by decide, by decide, by decide, by decide, noHold_of (by decide)⟩
/-- DGST of the 128 bytes at 0x1000 to 0x8000. -/
def dg : List Byte :=
  [0x30, 0, 0, 0, 0, 0, 0, 0, 128, 0, 0, 0, 0, 0, 0, 0, 0, 0x10, 0, 0, 0, 0, 0, 0, 0, 0x80, 0, 0, 0, 0, 0, 0] ++ List.replicate 32 0
def dgReq : CopyCmd := { cpReq dg with fn := 0x30, cword := 3 }
def digesting (p : Option (Nat × Nat)) : State :=
  (engines teamE Matrix.empty [(0, dgReq)]).setDie 0 { Die.empty with dgst := p }
theorem witness_CopyAndDigestSteps_dgst :
    (let s := digesting none
     ∃ pa s1, (s.cluster 0).copy.table = [(0, dgReq)] ∧ (∀ n, n ≠ 0 → (s.cluster n).copy.table = []) ∧ dgReq.state = .running ∧
       0 ∈ dieClusters (clusterDie 0) ∧ (s.die (clusterDie 0)).dgst = none ∧
       s.engineAddr (clusterDie 0) 0 (BitVec.ofNat 64 (fieldAt dg 0x18 8)) .write = (.ok pa, s1)) ∧
    (let s := digesting (some (0, 0))
     ∃ pa s1, (s.die (clusterDie 0)).dgst = some (0, 0) ∧ s.mem.poisoned (fieldAt dg 0x10 8) (fieldAt dg 8 8) = false ∧
       s.engineAddr (clusterDie 0) 0 (BitVec.ofNat 64 (fieldAt dg 0x18 8)) .write = (.ok pa, s1) ∧ Quiet s ∧ s1.mem.wf = true ∧
       (s.team 0).vmid = 0 ∧ dgReq.cword.getLsbD 4 = false ∧ dgReq.cword.getLsbD 5 = false) := by
  refine ⟨⟨0x8000, _, by decide, ?_, by decide, by decide, by decide, pair_of rfl⟩,
    ⟨0x8000, _, by decide, by decide, pair_of rfl, ⟨by decide, by decide, by decide⟩, by decide, by decide, by decide, by decide⟩⟩
  intro n hn
  have : (digesting none).cluster n = Cluster.empty := by
    show Tab.get Cluster.empty [(0, _)] n = _
    simp [Tab.get, Tab.find?, Ne.symm hn]
  rw [this]; rfl
/-- FIPS 180-4's example of SHA-512: the digest of "abc". -/
theorem test_sha512_abc :
    (sha512 [0x61, 0x62, 0x63]).foldl (fun a b => a * 256 + b.toNat) 0 =
      0xddaf35a193617abacc417349ae20413112e6fa4e89a97ea20a9eeee64b55d39a2192992a274fc1a836ba3c23a3feebbd454d4423643ce80e2a9ac94fa54ca49f := by
  decide +kernel

/-! ### Rows of the matrix engine -/

def mzAt (fn : Nat) (d : List Byte) : MatReq := { mzReq with fn := fn, desc := some d }
/-- Descriptors from offset 0x10 on: MODE or format, handles, rows, columns, slices. -/
def mlds : List Byte :=
  [0x10, 0, 0, 0, 0, 0, 0, 0, 0, 0, 0, 0, 0, 0, 0, 0, 13, 3, 5, 6, 2, 0, 0, 0, 1, 0, 0, 0] ++ List.replicate 36 0
def mstrm (b flags carry : Byte) : List Byte :=
  [0x11, 0, 0, 0, 0, 0, 0, 0, 0, 0, 0, 0, 0, 0, 0, 0, b, flags, 3, 6, carry, 2, 126, 0, 2, 0, 0, 0, 1, 0, 0, 0] ++ List.replicate 32 0
def mdrn (fmt carry nc : Byte) : List Byte :=
  [0x12, 0, 0, 0, 0, 0, 0, 0, 0, 0, 0, 0, 0, 0, 0, 0, fmt, 3, carry, 2, 126, 0, 2, 0, nc, 0, 0, 0, 0, 0, 0x80, 0x3F] ++ List.replicate 32 0
def plane1 (b : BitVec 8) (words n : Nat) : Plane :=
  { team := 0, fmt := b, seq := 4, cols := List.replicate n { w := List.replicate words 0x40404040, m := [0x44444444], s := [0x7878] } }
def weights1 (b : Byte) : Weights := { seq := 4, paired := true, bytes := b :: [], ord := 0 }
def teamM : Team :=
  { teamE with h := [(3, { tile with cols := 128 }), (4, { tile with unit := 1, cols := 512 }), (5, { tile with unit := 2 }), (6, { tile with unit := 3 })] }
/-- T8, sparse, with scales. -/
theorem witness_MatrixEngineSteps_load :
    let r := mzAt 0x10 mlds
    let s := engines teamM { Matrix.empty with table := [(0, r)] } []
    AtGrant s 0 0 r mlds 0x10 ∧ (s.cluster 0).matrix.shadow = none ∧ ScalesOk mlds ∧ natBit (fieldAt mlds 0x10 1) 2 = true ∧
      natBit (fieldAt mlds 0x10 1) 3 = true ∧ Sound (s.team 0) 3 { tile with cols := 128 } ∧ Sound (s.team 0) 5 { tile with unit := 2 } ∧
      Sound (s.team 0) 6 { tile with unit := 3 } := by
  simp only [AtGrant, ScalesOk, Sound]; decide
/-- T8 with scales on the active plane, and BF16 after a swap; up to the last accumulator row. -/
theorem witness_MatrixEngineSteps_stream :
    (let d := mstrm 9 0 0
     let r := mzAt 0x11 d
     let s := engines { teamM with curW := some (weights1 9) } { Matrix.empty with table := [(0, r)], active := some (plane1 9 64 512) } []
     AtGrant s 0 0 r d 0x11 ∧ Streams s 0 r d (plane1 9 64 512) ∧ ScalesOk d ∧ Sound (s.team 0) 3 { tile with cols := 128 } ∧
       natBit (fieldAt d 0x10 1) 3 = true ∧ Sound (s.team 0) 6 { tile with unit := 3 } ∧ fieldAt d 0x16 1 + fieldAt d 0x18 2 = 128) ∧
    (let d := mstrm 3 1 0
     let r := { mzAt 0x11 d with pair := some 4 }
     let s := engines { teamM with penW := [weights1 3] } { Matrix.empty with table := [(0, r)], shadow := some (plane1 3 128 1) } []
     AtGrant s 0 0 r d 0x11 ∧ Streams s 0 r d (plane1 3 128 1) ∧ ScalesOk d ∧ r.swaps = true ∧ Sound (s.team 0) 3 { tile with cols := 128 }) := by
  refine ⟨⟨?_, ⟨by decide, by decide, by decide +kernel, by decide +kernel, .inl ⟨by decide, by decide +kernel, weights1 9, by decide, by decide, by decide⟩⟩,
      ?_, ?_, by decide, ?_, by decide⟩,
    ⟨?_, ⟨by decide, by decide, by decide, by decide +kernel, .inr ⟨by decide, by decide +kernel, weights1 3, by decide, by decide⟩⟩, ?_, by decide, ?_⟩⟩ <;>
    (simp only [AtGrant, ScalesOk, Sound]; decide +kernel)
/-- INT8 with a carry tile, and without one, where no promotion entry is held twice; the last column of one is 511. -/
theorem witness_MatrixEngineSteps_int8 :
    (let d := mstrm 0 0 0x84
     let r := mzAt 0x11 d
     let m := { Matrix.empty with table := [(0, r)], active := some (plane1 0 64 2), promo := [⟨2, 126, 0, 1⟩, ⟨2, 126, 511, 0xF⟩] }
     let s := engines { teamM with curW := some (weights1 0) } m []
     AtGrant s 0 0 r d 0x11 ∧ Streams s 0 r d (plane1 0 64 2) ∧ natBit (fieldAt d 0x14 1) 7 = true ∧
       (s.team 0).handle? (fieldAt d 0x14 1 % 32) = some { tile with unit := 1, cols := 512 } ∧ fieldAt d 0x14 1 % 32 ≠ fieldAt d 0x12 1 ∧
       OneEach { promo := m.promo, carry := some { tile with unit := 1, cols := 512 } } ∧ (∀ q ∈ m.promo, q.col < 512) ∧
       natBit (fieldAt d 0x11 1) 1 = false) ∧
    (let d := mstrm 4 0 0
     natBit (fieldAt d 0x14 1) 7 = false ∧ fieldAt d 0x10 1 % 4 = 0 ∧ natBit (fieldAt d 0x10 1) 3 = false) := by
  refine ⟨⟨?_, ⟨by decide, by decide, by decide, by decide +kernel, .inl ⟨by decide, by decide, weights1 0, by decide, by decide, by decide⟩⟩,
    by decide, by decide, by decide, ?_, by decide, by decide⟩, by decide, by decide, by decide⟩
  · simp only [AtGrant]; decide
  · simp only [OneEach]; decide
/-- FP32 elements as T8 codes, and INT8 totals with a carry tile as INT32 with a clearing. -/
theorem witness_MatrixEngineSteps_drain :
    (let d := mdrn 2 0 9
     let r := mzAt 0x12 d
     let s := engines teamM { Matrix.empty with table := [(0, r)] } []
     AtGrant s 0 0 r d 0x12 ∧ fieldAt d 0x10 1 % 8 = 2 ∧ natBit (fieldAt d 0x10 1) 3 = false ∧ fieldAt d 0x14 1 + fieldAt d 0x16 2 = 128 ∧
       (s.team 0).handle? (fieldAt d 0x11 1) = some { tile with cols := 128 } ∧ natBit (fieldAt d 0x12 1) 7 = false) ∧
    (let d := mdrn 0x1C 0x84 9
     let r := mzAt 0x12 d
     let s := engines teamM { Matrix.empty with table := [(0, r)], promo := [⟨2, 127, 0, 1⟩] } []
     AtGrant s 0 0 r d 0x12 ∧ fieldAt d 0x10 1 % 8 = 4 ∧ natBit (fieldAt d 0x10 1) 3 = true ∧ natBit (fieldAt d 0x10 1) 4 = true ∧
       natBit (fieldAt d 0x12 1) 7 = true ∧ (s.team 0).handle? (fieldAt d 0x12 1 % 32) = some { tile with unit := 1, cols := 512 } ∧
       fieldAt d 0x12 1 % 32 ≠ fieldAt d 0x11 1) := by
  simp only [AtGrant]; decide
/-- A NaN that signals, a quiet one, infinity times zero, infinity, zero, and a number between two results. -/
theorem witness_MatrixEngineSteps_drained :
    (NanCode fmt32 0x7FA00000 ∧ (0x7FA00000 : Word).getLsbD 22 = false) ∧ (NanCode fmt32 0x7FC00000 ∧ (0x7FC00000 : Word).getLsbD 22 = true) ∧
      (InfCode fmt32 0xFF800000 ∧ ¬NanCode fmt32 0xFF800000 ∧ (0x80000000 % 2 ^ 31 = 0)) ∧ ¬InfCode fmt32 0x3F800001 ∧
      magOf fmt32 0x3F800000 < magOf fmt32 0x3F800001 * magOf fmt32 0x3F800000 := by
  simp only [NanCode, InfCode]; decide +kernel
/-- R220: 16777217, which FP32 does not hold, is drained exactly as INT32, and as 16777216 with NX as FP32. -/
theorem test_drain_int :
    let e : Matrix := { Matrix.empty with acc := [((2 * 128 + 126) * 512, 0x01000001)] }
    let go := fun (f : Byte) => left (exec (.matrixGrant 0) (engines teamM { e with table := [(0, mzAt 0x12 (mdrn f 0 1))] } []))
    (((go 0x0C).team 0).handle? 3).map (fun h => Tab.get 0 h.data 0) = some 0x01000001 ∧
      (((go 0x08).team 0).handle? 3).map (fun h => Tab.get 0 h.data 0) = some 0x4B800000 ∧
      ((go 0x08).cluster 0).matrix.table.map (fun e => e.2.flags) = [flagNX] := by
  decide +kernel

/-! ### Chunks of the copy engine -/

theorem spared_of {s : State} {k : Nat} {d : List Byte} (p : Place) (h : ¬opKind (srcOp d) = 2) (h' : ¬opKind (dstOp d) = 2) : Spared s k d p := by
  cases p with
  | mem pa => exact fun b _ _ => ⟨fun e => h e.1, fun e => h' e.1⟩
  | tile j n w => trivial
theorem count_of {n : Nat} {P : Nat → Prop} (h : ∀ q ∈ List.range n, P q) : ∀ q, q < n → P q := fun q hq => h q (List.mem_range.2 hq)

/-- A copy of n bytes with flags, and a command of it at an offset, which counts its bytes in b3. -/
def cpN (flags : Byte) (n : Nat) (src dst : List Byte) (tail : List Byte) : List Byte :=
  [0x08, flags, 0, 0, 0, 0, 0, 0] ++ toBytes 8 n ++ src ++ dst ++ tail ++ List.replicate (16 - tail.length) 0
def cpAt (fn off : Nat) (d : List Byte) : CopyCmd := { cpReq d with fn := fn, off := off, cword := 0x33 }
/-- The die's TLB holds the page at 0x4000, at frame 9. -/
def page4 : TlbEntry :=
  { asid := teamF.asid, vmid := teamF.vmid, vpn := 4, order := 0, ppn := 9, r := true, w := true, x := false, u := true, d := true, pbmt := 0 }
/-- A team that holds a tile in h3 and a ring in h4, and its mate, off its core, whose ring h4 has its record at 0x20C80 and its
tile at 0x30000. -/
def teamR : Team := { teamF with h := [(3, tile), (4, ring4)], leagueSize := 2, leaguePos := 0 }
def mate : Team :=
  { teamR with state := .away, h := [(4, ring4)], leaguePos := 1, teamId := 6, imgBase := 0x20000, tsBase := 0x30000, b := [], threads := [] }
def copying (t u : Team) (r : CopyCmd) : State :=
  let s := (engines t Matrix.empty [(0, r)]).setDie 0 { Die.empty with tlb := [page4] }
  { s with teams := [(0, t), (1, u)] }

theorem undirty (t u : Team) (r : CopyCmd) : ∀ v, ((copying t u r).vdev v).dirty.getLsbD 0 = false := fun v => by
  have : (copying t u r).vdev v = Vdev.empty := rfl
  rw [this]; rfl
/-- What only the poster's object counts. -/
theorem countable_of {s : State} {r : CopyCmd} {d : List Byte} (hf : r.fn ≠ 9) (h : OpenObject s r.team (objOf r.cword)) : CountedApart s r d :=
  ⟨fun _ hj => hj.1 hf ▸ h, fun _ _ hi hj _ => (hi.1 hf).trans (hj.1 hf).symm⟩
theorem open_of {s : State} {k n : Nat} (h1 : (s.team (s.barrierOwner k n)).clean = false) (h2 : (s.team (s.barrierOwner k n)).state ≠ .away)
    (h3 : (s.barrier k n).state = 1) (h4 : noBarrierHold s (some n) = true) : OpenObject s k n := ⟨h1, h2, h3, noHold_of h4⟩

/-- The ring's free slot, and its filled one, take 16 bytes. -/
theorem ring4_at : RingAt ring4 false none 0 16 ∧ RingAt ring4 true none 0 16 :=
  ⟨⟨by decide, by decide, by decide, by decide, fun o _ h2 _ => count_of (P := fun o => ring4.slot (slotOf ring4 false none 0 o) = .free) (by decide) o h2⟩,
    ⟨by decide, by decide, by decide, by decide, fun o _ h2 _ => count_of (P := fun o => ring4.slot (slotOf ring4 true none 0 o) = .filled) (by decide) o h2⟩⟩

/-- From memory to the ring's slot 1, all of it; and to the slot of the mate's ring, in its save area, whose record is not among the
words; b3 counts the bytes. -/
def cpRing (peer : Byte) : List Byte := cpN 0 16 [0, 0x40, 0, 0, 0, 0, 0, 0, 0, 0, 0, 0, 0, 0, 0, 0] [0, 0, 0, 0, 0, 0, 0, 0, 2, 4, peer, 0, 0, 0, 0, 0] []
theorem witness_CopyAndDigestSteps_fill (peer : Byte) (h : peer = 0 ∨ peer = 0x81) :
    let d := cpRing peer
    let r := cpAt 8 0 d
    let s := copying teamR mate r
    AtChunk s 0 0 r d ∧ Calm s r d ∧ ByChunk r d ∧ CountedApart s r d ∧ chunkWords r d = 4 ∧ Sources s 0 r d 4 (fun _ => 0) ∧
      (∀ q, q < 4 → Lies s 0 r d (dstOp d) false r.dstSlot (r.off + 4 * q) (if peer = 0 then .tile 0 4 (4 + q) else .mem (0x30010 + 4 * q))) ∧
      ∀ q q', q < q' → q' < 4 → (Place.mem (0x30010 + 4 * q)).apart (.mem (0x30010 + 4 * q')) := by
  have hrec : ∀ b, ¬InRecord (copying teamR mate (cpAt 8 0 (cpRing peer))) 0 (srcOp (cpRing peer)) b := by
    rintro b ⟨hk, -⟩
    rcases h with rfl | rfl <;> exact absurd hk (by decide)
  have hmem : ∀ pa, pa + 4 ≤ 0x20C80 ∨ 0x20CA0 ≤ pa → Spared (copying teamR mate (cpAt 8 0 (cpRing peer))) 0 (cpRing peer) (.mem pa) := by
    refine fun pa hpa b h1 h2 => ⟨hrec b, ?_⟩
    rintro ⟨-, j, hj, ha, h3, h4⟩
    rcases h with rfl | rfl
    · have : j = 0 := by simpa using hj.symm.trans (show _ = some 0 by decide)
      subst this; exact absurd ha (by decide)
    · have : j = 1 := by simpa using hj.symm.trans (show _ = some 1 by decide)
      subst this
      have : (((copying teamR mate (cpAt 8 0 (cpRing 0x81))).team 1).handleAddr (opHandle (dstOp (cpRing 0x81)))) = 0x20C80 := by decide
      omega
  have hsrc : ∀ q, q < 4 → ∃ p, Lies (copying teamR mate (cpAt 8 0 (cpRing peer))) 0 (cpAt 8 0 (cpRing peer)) (cpRing peer)
      (srcOp (cpRing peer)) true none (0 + 4 * q) p ∧ ¬Spoilt (copying teamR mate (cpAt 8 0 (cpRing peer))) p ∧
      wordAt (copying teamR mate (cpAt 8 0 (cpRing peer))) p = some 0 := by
    refine fun q hq => ⟨.mem (0x9000 + 4 * q), ⟨hmem _ (by omega), fun _ => ⟨_, rfl, ?_⟩, fun hk => absurd hk ?_⟩, ?_, ?_⟩
    · simp only [Served]
      refine ⟨?_, page4, 0, ?_⟩ <;> revert q <;> refine count_of ?_ <;> rcases h with rfl | rfl <;> decide
    · rcases h with rfl | rfl <;> decide
    · simp only [Spoilt]
      revert q; refine count_of ?_; rcases h with rfl | rfl <;> decide
    · revert q; refine count_of ?_; rcases h with rfl | rfl <;> decide
  have hdst : ∀ q, q < 4 → Lies (copying teamR mate (cpAt 8 0 (cpRing peer))) 0 (cpAt 8 0 (cpRing peer)) (cpRing peer) (dstOp (cpRing peer))
      false none (0 + 4 * q) (if peer = 0 then .tile 0 4 (4 + q) else .mem (0x30010 + 4 * q)) := by
    refine fun q hq => ⟨?_, fun hk => absurd hk ?_, fun _ => ⟨if peer = 0 then 0 else 1, ring4, ?_, ?_, ?_, fun _ => ?_, ?_⟩⟩
    · rcases h with rfl | rfl
      · trivial
      · exact hmem _ (by omega)
    · rcases h with rfl | rfl <;> decide
    · rcases h with rfl | rfl <;> decide
    · rcases h with rfl | rfl <;> decide
    · rcases h with rfl | rfl <;> decide
    · rcases h with rfl | rfl <;> exact ring4_at.1
    · revert q; refine count_of ?_; rcases h with rfl | rfl <;> decide
  refine ⟨?_, ⟨⟨?_, ?_, ?_⟩, ?_, undirty _ _ _, ?_⟩, ?_, countable_of (by show 8 ≠ 9; decide) (open_of ?_ ?_ ?_ ?_), ?_, hsrc, hdst,
    fun q q' hq _ => .inl (show _ + 4 * q + 4 ≤ _ by omega)⟩
  all_goals rcases h with rfl | rfl
  all_goals first
    | decide
    | (simp only [AtChunk, ByChunk]; decide)

/-- The second chunk of a copy of 536 bytes from a ring of 24-byte slots, of which it holds slot 0 and takes slot 1; and of a zeroing
of 520 bytes of memory from 0x4000. -/
def ring6 : Handle := { ring4 with cols := 6, phead := 3, chead := 1, slots := [(0, .taken), (1, .filled), (3, .reserved)], data := [] }
def cpDrain : List Byte := cpN 0x10 536 (operand 0 2 4) [0, 0x40, 0, 0, 0, 0, 0, 0, 0, 0, 0, 0, 0, 0, 0, 0] []
def cpZero : List Byte := cpN 0x10 520 (operand 0 0 0) [0, 0x40, 0, 0, 0, 0, 0, 0, 0, 0, 0, 0, 0, 0, 0, 0] []
theorem ring6_at : RingAt ring6 true (some 0) 512 536 :=
  ⟨by decide, by decide, by decide, by decide, fun o h1 h2 h3 => by
    have : ∀ k, k < 24 → (none = some 0 ∨ (512 + k) / ring6.slotBytes ≠ 512 / ring6.slotBytes) →
        ring6.slot (slotOf ring6 true (some 0) 512 (512 + k)) = .filled := count_of (by decide)
    have h := this (o - 512) (by omega)
    rw [show 512 + (o - 512) = o by omega] at h
    exact h (.inr (h3.resolve_left (by simp)))⟩
theorem witness_CopyAndDigestSteps_second :
    (let d := cpDrain
     let r := { cpAt 8 512 d with srcSlot := some 0 }
     let s := copying { teamR with h := [(3, tile), (4, ring6)] } mate r
     AtChunk s 0 0 r d ∧ Calm s r d ∧ ¬ByChunk r d ∧ chunkWords r d = 6 ∧ Sources s 0 r d 6 (fun _ => 0) ∧
       ∀ q, q < 6 → Lies s 0 r d (dstOp d) false none (512 + 4 * q) (.mem (0x9200 + 4 * q))) ∧
    (let d := cpZero
     let r := cpAt 0xA 512 d
     let s := copying teamR mate r
     AtChunk s 0 0 r d ∧ Calm s r d ∧ chunkWords r d = 2 ∧
       ∀ q, q < 2 → Lies s 0 r d (dstOp d) false none (512 + 4 * q) (.mem (0x9200 + 4 * q))) := by
  have hs : ∀ b, ¬InRecord (copying { teamR with h := [(3, tile), (4, ring6)] } mate { cpAt 8 512 cpDrain with srcSlot := some 0 }) 0 (srcOp cpDrain) b := by
    rintro b ⟨-, j, hj, ha, -⟩
    have : j = 0 := by simpa using hj.symm.trans (show _ = some 0 by decide)
    subst this; exact absurd ha (by decide)
  have hd : ∀ b, ¬InRecord (copying { teamR with h := [(3, tile), (4, ring6)] } mate { cpAt 8 512 cpDrain with srcSlot := some 0 }) 0 (dstOp cpDrain) b := by
    rintro b ⟨hk, -⟩; exact absurd hk (by decide)
  refine ⟨⟨?_, ⟨⟨by decide, by decide, by decide⟩, by decide, undirty _ _ _, by decide⟩, ?_, by decide, fun q hq => ?_, fun q hq => ?_⟩,
    ?_, ⟨⟨by decide, by decide, by decide⟩, by decide, undirty _ _ _, by decide⟩, by decide, fun q hq => ?_⟩
  · simp only [AtChunk]; decide
  · simp only [ByChunk]; decide
  · refine ⟨.tile 0 4 (2 + q), ⟨trivial, fun hk => absurd hk (by decide), fun _ =>
      ⟨0, ring6, by decide, by decide, by decide, fun _ => ring6_at, ?_⟩⟩, ?_, ?_⟩
    · revert q; exact count_of (by decide)
    · rintro ⟨h, hh, hb⟩
      have : h = ring6 := by simpa using hh.symm.trans (show _ = some ring6 by decide)
      subst this; exact absurd hb (by simp [ring6, ring4, tile])
    · revert q; exact count_of (by decide)
  · refine ⟨fun b _ _ => ⟨hs b, hd b⟩, fun _ => ⟨_, rfl, ?_⟩, fun hk => absurd (show opKind (dstOp cpDrain) = 0 by decide) hk⟩
    simp only [Served]
    refine ⟨?_, page4, 0, ?_⟩ <;> revert q <;> exact count_of (by decide)
  · simp only [AtChunk]; decide
  · refine ⟨spared_of _ (by decide) (by decide), fun _ => ⟨_, rfl, ?_⟩, fun hk => absurd (show opKind (dstOp cpZero) = 0 by decide) hk⟩
    simp only [Served]
    refine ⟨?_, page4, 0, ?_⟩ <;> revert q <;> exact count_of (by decide)

/-- CPYM of the tile in h3 into h4 of teams 5, the poster, and 6, which does not hold it, and of a team 7 that there is not. -/
def cpMany : List Byte := cpN 0 16 (operand 0 1 3) (operand 16 1 4) ([7, 0, 0, 0, 0, 0, 0, 0] ++ [5, 0, 0, 0])
def single : Team := { mate with state := .resident 0 1, h := [(4, ring4)], b := [(3, open1)] }
def teamP : Team := { teamR with h := [(3, tile), (4, { tile with unit := 1, cols := 5 })] }
theorem many_of {s : State} (hs : s.teams = [(0, teamP), (1, single)]) {b j : Nat} (h : Receives s 0 cpMany b j) : (b = 0 ∧ j = 0) ∨ (b = 1 ∧ j = 1) := by
  obtain ⟨-, -, T, hT, -, hb⟩ := h
  rw [hs] at hT
  have h38 : fieldAt cpMany 0x38 4 = 5 := by decide
  rw [h38] at hb
  have hp : teamP.teamId.toNat = 5 := by decide
  have hq : single.teamId.toNat = 6 := by decide
  simp only [List.mem_cons, Prod.mk.injEq, List.not_mem_nil, or_false] at hT
  rcases hT with ⟨rfl, rfl⟩ | ⟨rfl, rfl⟩ <;> omega
theorem many_receive (r : CopyCmd) : Receives (copying teamP single r) 0 cpMany 0 0 ∧ Receives (copying teamP single r) 0 cpMany 1 1 ∧
    Takes (copying teamP single r) cpMany 0 ∧ ¬Takes (copying teamP single r) cpMany 1 ∧ natBit (fieldAt cpMany 0x30 8) 2 = true := by
  refine ⟨⟨by decide, by decide, teamP, by simp [copying], rfl, by decide⟩, ⟨by decide, by decide, single, by simp [copying], rfl, by decide⟩,
    ⟨by show teamP.state ≠ .retired; decide, { tile with unit := 1, cols := 5 }, rfl, by decide, by decide⟩, ?_, by decide⟩
  rintro ⟨-, h, hh, hl, -⟩
  have : h = ring4 := Option.some.inj (hh.symm.trans (show _ = some ring4 from rfl))
  subst this; exact absurd hl (by decide)
theorem many_owner (r : CopyCmd) : (copying teamP single r).barrierOwner 0 3 = 0 ∧ (copying teamP single r).barrierOwner 1 3 = 1 := ⟨rfl, rfl⟩
theorem many_open (r : CopyCmd) : OpenObject (copying teamP single r) 0 3 ∧ OpenObject (copying teamP single r) 1 3 :=
  ⟨open_of rfl (show teamP.state ≠ .away by decide) rfl (show [(0, teamP), (1, single)].all (fun e => _) = true by decide),
    open_of rfl (show single.state ≠ .away by decide) rfl (show [(0, teamP), (1, single)].all (fun e => _) = true by decide)⟩
theorem many_countable {r : CopyCmd} (hr : r.team = 0) (hf : r.fn = 9) (ho : objOf r.cword = 3) : CountedApart (copying teamP single r) r cpMany := by
  have hc : ∀ j, Counted (copying teamP single r) r cpMany [] j → j = 0 ∨ j = 1 := fun j hj => by
    obtain ⟨b, hb, -⟩ := hj.2 hf
    rw [hr] at hb
    rcases many_of rfl hb with h | h <;> simp [h.2]
  rw [CountedApart, ho]
  refine ⟨fun j hj => ?_, fun i j hi hj h => ?_⟩
  · rcases hc j hj with rfl | rfl
    · exact (many_open r).1
    · exact (many_open r).2
  · rcases hc i hi with rfl | rfl <;> rcases hc j hj with rfl | rfl
    · rfl
    · rw [(many_owner r).1, (many_owner r).2] at h; exact absurd h (by decide)
    · rw [(many_owner r).1, (many_owner r).2] at h; exact absurd h (by decide)
    · rfl
theorem witness_CopyAndDigestSteps_many :
    let d := cpMany
    let r := cpAt 9 0 d
    let s := copying teamP single r
    AtChunk s 0 0 r d ∧ opKind (dstOp d) = 1 ∧ Calm s r d ∧ ByChunk r d ∧ CountedApart s r d ∧ chunkWords r d = 4 ∧
      Sources s 0 r d 4 (fun q => Tab.get 0 tile.data q) ∧
      (∀ b j, Receives s 0 d b j → Tab.sortedFrom 0 (s.team j).h = true ∧ ∀ p, Spared s 0 d p) ∧
      ∀ b j q b' j' q', Receives s 0 d b j → Receives s 0 d b' j' → q < 4 → q' < 4 → ¬(j = j' ∧ q = q') →
        (placeOf s j 4 (4 + q)).apart (placeOf s j' 4 (4 + q')) := by
  refine ⟨?_, by decide, ⟨⟨by decide, by decide, by decide⟩, by decide, undirty _ _ _, by decide⟩, ?_, many_countable rfl rfl (by decide), by decide,
    fun q hq => ⟨.tile 0 3 q, ⟨trivial, fun hk => absurd hk (by decide), fun _ => ⟨0, tile, rfl, rfl, by decide, fun hk => absurd hk (by decide), ?_⟩⟩, ?_, ?_⟩,
    fun b j h => ⟨?_, fun p => spared_of p (by decide) (by decide)⟩, fun b j q b' j' q' h h' _ _ hne => ?_⟩
  · simp only [AtChunk]; decide
  · simp only [ByChunk]; decide
  · revert q; exact count_of (by decide)
  · rintro ⟨h, hh, hb⟩
    have : h = tile := Option.some.inj (hh.symm.trans (show _ = some tile from rfl))
    subst this; exact absurd hb (by simp [tile])
  · rfl
  · rcases many_of rfl h with h | h <;> rw [h.2] <;> decide
  · have e : ∀ j, j = 0 ∨ j = 1 → ∀ w, placeOf (copying teamP single (cpAt 9 0 cpMany)) j 4 w = .tile j 4 w := by
      rintro j (rfl | rfl) w <;> rfl
    rw [e j (by rcases many_of rfl h with h | h <;> simp [h.2]), e j' (by rcases many_of rfl h' with h | h <;> simp [h.2])]
    show Place.tile j 4 (4 + q) ≠ Place.tile j' 4 (4 + q')
    intro hc
    simp only [Place.tile.injEq] at hc
    omega
/-- Its end: with REL the bytes are counted there; or teams 6 and 7 have received nothing. -/
theorem witness_CopyAndDigestSteps_end :
    (let d := cpMany.set 1 0x10
     let r := { cpAt 8 16 d with cword := 0x33 }
     let s := copying teamP single r
     r.state = .running ∧ copyLen d ≤ r.off ∧ AtEnd r d ∧ OpenObject s 0 (objOf r.cword) ∧ CountedApart s r d ∧ Counted s r d [] 0) ∧
    (let d := cpMany
     let r := { cpAt 9 16 d with dropped := [1, 2] }
     let s := copying teamP single r
     copyLen d ≤ r.off ∧ r.err = none ∧ r.dropped ≠ [] ∧ OpenObject s 0 (objOf r.cword) ∧ CountedApart s r d ∧
       ∀ b j, Receives s 0 d b j → OpenObject s j (objOf r.cword)) := by
  have ho : ∀ r : CopyCmd, objOf r.cword = 3 → OpenObject (copying teamP single r) 0 (objOf r.cword) := fun r h => by
    rw [h]; exact (many_open r).1
  refine ⟨⟨by decide, by decide, ?_, ho _ (by decide), countable_of (by show 8 ≠ 9; decide) (ho _ (by decide)), fun _ => rfl, fun h => absurd h (by decide)⟩,
    by decide, by decide, by decide, ho _ (by decide), many_countable rfl rfl (by decide), fun b j h => ?_⟩
  · simp only [AtEnd]; decide
  · rcases many_of rfl h with h | h <;> rw [h.2] <;> exact open_of (by decide) (by decide) (by decide) (by decide)
def badTile : Handle := { tile with bad := [1] }
/-- A poisoned word after a sound one; a source ring whose next slot is reserved, and a destination ring whose next is taken; and a
command in its error phase that holds a slot. -/
theorem witness_CopyAndDigestSteps_spoilt :
    let d := cp (operand 0 1 3) (operand 4 1 4)
    let r := cpReq d
    let s := copying { teamR with h := [(3, badTile), (4, { tile with unit := 1 })] } mate r
    AtChunk s 0 0 r d ∧ Calm s r d ∧ 1 < chunkWords r d ∧ Sources s 0 r d 1 (fun _ => 0) ∧
      Lies s 0 r d (srcOp d) true r.srcSlot (r.off + 4 * 1) (.tile 0 3 1) ∧ Spoilt s (.tile 0 3 1) := by
  refine ⟨?_, ⟨⟨by decide, by decide, by decide⟩, by decide, undirty _ _ _, by decide⟩, by decide, fun q hq => ⟨.tile 0 3 q, ?_, ?_, ?_⟩, ?_, ?_⟩
  · simp only [AtChunk]; decide
  · exact ⟨trivial, fun hk => absurd hk (by decide), fun _ => ⟨0, badTile, rfl, rfl, by decide, fun hk => absurd hk (by decide), by
      rw [show q = 0 by omega]; decide⟩⟩
  · rintro ⟨h, hh, hb⟩
    have : h = badTile := Option.some.inj (hh.symm.trans (show _ = some badTile from rfl))
    subst this; simp [badTile] at hb; omega
  · rw [show q = 0 by omega]; rfl
  · exact ⟨trivial, fun hk => absurd hk (by decide), fun _ => ⟨0, badTile, rfl, rfl, by decide, fun hk => absurd hk (by decide), by decide⟩⟩
  · exact ⟨badTile, rfl, by simp [badTile]⟩
theorem witness_CopyAndDigestSteps_wait :
    (let d := cpN 0 16 (operand 0 2 4) (operand 0 1 3) []
     let r := cpAt 8 0 d
     let s := copying { teamR with h := [(3, tile), (4, { ring4 with chead := 3 })] } mate r
     AtChunk s 0 0 r d ∧ opKind (srcOp d) = 2 ∧ s.operandTeam 0 (srcOp d) = some 0 ∧
       (s.team 0).handle? (opHandle (srcOp d)) = some { ring4 with chead := 3 } ∧ Handle.slot { ring4 with chead := 3 } 3 ≠ .filled ∧
       AtChunk (copying teamR mate { r with state := .ring }) 0 0 { r with state := .ring } d ∧ ring4.slot ring4.chead = .filled) ∧
    (let d := cpN 0 16 (operand 0 1 3) (operand 0 2 4) []
     let r := cpAt 0xA 0 d
     let h := { ring4 with phead := 2 }
     let s := copying { teamR with h := [(3, tile), (4, h)] } mate r
     AtChunk s 0 0 r d ∧ Calm s r d ∧ opKind (dstOp d) = 2 ∧ s.operandTeam 0 (dstOp d) = some 0 ∧ (s.team 0).handle? (opHandle (dstOp d)) = some h ∧
       h.slot h.phead ≠ .free) := by
  refine ⟨?_, ?_, ⟨⟨by decide, by decide, by decide⟩, by decide, undirty _ _ _, by decide⟩, ?_⟩ <;> (try simp only [AtChunk]) <;> decide
theorem witness_CopyAndDigestSteps_error :
    let d := cpN 0 16 (operand 0 2 4) (operand 0 1 3) []
    let r := { cpAt 8 0 d with srcSlot := some 2, err := some errPoison }
    let s := copying teamR mate r
    r.state = .running ∧ r.fn ≠ 0x30 ∧ Tab.sortedFrom 0 s.teams = true ∧ OpenObject s 0 (objOf r.cword) ∧ r.dstSlot = none ∧
      s.operandTeam 0 (srcOp d) = some 0 ∧ (s.team 0).handle? (opHandle (srcOp d)) = some ring4 :=
  ⟨by decide, by decide, by decide, open_of (by decide) (by decide) (by decide) (by decide), rfl, by decide, by decide⟩

/-! ### Calls, faults resolved, launches and retirement -/

/-- Thread 0 of four is held in the gather; the others have exited. A service queue is configured. -/
def gathering : State :=
  let t := { team0 [] with
    s := [(3, 0x77)]
    threads := [(0, { thr [(0, 1), (5, 6)] with loc := .held (.gather 3) away0 }), (1, { thr [] with loc := .exited }),
      (2, { thr [] with loc := .exited }), (3, { thr [] with loc := .exited })] }
  (world t (pass0 one [[]])).setDie 0 { Die.empty with sq := { Ring.empty with base := 0x9000, log2n := 2, ie := true } }
theorem witness_CallsAndFaultsAreResolved_call :
    let s := gathering
    (s.team 0).state = .resident 0 0 ∧ (s.team 0).gatherComplete = true ∧
      (s.team 0).gathered.find? (fun j => !(s.team 0).isPawn j) = some 0 ∧ ((s.team 0).thread 0).loc = .held (.gather 3) away0 ∧
      NoAccesses s 0 ∧ Tab.sortedFrom 0 (s.team 0).threads = true ∧ (∀ n, n < 6 → n ∉ ((s.team 0).thread 0).bad) ∧
      (s.team 0).spoison ((s.team 0).gangOf 0) 3 = false ∧ (s.die (coreDie 0)).calls.length < 256 ∧ RoomIn (s.die (coreDie 0)).sq ∧
      s.mem.wf = true :=
  ⟨by decide, by decide, by decide, by decide, ⟨by decide, by decide⟩, by decide, by decide, by decide, by decide,
    ⟨by decide, by decide, by decide, by decide⟩, by decide⟩
/-- R299: the record's argument word, and the supervisor's v0 and v5. -/
theorem test_call_record :
    let t := left (exec (.syscallGatherComplete 0) gathering)
    t.mem.readNat 0x9008 8 = 0x77 ∧ t.mem.readNat 0x9010 4 = 1 ∧ t.mem.readNat 0x9024 4 = 6 ∧ t.part.irqs = [.service 0] := by decide +kernel
def called : State :=
  let t := { team0 [] with
    call := some (0, some 2)
    threads := [(0, { thr [] with loc := .held (.call 3) away0 }), (1, { thr [] with loc := .exited })] }
  (world t (pass0 one [[]])).setDie 0 { Die.empty with calls := [(2, { team := 0 })] }
theorem witness_CallsAndFaultsAreResolved_done :
    let s := called
    let v : DWord := 0x1234500000002
    (s.team 0).state = .resident 0 0 ∧ (s.die 0).calls.find? (v.toNat % 256) = some { team := 0 } ∧
      (s.team 0).call = some (0, some (v.toNat % 256)) ∧ (s.die 0).callWait = [] ∧ Tab.sortedFrom 0 (s.die 0).calls = true ∧
      Tab.sortedFrom 0 (s.team 0).threads = true ∧ ((s.team 0).thread 0).loc = .held (.call 3) away0 ∧ away0.next = some 0x100C ∧
      ((s.team 0).thread 0).handler = false ∧ ∀ e ∈ (s.team 0).threads, e.1 ≠ 0 → e.2.loc = .exited := by decide
theorem test_scdone :
    let y := ((left (exec (.scdone 0 0x1234500000002) called)).team 0).thread 0
    y.vget 0 = 0x12345 ∧ y.loc = .waits 0x100C := by decide
def parking : State :=
  let t := { team0 [] with threads := [(0, { thr [] with loc := .parked, trapPc := 0x1000, info0 := 0x4000 })] }
  (world t (pass0 one [[]])).setDie 0 { Die.empty with
    faults := [(0, { asid := 0, vmid := 0, page := 0x4000, kind := 1, cause := 1, ctxid := 7, waiters := [.thread 0 0] })] }
theorem witness_CallsAndFaultsAreResolved_fault :
    let s := parking
    (∃ e, (s.die 0).faults.find? 0 = some e ∧ e.waiters = [.thread 0 0]) ∧ Tab.sortedFrom 0 (s.die 0).faults = true ∧
      (∀ x ∈ s.dies, x.2.noEntry = []) ∧ (s.team 0).state = .resident 0 0 ∧ ((s.team 0).thread 0).loc = .parked ∧
      (s.team 0).isPawn 0 = false ∧ ((s.team 0).thread 0).handler = false ∧ (s.team 0).trapVec ≠ 0 :=
  ⟨⟨_, rfl, rfl⟩, by decide, by decide, by decide, by decide, by decide, by decide, by decide⟩
theorem test_fqdone_retry : (((left (exec (.fqdoneRetry 0 0) parking)).team 0).thread 0).loc = .waits 0x1000 := by decide

/-- The arguments of a launch of one team of 16 threads, with a dependence counter or not, co-dependent or not. -/
def args (geom dep depval : DWord) : List DWord := [0x1000, 0x41, 0x5000, geom, 0x2000, 0, dep, depval]
def launching (x : Launch) : State :=
  let s := { lone [] with teams := [], cores := [(0, Core.empty)] }
  (s.setSlice 0 { Slice.empty with launches := [(0, x)] }).setPart { Part.empty with heapBase := 0x100000, heapSize := 0x1000000 }
def bound : Queue := { Queue.empty with ctl := 0x01000005, ring := 0x10008, bind := 0x6000, chip := [entry7] }
def spawning : State :=
  ((lone []).setSlice 0 { Slice.empty with queues := [(0, bound)] }).setMem
    (Memory.empty.write 0x6000 ((args 0xF00000001 0 0).flatMap (fun a => toBytes 8 a.toNat)))
theorem witness_DispatchSteps_spawn :
    let s := spawning
    let q := s.queue 0
    s.halted = false ∧ q.en = true ∧ q.bound = true ∧ q.spawn = none ∧ q.count ≠ 0 ∧ 0 < 64 * s.nsl ∧
      spawnOk ((upto 0 8).map (fun j => BitVec.ofNat 64 (s.mem.readNat (q.bind.toNat + 8 * j) 8))) = true ∧
      q.bind.toNat + 64 ≤ s.memEnd ∧ s.mem.poisoned q.bind.toNat 64 = false ∧ (s.slice (0 / 64)).launches.length < 64 := by decide
theorem test_queue_spawn : ((left (exec (.queueSpawn 0) spawning)).queue 0).spawn = some 0 := by decide
theorem witness_DispatchSteps_poll :
    let s := launching { launch0 with a := args 0xF00000001 0x7000 3, depMet := false }
    ∃ x s1, s.launch? 0 0 = some x ∧ x.depMet = false ∧ s.dependWaits 0 0 = false ∧ canonical (argAt x.a 6) = true ∧
      s.translateDie (s.dieOf 0) x.space (argAt x.a 6) .read = (.ok 0x7000 0, s1) ∧ s1.mem.poisoned 0x7000 8 = false :=
  ⟨_, _, rfl, rfl, by decide, by decide, pair_of (by decide), by decide⟩
theorem some_pair {α β : Type} {o : Option (α × β)} {a : α} (h : o.map Prod.fst = some a) : ∃ b, o = some (a, b) := by
  cases o with
  | none => simp at h
  | some p => exact ⟨p.2, by simp at h; cases p; simp_all⟩
theorem witness_DispatchSteps_bind :
    let x := { launch0 with a := args 0xF00000001 0 0 }
    let s := launching x
    s.halted = false ∧ s.clusterNums.contains 0 = true ∧ s.refusedSlots 0 0 0 = [] ∧ s.nextLaunch 0 = some (0, x, .fresh 0) ∧ s.placeIn x (.fresh 0) 0 = some 0 ∧
      geomLeague x.geom = 1 ∧ (∃ img ts s1, s.leagueMemory x (.fresh 0) = some ([(img, ts)], s1)) ∧
      ∀ e, x.qspawn = some e → e.2.length = 8 := by
  refine ⟨by decide, by decide, by decide, by decide, by decide, by decide, ?_, by simp [launch0]⟩
  exact ⟨0x100000, 0, some_pair (by decide)⟩
/-- The bind record that the launch's dispatch presents is accepted, and its team starts at KADDR. -/
theorem witness_DispatchSteps_present :
    let s := left (exec (.dispatchBind 0 0 0) (launching { launch0 with a := args 0xF00000001 0 0 }))
    ∃ y x, (s.core 0).slots.find? 0 = some y ∧ y.state = 1 ∧ natBit (fieldAt y.record 0x1A 1) 0 = true ∧
      s.launch? (fieldAt y.record 0x1C 2 / 64) (fieldAt y.record 0x1C 2 % 64) = some x ∧
      s.refusal 0 y.record (teamOfRecord y.record x 0 0) = 0 ∧ x.qspawn = none ∧ s.halted = false ∧ s.mates 0 0 y.record = [] ∧
      s.refusal 0 (y.record.set 8 1) (teamOfRecord (y.record.set 8 1) x 0 0) ≠ 0 := by
  intro s
  have h : (match (s.core 0).slots.find? 0 with
    | some y => decide (y.state = 1) && natBit (fieldAt y.record 0x1A 1) 0 &&
        (match s.launch? (fieldAt y.record 0x1C 2 / 64) (fieldAt y.record 0x1C 2 % 64) with
        | some x => decide (s.refusal 0 y.record (teamOfRecord y.record x 0 0) = 0) && x.qspawn.isNone && !s.halted &&
            (s.mates 0 0 y.record).isEmpty && decide (s.refusal 0 (y.record.set 8 1) (teamOfRecord (y.record.set 8 1) x 0 0) ≠ 0)
        | none => false)
    | none => false) = true := by decide +kernel
  split at h
  · next y hy =>
    split at h
    · next x hx =>
      simp only [Bool.and_eq_true, decide_eq_true_eq, Option.isNone_iff_eq_none, Bool.not_eq_true', List.isEmpty_iff] at h
      exact ⟨y, x, hy, h.1.1, h.1.2, hx, h.2.1.1.1.1, h.2.1.1.1.2, h.2.1.1.2, h.2.1.2, h.2.2⟩
    · simp at h
  · simp at h
theorem test_team_starts :
    let t := left (exec (.slotctlPresent 0 0) (left (exec (.dispatchBind 0 0 0) (launching { launch0 with a := args 0xF00000001 0 0 }))))
    ((t.team 0).thread 15).loc = .waits 0x1000 ∧ (t.team 0).sget 0 1 = 0x41 ∧ (t.team 0).sget 0 2 = 0x5000 := by decide +kernel
theorem witness_DispatchSteps_rebind :
    let x := { launch0 with a := args 0x4000F00000001 0 0, bound := 1 }
    let s := { launching x with teams := [(0, { team0 [] with state := .away, lastCore := some 0 })] }
    s.launch? 0 0 = some x ∧ geomCodep x.geom = true ∧ s.halted = false ∧
      (s.awayOf x).filter (fun j => !(s.team j).onHold && !(s.team j).vfrozen) = [0] ∧ (s.team 0).leagueSize = 1 ∧
      (let s1 := s.updTeam 0 (fun t => { t with bindable := true })
       s1.nextLaunch 0 = some (0, x, .away [0]) ∧ s1.placeIn x (.away [0]) 0 = some 0) := by decide

/-- The team's threads are held, and none of its passes is active. -/
def resting (since : Option Nat) : State :=
  let t := { team0 [] with
    heldSince := since, codep := true, vmid := 0, cctr := 0x5000, imgBase := 0x100000, tsBase := 0x300000
    threads := [(0, { thr [] with loc := .held (.barrier 3 false .team) away0 })] }
  let s := world t (pass0 one [[]])
  (s.setCore 0 { s.core 0 with passes := [] }).setSlice 0 { Slice.empty with launches := [(0, launch0)] }
theorem witness_TeamsLeaveAndRetire_leave :
    let s := resting (some 0)
    (s.team 0).state = .resident 0 0 ∧ Alone s 0 ∧ Resting s 0 0 ∧ (s.team 0).idle = true ∧ (s.team 0).codep = true ∧
      (s.team 0).heldSince = some 0 :=
  ⟨by decide, ⟨by decide, by decide⟩, ⟨by decide, by decide, ⟨by decide, by decide, by decide, by decide⟩, by unfold NoCommands; decide⟩,
    by decide, by decide, by decide⟩
theorem test_preempt : ((left (exec (.preempt 0) (resting (some 0)))).team 0).state = .away := by decide +kernel
/-- Every thread of the team has exited. -/
def retiring : State :=
  let s := resting none
  s.setTeam 0 { s.team 0 with threads := [(0, { thr [] with loc := .exited })] }
theorem witness_TeamsLeaveAndRetire_retire :
    let s := retiring
    ∃ s1, s.additionWaits 0 = false ∧ s.finished 0 = true ∧ (s.team 0).state = .resident 0 0 ∧ NoAccesses s 0 ∧
      (s.core 0).nmq = [] ∧ Quiet s ∧ (s.team 0).vmid = 0 ∧ canonical (s.team 0).cctr = true ∧
      Tab.sortedFrom 0 s.teams = true ∧
      (s.updTeam 0 (fun t => { t with h := [] })).translateDie (coreDie 0) (s.team 0).space (s.team 0).cctr .atom = (.ok 0x5000 0, s1) ∧
      s1.mem.poisoned 0x5000 8 = false ∧ s1.mem.wf = true ∧ s.launch? (s.team 0).slice (s.team 0).launch = some launch0 ∧
      launch0.seq = (s.team 0).grid ∧ Tab.sortedFrom 0 (s.slice (s.team 0).slice).launches = true :=
  ⟨_, by decide, by decide, by decide, ⟨by decide, by decide, by decide, by decide⟩, by decide, ⟨by decide, by decide, by decide⟩, by decide, by decide,
    by decide, pair_of (by decide), by decide, by decide, by decide, by decide, by decide⟩
theorem test_retirement :
    let t := left (exec (.teamRetirement 0) retiring)
    t.mem.readNat 0x5000 8 = 1 ∧ (t.team 0).state = .retired := by decide +kernel

/-! ### The partition control space -/

def ring2 : Ring := { Ring.empty with base := 0x9000, log2n := 2 }
def ringed (r : Ring) : State := (lone []).setDie 0 { Die.empty with fq := r }
theorem witness_ControlRegisterWrites_ring :
    ((ringed ring2).hasRing (.fault 0) = true ∧ ((ringed ring2).ring (.fault 0)).head = ((ringed ring2).ring (.fault 0)).tail ∧
      ((ringed ring2).ring (.fault 0)).pending = [] ∧ 2 ≤ (0x82 : DWord).toNat % 32 ∧ (0x82 : DWord).toNat % 32 ≤ 20) ∧
    ((ringed { ring2 with tail := 1 }).ring (.fault 0)).head ≠ ((ringed { ring2 with tail := 1 }).ring (.fault 0)).tail ∧
    (20 < (0x95 : DWord).toNat % 32) ∧
    (let x := (ringed { ring2 with tail := 4, pending := [[1, 2]] }).ring (.fault 0)
     x.pending = [[1, 2]] ∧ RoomIn { x with head := lo32 1, pending := [] }) :=
  ⟨by decide, by decide, by decide, by decide, by decide, by decide, by decide, by decide⟩
theorem test_ring_head_lets_in :
    let t := left (exec (.ringHeadWrite (.fault 0) 1) (ringed { ring2 with tail := 4, pending := [[1, 2]] }))
    t.mem.read 0x9000 2 = [1, 2] ∧ (t.ring (.fault 0)).tail = 5 := by decide
theorem witness_ControlRegisterWrites_queue :
    let s := (lone []).setSlice 0 { Slice.empty with queues := [(0, { Queue.empty with ring := 0x10008 })] }
    let w := fun (v : DWord) => { s.queue 0 with ctl := v &&& 0xFFFFFFFF3FF00007#64 }
    0 < 64 * s.nsl ∧ (w 0x00300001).share < 4 ∧ 512 < (w 0x20100001).share ∧ 4 ≤ (w 0x01000000).share ∧ (w 0x01000000).share ≤ 512 ∧
      (s.queue 0).en = false ∧ (w 0x01000000).en = false ∧ (w 0x01000001).en = true ∧ (s.queue 0).mayEnable (w 0x01000001) = true ∧
      s.shareOf 0 + (w 0x01000001).share ≤ 512 ∧ (s.queue 0).inRing = 0 ∧ (s.queue 0).chip = [] ∧ (s.queue 0).pushes = [] ∧
      (s.queue 0).pops = [] ∧ (s.queue 0).mayEnable (w 0x01000005) = false := by decide
theorem witness_ControlRegisterWrites_disable :
    (let s := queued [entry7] 0 0
     (s.queue 0).en = true ∧ Quiet s ∧ (s.queue 0).inRing + (s.queue 0).chip.length ≤ 2 ^ (s.queue 0).log2n) ∧
    (let s := (lone []).setSlice 0 { Slice.empty with queues := [(0, { Queue.empty with ctl := 0x01000001, ring := 0x10002, inRing := 5 })] }
     (s.queue 0).en = true ∧ 2 ^ (s.queue 0).log2n < (s.queue 0).inRing + (s.queue 0).chip.length) :=
  ⟨⟨by decide, ⟨by decide, by decide, by decide⟩, by decide⟩, by decide⟩
theorem witness_ControlRegisterWrites_others :
    let s := lone []
    (0x20000 : DWord).toNat % 0x10000 = 0 ∧ s.part.heapSize = 0 ∧ s.part.heapBase + (0x20000 : DWord).toNat ≤ s.memEnd ∧ 0 < 64 * s.nsl ∧
      s.nsl ≤ 16 ∧ (s.queue 0).en = false ∧ (s.queue 63).en = false ∧ s.hasRing (.plog 0) = true ∧ 63 < 64 := by decide

theorem witness_DriverRequests_preempt :
    let s := (resting (some 0)).setPart { Part.empty with darg := 7 }
    Names s 0 ∧ (s.team 0).state = .resident 0 0 ∧ Alone s 0 ∧ Resting s 0 0 :=
  ⟨⟨by decide, by decide⟩, by decide, ⟨by decide, by decide⟩, by decide, by decide, ⟨by decide, by decide, by decide, by decide⟩, by unfold NoCommands; decide⟩
/-- The team is off its core. -/
def idling (hold clean : Bool) : State :=
  (world { team0 [] with state := .away, onHold := hold, clean := clean, vmid := 1 } (pass0 one [[]])).setPart { Part.empty with darg := 7 }
theorem witness_DriverRequests_away :
    ((lone []).part.dresp ≠ 1 ∧ (lone []).findCtx (lone []).part.darg = none ∧ ((lone []).setPart { Part.empty with dresp := 1 }).part.dresp = 1) ∧
    (∀ h c, Names (idling h c) 0 ∧ Away (idling h c) 0 ∧ ((idling h c).team 0).clean = c ∧ ((idling h c).team 0).onHold = h) := by
  refine ⟨by decide, ?_⟩
  intro h c
  cases h <;> cases c <;>
    exact ⟨⟨by decide, by decide⟩, ⟨by decide, ⟨by decide, by decide⟩, by decide, by decide, by unfold NoCommands; decide⟩, by decide, by decide⟩
theorem test_dreq_hold_twice :
    ((left (exec .dreqHold (idling true true))).part.dresp, (left (exec .dreqRelease (idling true true))).part.dresp) = (3, 0) := by decide
theorem witness_DriverRequests_freeze :
    let s := lone []
    (0 < 64 ∧ (s.vdev 0).freeze = false ∧ (s.vdev 0).outgoing = false ∧ s.vdevTeams 0 = [] ∧ s.switching 0 = [] ∧ ∀ e ∈ s.slices, ∀ q ∈ e.2.queues, q.2.vmid ≠ 0 + 1) ∧
    Tab.sortedFrom 0 s.teams = true := by decide
/-- A bind record of virtual function 0 is being presented on core 0. -/
def switching0 (f : Bool) : State :=
  let s := launching { launch0 with a := args 0xF00000001 0 0, vmid := 1 }
  { s.setCore 0 { Core.empty with slots := [(2, { record := List.replicate 192 0, state := 1, refuse := 0, team := none })] } with
    vdevs := [(0, { Vdev.empty with freeze := f, result := 2, deadline := some 900 })] }
/-- Besides, its outgoing team is off its core, and the PREEMPT that asked it to leave is pending. -/
def switching1 : State :=
  let s := switching0 true
  { s with
    teams := [(0, { team0 [] with state := .away, clean := true, vmid := 1 })]
    vdevs := [(0, { s.vdev 0 with outgoing := true })], part := { s.part with dreq := 1, dreqCtx := 7, dresp := 1 } }
theorem witness_DriverRequests_switch :
    (((switching0 false).vdev 0).freeze = false ∧ (switching0 false).switching 0 ≠ []) ∧
    ∀ s ∈ [switching0 true, switching1], (s.vdev 0).freeze = true ∧ (s.vdev 0).result = 2 ∧ (s.vdev 0).deadline = some 900 ∧
      (s.switching 0).length = 1 ∧ (∀ e ∈ s.switching 0, natBit (fieldAt e.2.2 0x1A 1) 0 = false) ∧ Tab.sortedFrom 0 s.cores = true ∧
      (∀ e ∈ s.cores, Tab.sortedFrom 0 e.2.slots = true) ∧ Tab.sortedFrom 0 s.teams = true ∧
      (∀ e ∈ s.teams, e.2.vmid = 0 + 1 → e.2.isResident = false ∧ (e.2.state = .away → e.2.clean = true ∧ e.2.call = none)) ∧
      (∀ e ∈ s.slices, ∀ q ∈ e.2.queues, q.2.vmid ≠ 0 + 1) := by decide +kernel
theorem witness_DriverRequests_fails :
    (switching1.vdev 0).outgoing = true ∧ switching1.part.dreq = 1 ∧
      ∃ k, switching1.findCtx switching1.part.dreqCtx = some k ∧ (switching1.team k).vmid = 0 + 1 ∧ (switching1.team k).state = .away :=
  ⟨by decide, by decide, 0, by decide, by decide, by decide⟩
/-- R329: the guest's request fails, and the outgoing team is bindable again, and frozen. -/
theorem test_rollback_fails :
    let t := left (exec (.freezeRollback 0) switching1)
    t.part.dresp = 3 ∧ (t.team 0).bindable = true ∧ (t.team 0).vfrozen = true ∧ (t.vdev 0).result = 1 ∧
      ((t.core 0).slots.map (fun x => x.2.state)) = [0] := by decide +kernel

/-! ### Castle, power and the ports -/

/-- A partition of one slice, or of slices 0 and 1 with the top one's harts offline, in which nothing runs. -/
def quiet1 : State := { State.reset.powered with slices := [(0, Slice.empty)], cores := [(0, Core.empty)] }
def quiet2 : State :=
  let s := { quiet1 with slices := [(0, Slice.empty), (1, Slice.empty)], harts := (upto 4 4).map (fun n => (n, { Hart.empty with offline := true })) }
  (s.setCastle { s.castle with descs := s.castle.descs.set s.pid { s.desc with slmap := [0, 1] } }).setPart { Part.empty with released := true }
/-- A call of a team that is off its core is outstanding. -/
def calling (s : State) : State := s.setDie 0 { Die.empty with calls := [(0, { team := 0 })] }
theorem joins (s : State) (x : Nat) (h : s.castle.target = none) (h1 : s.castle.owned.contains x = false)
    (h2 : s.castle.sameChannels (s.desc.slmap ++ [x]) = true) : MayJoin s x :=
  by
  refine ⟨h1, fun r e => ?_, h2⟩
  rw [h] at e
  cases e
theorem witness_CastleRequests_resize :
    (Asks quiet1 ∧ Sized quiet1 0 16 ∧ quiet1.castle.owned.contains ((0 : DWord).toNat % 16) = true ∧ quiet1.nsl ≤ 1) ∧
    (Sized quiet1 1 15 ∧ MayJoin quiet1 ((1 : DWord).toNat % 16) ∧ NothingRuns quiet1 ∧ CoresEmpty quiet1 ∧ quiet1.mem.wf = true ∧
      (quiet1.castle.unitsOf 1).clusters.getLsbD 3 = true ∧ ∀ pa, quiet1.memEnd ≤ pa → quiet1.mem.get pa = 0) ∧
    (Sized quiet2 2 16 ∧ MayGo quiet2 ((1 : DWord).toNat % 16) ∧ ¬ MayGo quiet2 ((0 : DWord).toNat % 16) ∧
      (quiet2.slice (quiet2.nsl - 1)).launches = [] ∧ NothingRuns quiet2 ∧ CoresEmpty quiet2 ∧ quiet2.mem.wf = true) ∧
    (quiet1.setPart { Part.empty with cresp := 1 }).part.cresp = 1 := by
  refine ⟨by unfold Sized Asks; decide, ⟨by unfold Sized Asks; decide, joins _ _ rfl (by decide) (by decide),
    by unfold NothingRuns; decide, by unfold CoresEmpty; decide, by decide, by decide, fun _ _ => rfl⟩,
    by unfold Sized Asks MayGo NothingRuns CoresEmpty; decide, by decide⟩
theorem witness_CastleRequests_waits :
    (Sized (calling quiet1) 1 16 ∧ MayJoin (calling quiet1) ((1 : DWord).toNat % 16) ∧ Sized (calling quiet2) 1 16 ∧
      MayGo (calling quiet2) ((1 : DWord).toNat % 16) ∧ 2 ≤ (calling quiet2).nsl) ∧
    (∀ s ∈ [calling quiet1, calling quiet2], (∀ e ∈ s.teams, e.2.onCore = none) ∧ s.waitingRecords (fun _ => true) = [] ∧ ∃ d ∈ s.dies, d.2.calls ≠ []) ∧
    (let s := quiet1.setPart { Part.empty with steps := [{ remove := false, arg := 0, mgmt := true }] }
     s.castle.lockdown = false ∧ s.desc.state ≠ 0 ∧ s.part.steps ≠ [] ∧ s.part.cresp ≠ 1) := by
  refine ⟨⟨by unfold Sized Asks; decide, joins _ _ rfl (by decide) (by decide), by unfold Sized Asks; decide, by unfold MayGo; decide,
    by decide⟩, by decide, by decide⟩
theorem test_resize_add : (left (exec (.creqResizeAdd 1 false) quiet1)).desc.slmap = [0, 1] := by decide +kernel
theorem test_resize_remove : (left (exec (.creqResizeRemove 1 true) quiet2)).desc.slmap = [0] := by decide +kernel
/-- A clean image at 0x200000, of context 5 with one thread in a gang of 16. -/
def placedImage : Memory := (((Memory.empty.write 0x200000 [5]).write 0x200015 [16]).write 0x200016 [1]).write 0x200042 [1]
theorem wf_placedImage : placedImage.wf = true := by decide
/-- A manifest at 0x10000 without its digest: one shard of an image at 0x200000, of the partition's shape or of another. -/
def header (fits : Bool) : List Byte :=
  toBytes 4 0x4B435058 ++ toBytes 4 1 ++ toBytes 4 (if fits then 256 else 257) ++ toBytes 4 1 ++ List.replicate 48 0 ++
    toBytes 8 0x200000 ++ toBytes 8 0x140000
/-- The same with the digest, and then with Castle's signature. -/
def unsigned (fits : Bool) : Memory :=
  let m := placedImage.write 0x10000 (header fits)
  m.write 0x10050 (sha512 (m.read 0x200000 0x140000))
def manifest (fits : Bool) : Memory := (unsigned fits).write 0x10090 (signatureOf ((unsigned fits).read 0x10000 144))
def restoring (m : Memory) : State :=
  ({ quiet1 with teams := [(0, { team0 [] with state := .away, imgBase := 0x200000 })] }.setPart
    { Part.empty with carg := 0x10000 }).setMem m
theorem wf_unsigned (f : Bool) : (unsigned f).wf = true := Memory.wf_write (Memory.wf_write wf_placedImage _ _) _ _
theorem lost_unsigned (f : Bool) : (unsigned f).lost = [] := by
  rw [unsigned, Memory.write_lost, Memory.write_lost]
  rfl
theorem bad_unsigned (f : Bool) : (unsigned f).bad = [] := by
  rw [unsigned]
  exact Memory.write_bad_nil (Memory.write_bad_nil (by decide) _ _) _ _
theorem clean_manifest (f : Bool) (a n : Nat) : (manifest f).poisoned a n = false :=
  Memory.poisoned_write (bad_unsigned f) (lost_unsigned f) _ _ _ _
theorem read_unsigned (f : Bool) (a n : Nat) (h : a + n ≤ 0x10050 ∨ 0x10090 ≤ a) :
    (unsigned f).read a n = (placedImage.write 0x10000 (header f)).read a n :=
  Memory.read_write_ne (Memory.wf_write wf_placedImage _ _) _ _ _ _ (by rw [length_sha512]; exact h)
theorem read_manifest (f : Bool) (a n : Nat) (h : a + n ≤ 0x10090 ∨ 0x100D0 ≤ a) : (manifest f).read a n = (unsigned f).read a n :=
  Memory.read_write_ne (wf_unsigned f) _ _ _ _ (by rw [length_signatureOf]; exact h)
theorem number_unsigned (f : Bool) (a n : Nat) (h : a + n ≤ 0x10050) :
    (unsigned f).readNat a n = (placedImage.write 0x10000 (header f)).readNat a n := by
  rw [Memory.readNat, read_unsigned f a n (.inl h), Memory.readNat]
theorem number_manifest (f : Bool) (a n : Nat) (h : a + n ≤ 0x10050) :
    (manifest f).readNat a n = (placedImage.write 0x10000 (header f)).readNat a n := by
  rw [Memory.readNat, read_manifest f a n (.inl (by omega)), ← Memory.readNat, number_unsigned f a n h]
theorem number_image (f : Bool) (a n : Nat) (h : 0x200000 ≤ a) :
    (manifest f).readNat a n = (placedImage.write 0x10000 (header f)).readNat a n := by
  rw [Memory.readNat, read_manifest f a n (.inr (by omega)), read_unsigned f a n (.inr (by omega)), Memory.readNat]
theorem shards_manifest (f : Bool) : (manifest f).shards 0x10000 = 1 := by
  rw [Memory.shards, number_manifest f _ _ (by omega)]; cases f <;> rfl
theorem shard_manifest (f : Bool) :
    (manifest f).shard 0x10000 0 = (0x200000, 0x140000, sha512 ((manifest f).read 0x200000 0x140000)) := by
  have hd := Memory.read_write_self (m := placedImage.write 0x10000 (header f)) (Memory.wf_write wf_placedImage _ _) 0x10050
    (sha512 ((placedImage.write 0x10000 (header f)).read 0x200000 0x140000))
  rw [length_sha512] at hd
  have h1 : (manifest f).readNat 0x10040 8 = 0x200000 := by rw [number_manifest f _ _ (by omega)]; cases f <;> rfl
  have h2 : (manifest f).readNat 0x10048 8 = 0x140000 := by rw [number_manifest f _ _ (by omega)]; cases f <;> rfl
  have h3 : (manifest f).read 0x10050 64 = sha512 ((manifest f).read 0x200000 0x140000) := by
    rw [read_manifest f _ _ (.inl (by omega)), read_manifest f _ _ (.inr (by omega)), read_unsigned f 0x200000 _ (.inr (by omega))]
    exact hd
  show (_, _, _) = _
  rw [h1, h2, h3]
theorem manifest_lies (f : Bool) : ShardsIn (restoring (manifest f)) 0x10000 := by
  have hm : (restoring (manifest f)).mem = manifest f := rfl
  have he : (restoring (manifest f)).memEnd = 0x800000000 := by cases f <;> decide
  refine ⟨?_, fun j hj => ?_⟩
  · rw [State.manifestIn, hm, he, shards_manifest]; rfl
  · rw [hm, shards_manifest] at hj
    obtain rfl : j = 0 := by omega
    rw [hm, he, shard_manifest]
    dsimp only
    omega
theorem manifest_verified (f : Bool) : Verified (restoring (manifest f)) 0x10000 := by
  have hm : (restoring (manifest f)).mem = manifest f := rfl
  refine ⟨?_, ?_, fun j hj => ?_⟩
  · rw [hm, shards_manifest]
    exact signed_write (wf_unsigned f) 0x10000 144
  · rw [hm, number_manifest f _ _ (by omega)]; cases f <;> decide
  · rw [hm, shards_manifest] at hj
    obtain rfl : j = 0 := by omega
    rw [hm, shard_manifest]
    exact ⟨clean_manifest f _ _, by dsimp only⟩
theorem manifest_fits (f : Bool) : Fits (restoring (manifest f)) 0x10000 ↔ f = true := by
  have hm : (restoring (manifest f)).mem = manifest f := rfl
  rw [Fits, hm, number_manifest f _ _ (by omega), number_manifest f _ _ (by omega)]
  cases f <;> decide
theorem witness_CastleRequests_restore :
    (∀ f, Asks (restoring (manifest f)) ∧ (restoring (manifest f)).part.carg.toNat = 0x10000 ∧
      ShardsIn (restoring (manifest f)) 0x10000 ∧ Verified (restoring (manifest f)) 0x10000) ∧
    ¬ Fits (restoring (manifest false)) 0x10000 ∧ Fits (restoring (manifest true)) 0x10000 ∧
    (∃ y, (restoring (manifest true)).teams.find? 0 = some y ∧ y.state = .away ∧ ImageIn (restoring (manifest true)) 0x10000 y) ∧
    NewImage (restoring (manifest true)) 0x10000 0 := by
  have hm : (restoring (manifest true)).mem = manifest true := rfl
  refine ⟨fun f => ⟨by unfold Asks; cases f <;> decide, rfl, manifest_lies f, manifest_verified f⟩, by simp [manifest_fits],
    by simp [manifest_fits], ⟨_, rfl, rfl, 0, ?_⟩, ?_⟩
  · rw [hm, shards_manifest, shard_manifest]
    decide
  · have n (a n : Nat) (h : 0x200000 ≤ a) := number_image true a n h
    have h1 : (manifest true).readNat 0x200015 1 = 16 := by rw [n _ _ (by omega)]; decide
    have h2 : (manifest true).readNat 0x200016 2 = 1 := by rw [n _ _ (by omega)]; decide
    have h3 : (manifest true).readNat 0x200042 1 = 1 := by rw [n _ _ (by omega)]; decide
    have h4 : (manifest true).readNat 0x200000 8 = 5 := by rw [n _ _ (by omega)]; decide
    rw [NewImage, hm, shards_manifest, shard_manifest, Memory.isImage]
    dsimp only
    rw [h1, h2, h3, h4]
    decide
/-- R326: the context of an image that the partition does not know is made, off its core and bindable. -/
theorem test_restore_makes_the_context :
    ((quiet1.setMem placedImage).adopt [(0x200000, 0x140000)]).teams.map (fun t => (t.2.ctxid, t.2.state, t.2.bindable, t.2.imgBase)) =
      [(5, .away, true, 0x200000)] := by decide +kernel
/-- Nothing at all is at 0x10000: it is no signed manifest, and beyond memory there is none. -/
theorem witness_CastleRequests_manifest :
    (let s := quiet1.setPart { Part.empty with carg := 0x800000000 }
     Asks s ∧ s.manifestIn s.part.carg.toNat = false ∧ ¬ ShardsIn s s.part.carg.toNat) ∧
    (let s := restoring Memory.empty
     Asks s ∧ s.manifestIn s.part.carg.toNat = true ∧ ShardsIn s s.part.carg.toNat ∧ ¬ Verified s s.part.carg.toNat) := by
  refine ⟨⟨by unfold Asks; decide, by decide, fun h => absurd h.1 (by decide)⟩, by unfold Asks; decide, by decide, ?_, fun h => absurd h.2.1 (by decide)⟩
  exact ⟨by decide, fun j hj => absurd hj (by have : (restoring Memory.empty).mem.shards (restoring Memory.empty).part.carg.toNat = 0 := by decide
                                              omega)⟩
theorem core_quiet1 (c : Nat) : quiet1.core c = Core.empty := by
  show Tab.get Core.empty [(0, Core.empty)] c = _
  by_cases h : 0 = c <;> simp [Tab.get, Tab.find?, h]
theorem witness_MaintenanceAndPower_fences : OnlyStores quiet1 ∧ ∀ c, (quiet1.core c).stq = [] :=
  ⟨⟨⟨by decide, by decide, by decide⟩, fun c => by rw [core_quiet1]; decide⟩, fun c => by rw [core_quiet1]; decide⟩
theorem witness_MaintenanceAndPower :
    (quiet1.part.frozen = none ∧ quiet1.desc.state ≠ 0 ∧ ∀ e ∈ quiet1.teams, e.2.isResident = false) ∧
    (let s := quiet1.setPart { Part.empty with frozen := some 100, pwrPending := some 3 }
     s.part.frozen = some 100 ∧ s.part.wall ≤ 100 + 5000 * (1000000 * 882) ∧ (s.castle.descs.find? s.pid).isSome = true ∧
       s.part.pwrPending = some 3 ∧ (∀ d ∈ (s.setDie 0 { Die.empty with rail := 3 }).dies, 3 ≤ d.2.rail) ∧
       ∃ d ∈ (s.setDie 0 { Die.empty with rail := 2 }).dies, d.2.rail < 3) ∧
    (let s := quiet1.setPart { Part.empty with frozen := some 0, wall := 5000 * (1000000 * 882) + 1 }
     s.part.frozen = some 0 ∧ 0 + 5000 * (1000000 * 882) < s.part.wall) ∧
    ({ quiet1 with clusters := [(0, Cluster.empty)] }.clusters.filter (fun c => !c.2.started)) = (0, Cluster.empty) :: [] := by decide
/-- A heartbeat is late, by less and by more than the grace period, and a sampling period has ended. -/
theorem witness_MaintenanceAndPower_late :
    ∀ late ∈ [1, 5000 * (1000000 * 882) + 1],
      let s := quiet1.setPart { Part.empty with hbPeriod := 100, wall := 100 * (1000000 * 882) + late }
      let due := s.part.hbLast + s.part.hbPeriod * (1000000 * 882)
      s.part.frozen = none ∧ s.desc.state ≠ 0 ∧ due < s.part.wall ∧ (∀ e ∈ s.teams, e.2.isResident = false) ∧
        (s.part.wall ≤ due + 5000 * (1000000 * 882) ↔ late = 1) ∧ s.part.sampleAt + 10000 * 882 ≤ s.part.wall := by decide
theorem test_late_heartbeat :
    (left (exec (.hbeat 1) (quiet1.setPart { Part.empty with hbPeriod := 100, wall := 100 * (1000000 * 882) + 5000 * (1000000 * 882) + 1 }))).part.frozen
      = some (100 * (1000000 * 882)) := by decide
theorem test_pwrreq : (left (exec (.pwrreq 2) (quiet1.setPart { Part.empty with mask := 0x3B }))).part.pwrResult = 5 := by decide
def pd : PDesc :=
  { pid := 3, x0 := 1, y0 := 1, width := 2, height := 3, tenant := 9, world := 0, scopePol := 3, hbPeriod := 1000, budget := 500, mask := 0x3F }
def cross : DieCross := { die := 1, source := 0, castle := false }
theorem witness_SecurityAndPorts :
    (State.reset.castle.descs = [] ∧ State.reset.castle.lockdown = false ∧ pd.pid < 16 ∧ 0 < pd.width ∧ 0 < pd.height ∧ pd.x0 + pd.width ≤ 4 ∧
      pd.y0 + pd.height ≤ 4 ∧ pd.tenant < 256 ∧ pd.world = 0 ∧ 100 ≤ pd.hbPeriod ∧ pd.hbPeriod ≤ 60000 ∧
      State.reset.castle.sameChannels (rectSlices pd) = true) ∧
    (let s := State.reset.setCastle { Castle.empty with lockdown := true }
     s.castle.lockdown = true) ∧
    (lone []).castle.locked = true ∧ (lone []).castle.action .firewall = .log ∧ (lone []).castle.action .dieLink = .log ∧
    (Differs (State.reset.setCastle { Castle.empty with worlds := [(0, 5)] }) cross ∧ ¬ Differs State.reset cross) ∧
    (let s := (idling false true).setCastle { (idling false true).castle with actions := [(.firewall, .killContext), (.debug, .lockdown)] }
     s.castle.locked = true ∧ s.castle.lockdown = false ∧ s.castle.action .firewall = .killContext ∧ s.castle.action .debug = .lockdown ∧
       s.findCtx 7 = some 0 ∧ Away s 0) ∧
    (let s := quiet1.setPart { Part.empty with eq := ring2 }
     0 < s.nsl ∧ (∀ e ∈ s.teams, e.2.isResident = false) ∧ RoomIn s.part.eq) ∧
    (Tab.freeKey ([] : Tab (Nat × Nat × Nat)) (64 * 3) < 64 * 3 + 64 ∧
      64 * 3 + 64 ≤ Tab.freeKey ((upto 192 64).map (fun n => (n, (0, 0, 0)))) (64 * 3)) := by
  unfold Away Alone NoCommands RoomIn Differs
  decide
theorem raises_firewall (s : State) (r : ReqSrc) : Raises s .firewall r (.firewallViolation r) := rfl
theorem answers_version (s : State) : Answers s 0 (.getVersion 0) .version := .inl ⟨rfl, rfl⟩
theorem answers_measurements (s : State) : Answers s 0 (.getMeasurements 0)
    (.measurements ((upto 1 6).map (fun i => { index := i, value := s.measured 0 i }))) :=
  .inr (.inr (.inr (.inr (.inr (.inr (.inl ⟨rfl, _, rfl, fun x hx => by
    obtain ⟨i, -, rfl⟩ := List.mem_map.1 hx
    rfl, rfl⟩))))))
theorem witness_SecurityAndPorts_kill :
    (let s := (lone []).setCastle { (lone []).castle with actions := [(.firewall, .killPartition), (.debug, .killContext)] }
     s.castle.locked = true ∧ s.castle.lockdown = false ∧ s.castle.action .firewall = .killPartition ∧ s.castle.action .debug = .killContext ∧
       s.sourcePart (.context 7) = 0 ∧ (s.castle.descs.find? 0).isSome = true) ∧
    (State.reset.castle.descs = [] ∧ { pd with x0 := 0, world := 5 }.world ≠ 0 ∧ { pd with x0 := 0, world := 5 }.world < 256) := by decide
theorem goes_of {x : Except HartExc Nat} {a : Nat} (h : (match x with | .ok p => p == a | .error _ => false) = true) : x = .ok a := by
  cases x with
  | ok p => simpa using h
  | error e => simp at h
theorem stops_of {x : Except HartExc Nat} {a : HartExc} (h : (match x with | .ok _ => false | .error e => e == a) = true) : x = .error a := by
  cases x with
  | ok p => simp at h
  | error e => simpa using h
/-- An access of hart 0 in M-mode, and one of a hart in user mode by `mapped`. -/
theorem witness_SecurityAndPorts_harts :
    (let s := hosting { Hart.empty with resv := some 0x100 }
     (∀ acc, Reaches s s 0 0x4000 acc 8 0x4000) ∧ (∀ acc, Reaches s s 0 0x4004 acc 4 0x4004) ∧ s.mem.poisonAt 0x4000 8 = none ∧ Quiet s ∧
       (s.hart 0).resv = some (0x4000 / 64) ∧ ((hosting Hart.empty).hart 0).resv ≠ some (0x4000 / 64) ∧
       (s.setMem { s.mem with bad := [0x1000] }).mem.poisonAt 0x4000 8 ≠ none ∧
       (∀ j, j < 4 → s.refusedAt (s.dieOf (0 / 4)) (s.homeDie (0x4001 + j)) = none) ∧ (0x4001 : DWord).toNat % 4 ≠ 0 ∧
       s.mem.wf = true ∧ s.mem.poisonAt 0x4001 4 = none) ∧
    (∃ s1, Reaches { mapped with turn := .hart 0, harts := [(0, { Hart.empty with priv := .u, satp := 0xA000000000000100 })] } s1 0 0x4000
      .read 4 0x4000) ∧
    ∃ s1, State.hartTranslate (hosting caller) 0 0x4000 .read = (.error (.loadPage 0x4000), s1) := by
  refine ⟨?_, ⟨_, by decide, by decide, by decide, by decide, by decide, .inr (pair_of (goes_of (by decide +kernel)))⟩, _, pair_of (stops_of (by decide +kernel))⟩
  refine ⟨fun acc => ⟨by decide, by decide, by decide, by decide, by decide, .inl (by decide)⟩,
    fun acc => ⟨by decide, by decide, by decide, by decide, by decide, .inl (by decide)⟩, ?_⟩
  unfold Quiet
  decide
/-- The home die's latch is that of another world; and that of a die in between. -/
theorem witness_SecurityAndPorts_refused :
    let at_ := fun (w : Tab (BitVec 8)) (k : Nat) =>
      (hosting Hart.empty).setCastle { (hosting Hart.empty).castle with worlds := w, descs := [(0, { ((hosting Hart.empty).desc) with slmap := [0, k] })] }
    (let s := at_ [(1, 5)] 2
     (s.harts.find? 0).isSome = true ∧ (s.hart 0).jwait = none ∧ (s.hart 0).priv = .m ∧ (0x10100 : DWord).toNat < s.memEnd ∧
       s.refusedAt (s.dieOf (0 / 4)) (s.homeDie (0x10100 : DWord).toNat) = some 1 ∧ s.castle.action .dieLink = .log) ∧
    (let s := at_ [(2, 5)] 8
     s.homeDie (0x10100 : DWord).toNat = 4 ∧ s.refusedAt (s.dieOf (0 / 4)) (s.homeDie (0x10100 : DWord).toNat) = some 2) := by decide
/-- A partition of slice 0 whose slice port has a key. -/
def ported : State :=
  let s := left (execPartitionCreate { pd with pid := 0, x0 := 0, y0 := 0, width := 1, height := 1 } State.reset)
  s.setCastle { s.castle with slicePorts := [(0, { fabric := false, key := some 1 })] }
def portFn : PortFn := { port := 1, pf := 0, vf := some 2, router := 8 }
theorem witness_SecurityAndPorts_ports :
    let s := ported
    let x := (s.slice 0).number
    let r := (sliceRouters x).headD 0
    (0 < s.nsl ∧ 0x4000 + 2 ≤ s.memEnd ∧ (s.castle.slicePort x).key.isSome = true ∧ s.castle.admits r r (s.homeRouter 0x4000) = true ∧
      s.refusedAt (sliceDie (routerSlice r)) (s.homeDie 0x4000) = none ∧
      s.refusedAt (sliceDie (routerSlice portFn.router)) (s.homeDie 0x4000) = none) ∧
    ((quiet1.castle.slicePort (quiet1.slice 0).number).key = none ∧ 0 < quiet1.nsl) ∧
    (portFn.pf = s.pid ∧ s.castle.functions.contains portFn.pf = true ∧ s.desc.state ≠ 0 ∧ portFn.port < 4 ∧ portFn.vf = some 2 ∧
      (s.vdev 2).dirty.getLsbD 0 = false ∧ (s.castle.hostPort portFn.port).exposes 0x4000 2 = true ∧
      s.castle.admits portFn.router portFn.router (s.homeRouter 0x4000) = true ∧ 5 ≠ s.pid) ∧
    ((∀ e ∈ s.teams, ∀ y ∈ e.2.threads, y.2.mon = none) ∧ (∀ h ∈ s.harts, h.2.jwait = none) ∧ ∀ e ∈ s.slices, e.2.monitors = []) := by
  decide +kernel
theorem test_partition : (left (exec (.partitionCreate pd) State.reset)).desc.slmap = [5, 6, 9, 10, 13, 14] := by decide +kernel
theorem test_hart_load :
    ((left (exec (.hostHartAccess 0 (.load 0x5000 8 9)) (waiter 0))).hart 0).get 9 = 5 := by decide

/-! ### The step -/

theorem witness_DecodeOfEncodeIsTheInstruction :
    (Instr.vadd { lm := 7, vb := 63, va := 63, vd := 63, p := 3, w := 3 }).wf = true ∧
      (encode (.vadd { lm := 7, vb := 63, va := 63, vd := 63, p := 3, w := 3 })).isSome = true ∧
      (encode (.xljwait 31 31 31)).isSome = true := by decide
theorem witness_StepRunsTheDecodedInstruction_serves : Serves (lone []) 0 (pass0 one [[0]]) (theCtx (lone [])) :=
  ⟨by decide, by decide, by decide, by decide, by decide +kernel, by decide, by decide +kernel, by decide, rfl, by decide, by decide,
    by decide⟩
theorem witness_StepRunsTheDecodedInstruction :
    decodeBytes ((pass0 one [[0]]).body.drop (pass0 one [[0]]).off) = .ok (.vadd { lm := 0, vb := 3, va := 2, vd := 1, p := 0, w := 0 }, 4) ∧
      wordIllegal (pass0 one [[0]]) = false ∧
      ((lone []).core 0).missing (pass0 one [[0]]).team
        ((lone []).linesFor (theCtx (lone [])) (.vadd { lm := 0, vb := 3, va := 2, vd := 1, p := 0, w := 0 })) = none ∧
      (lone []).nmFull 0 (theCtx (lone [])) (.vadd { lm := 0, vb := 3, va := 2, vd := 1, p := 0, w := 0 }) = false :=
  ⟨by rfl, by decide, by decide +kernel, by decide⟩
theorem witness_StepRunsTheDecodedInstruction_illegal :
    let p := pass0 (toBytes 4 1) [[0]]
    Serves (world (team0 []) p) 0 p (theCtx (world (team0 []) p)) ∧ decodeBytes (p.body.drop p.off) = .error .unlisted :=
  ⟨⟨by decide, by decide, by decide, by decide, by decide +kernel, by decide, by decide +kernel, by decide, rfl, by decide, by decide,
    by decide⟩, by rfl⟩
theorem witness_StepRunsTheDecodedInstruction_hart :
    let s := (hosting { Hart.empty with running := true }).setMem (Memory.empty.write 0 [0x8B, 0x12, 0x66, 0x00])
    HartAt s 0 0x0066128B ∧ decodeHost 0x0066128B = .ok (.xljwait 5 12 6) :=
  ⟨⟨by decide, by decide, by decide, by decide, by decide, by decide, by decide, by decide, by decide, by decide, by decide, by decide, by decide⟩,
    by rfl⟩
theorem witness_StepRunsTheDecodedInstruction_event :
    { State.reset with sched := [.event .powerUp] }.sched = .event .powerUp :: [] ∧ encode .powerUp = none ∧
      { State.reset with sched := [.input .readLog] }.sched = .input .readLog :: [] := by decide
theorem next_of {s : State} (h : (match step s with | .next _ => true | _ => false) = true) : ∃ t, step s = .next t := by
  split at h
  · next t e => exact ⟨t, e⟩
  · simp at h
theorem witness_EveryStepKeepsTheInvariant : (lone []).Inv ∧ ∃ t, step (lone []) = .next t :=
  ⟨by unfold State.Inv; decide, next_of (by decide +kernel)⟩
/-- A step of a core runs the word at the pass's offset: VADD v1, v2, v3. -/
theorem test_step_vadd :
    (((left (step (lone [(2, 40), (3, 2)]))).team 0).thread 0).vget 1 = 42 := by decide +kernel
/-- The word that withFetchWord places is the one that the next step runs: VMOVI v6, −1. -/
theorem test_fetched : (((left (step (State.reset.withFetchWord 32 0xFFFE3131))).team 0).thread 0).vget 6 = 0xFFFFFFFF := by decide +kernel
end Sys2Proof.Tests
end

section
/-! SUPPORT. What a vector instruction leaves alone (R28, R415, R417): the frame of one destination's write, of a group's results, and of
the issue. -/

namespace Sys2Proof.Proofs

open Sys2Proof Sys2Proof.Machine Sys2Proof.Claims

/-! ### Which vector instruction an instruction is -/

/-- The form of a vector instruction. -/
def formOf (v : VInstr) : Form := { guard := v.guard, opds := v.opds, dst := v.dst, lat := v.lat }

theorem isPacked_iff (f : Fmt) : isPacked f = true ↔ f = .bf16 ∨ f = .t8 ∨ f = .t6 := by
  cases f <;> decide

/-- An instruction that has a form is a vector instruction of that form; VREDU alone raises its exceptions gang by gang (R454). -/
theorem exec_eq_execVector {i : Instr} {F : Form} (h : vform i = some F) :
    ∃ v, exec i = execVector v ∧ formOf v = F ∧ (v.gangFlags = true → ∃ f, i = .vredu f) := by
  cases i
  case vredu f => cases h; exact ⟨_, rfl, rfl, fun _ => ⟨f, rfl⟩⟩
  case vcvt f =>
    cases h
    refine ⟨_, rfl, ?_, Bool.noConfusion⟩
    simp only [formOf, formV, isPacked_iff]
  -- what is left either has no form, or is its form's instruction by definition
  all_goals cases h
  all_goals exact ⟨_, rfl, rfl, Bool.noConfusion⟩

/-! ### A register after a write of another -/

theorem getLsbD_one_shift_ne {n m : Nat} (h : n ≠ m) : (1#8 <<< m).getLsbD n = false := by
  simp only [BitVec.getLsbD_shiftLeft, BitVec.getLsbD_one]
  by_cases hn : n < m
  · simp [hn]
  · simp [show n - m ≠ 0 by omega]

/-- p[n] after a write of another predicate. -/
theorem Thread.pget_pset_ne (y : Thread) {n m : Nat} (b : Bool) (h : n ≠ m) : (y.pset m b).pget n = y.pget n := by
  unfold Thread.pget Thread.pset
  have hbit := getLsbD_one_shift_ne h
  by_cases hm : m = 0
  · simp [hm]
  · by_cases hn : n < 8
    · cases b <;> simp only [beq_iff_eq, hm, if_false, if_true, Bool.false_eq_true, BitVec.getLsbD_or, BitVec.getLsbD_and, BitVec.getLsbD_not,
        hbit, hn, Bool.or_false, decide_true, Bool.not_false, Bool.and_true]
    · rw [BitVec.getLsbD_of_ge _ n (Nat.le_of_not_lt hn), BitVec.getLsbD_of_ge _ n (Nat.le_of_not_lt hn)]

theorem Thread.iget_of_le (y : Thread) {i : Nat} (h : 4 ≤ i) : y.iget i = 0 := by
  unfold Thread.iget
  apply BitVec.eq_of_getLsbD_eq
  intro k hk
  simp only [BitVec.getLsbD_extractLsb', hk, decide_true, Bool.true_and]
  exact (BitVec.getLsbD_of_ge _ _ (by omega)).trans (BitVec.getLsbD_zero).symm

theorem getLsbD_byteMask (n : Nat) : (0xFF#32).getLsbD n = decide (n < 8) := Nat.testBit_two_pow_sub_one 8 n

/-- i[j] after a write of another index register. -/
theorem Thread.iget_iset_ne (y : Thread) {i m : Nat} (b : BitVec 8) (h : i ≠ m) : (y.iset m b).iget i = y.iget i := by
  unfold Thread.iget Thread.iset
  apply BitVec.eq_of_getLsbD_eq
  intro k hk
  simp only [BitVec.getLsbD_extractLsb', hk, decide_true, Bool.true_and]
  by_cases hp : 8 * i + k < 32
  · have hmask : ((0xFF#32) <<< (8 * m)).getLsbD (8 * i + k) = false := by
      rw [BitVec.getLsbD_shiftLeft, getLsbD_byteMask]
      by_cases hlt : 8 * i + k < 8 * m
      · simp [hlt]
      · simp [show ¬8 * i + k - 8 * m < 8 by omega]
    have hbyte : ((b.zeroExtend 32) <<< (8 * m)).getLsbD (8 * i + k) = false := by
      rw [BitVec.getLsbD_shiftLeft, BitVec.getLsbD_setWidth]
      by_cases hlt : 8 * i + k < 8 * m
      · simp [hlt]
      · simp [BitVec.getLsbD_of_ge b _ (show 8 ≤ 8 * i + k - 8 * m by omega)]
    rw [BitVec.getLsbD_or, BitVec.getLsbD_and, BitVec.getLsbD_not, hmask, hbyte]
    simp [hp]
  · rw [BitVec.getLsbD_of_ge _ _ (Nat.le_of_not_lt hp), BitVec.getLsbD_of_ge _ _ (Nat.le_of_not_lt hp)]

/-! ### One thread's write -/

/-- A full write of v[n] keeps every other v register, every predicate and every index register. -/
theorem threadKeeps_vset {d : Dst} {T : Team} {y z : Thread} {n : Nat} (a : Word) (h : ThreadKeeps d T y z)
    (hn : n ∈ Dst.vregs d T y) : ThreadKeeps d T y (z.vset n a) := by
  obtain ⟨hrest, hv, hp, hi⟩ := h
  refine ⟨hrest, fun k hk => ?_, hp, hi⟩
  have hkn : k ≠ n := fun e => hk (e.symm ▸ hn)
  exact (Thread.vget_vset_ne z a hkn).trans (hv k hk)

/-- A window index is no field of v: it stays where a thread keeps what its window destination leaves alone. -/
theorem threadKeeps_win_index {i : Nat} {T : Team} {y z : Thread} (h : ThreadKeeps (.win i) T y z) : z.iget i = y.iget i := by
  obtain ⟨-, -, -, hi⟩ := h
  by_cases h4 : i < 4
  · exact hi i h4 nofun
  · rw [Thread.iget_of_le _ (Nat.le_of_not_lt h4), Thread.iget_of_le _ (Nat.le_of_not_lt h4)]

/-- A destination's write keeps what the destination leaves alone. -/
theorem threadKeeps_write {d : Dst} {T U : Team} {y z : Thread} (a : DWord) (h : ThreadKeeps d T y z) (hw : U.wbase = T.wbase) :
    ThreadKeeps d T y (d.write U z a) := by
  cases d with
  | v n => exact threadKeeps_vset _ h (by simp [Dst.vregs])
  | v64 n =>
    exact threadKeeps_vset _ (threadKeeps_vset _ h (by simp [Dst.vregs])) (by simp [Dst.vregs])
  | win i =>
    refine threadKeeps_vset _ h ?_
    rw [hw, threadKeeps_win_index h]
    exact List.mem_singleton_self _
  | p n =>
    obtain ⟨hrest, hv, hp, hi⟩ := h
    refine ⟨?_, fun k hk => ?_, fun k hk => ?_, fun k hk h1 => ?_⟩
    · rw [← hrest]; simp only [Dst.write, Thread.pset]; split <;> rfl
    · rw [← hv k hk]; simp only [Dst.write, Thread.pset]; split <;> rfl
    · exact (Thread.pget_pset_ne z _ (hk n rfl)).trans (hp k hk)
    · rw [← hi k hk h1]; simp only [Dst.write, Thread.pset]; split <;> rfl
  | ix i =>
    obtain ⟨hrest, hv, hp, hi⟩ := h
    exact ⟨hrest, hv, hp, fun k hk h1 => (Thread.iget_iset_ne z _ (h1 i rfl)).trans (hi k hk h1)⟩

theorem threadKeeps_refl (d : Dst) (T : Team) (y : Thread) : ThreadKeeps d T y y :=
  ⟨rfl, fun _ _ => rfl, fun _ _ => rfl, fun _ _ _ => rfl⟩

/-! ### A group's results -/

/-- A lane's result of a fixed latency written to its thread, with its mark (R44). -/
def writeLane (d : Dst) (grp avail : Nat) (pc : DWord) (t : Team) (c : Nat × DWord × BitVec 5) : Team :=
  { t.setThread c.1 (d.write t (t.thread c.1) c.2.1) with
    marks := addMarks t.marks grp c.1 (d.slots t (t.thread c.1)) avail pc }

section
variable (d : Dst) (grp avail : Nat) (pc : DWord)

theorem writeLane_teamKeeps {T U : Team} (c : Nat × DWord × BitVec 5) (h : TeamKeeps T U) : TeamKeeps T (writeLane d grp avail pc U c) := h

theorem foldl_writeLane_teamKeeps {T : Team} (out : List (Nat × DWord × BitVec 5)) {U : Team} (h : TeamKeeps T U) :
    TeamKeeps T (out.foldl (writeLane d grp avail pc) U) := by
  induction out generalizing U with
  | nil => exact h
  | cons c out ih => exact ih (writeLane_teamKeeps d grp avail pc c h)

theorem teamKeeps_wbase {T U : Team} (h : TeamKeeps T U) : U.wbase = T.wbase := (congrArg Team.wbase h : _)

/-- Every thread keeps what the destination leaves alone, however many lanes are its own. -/
theorem foldl_writeLane_threadKeeps {T : Team} {y : Thread} (j : Nat) (out : List (Nat × DWord × BitVec 5)) {U : Team}
    (hT : TeamKeeps T U) (h : ThreadKeeps d T y (U.thread j)) :
    ThreadKeeps d T y ((out.foldl (writeLane d grp avail pc) U).thread j) := by
  induction out generalizing U with
  | nil => exact h
  | cons c out ih =>
    refine ih (writeLane_teamKeeps d grp avail pc c hT) ?_
    show ThreadKeeps d T y ((U.setThread c.1 (d.write U (U.thread c.1) c.2.1)).thread j)
    by_cases hc : j = c.1
    · subst hc
      rw [Team.thread_setThread]
      exact threadKeeps_write _ h (teamKeeps_wbase hT)
    · rw [Team.thread_setThread_ne _ _ hc]
      exact h

/-- A thread that has no lane is as it was. -/
theorem foldl_writeLane_thread_ne {j : Nat} (out : List (Nat × DWord × BitVec 5)) {U : Team} (h : ∀ c ∈ out, c.1 ≠ j) :
    (out.foldl (writeLane d grp avail pc) U).thread j = U.thread j := by
  induction out generalizing U with
  | nil => rfl
  | cons c out ih =>
    rw [List.foldl_cons, ih fun e he => h e (List.mem_cons_of_mem _ he)]
    exact Team.thread_setThread_ne _ _ (Ne.symm (h c List.mem_cons_self))

end

/-- The results that a commit writes: the lanes that are not off, a pawn's trap as a zero (R27). -/
def laneResults (v : VInstr) (t : Team) (lanes : List (Nat × Lane)) : List (Nat × DWord × BitVec 5) :=
  lanes.filterMap (fun c => match c.2 with
    | .off => none
    | .trap _ => if t.isPawn c.1 && v.dst.exists t c.1 then some (c.1, (0 : DWord), (0 : BitVec 5)) else none
    | .val a fl => some (c.1, a, if t.isPawn c.1 then 0 else fl))

theorem ne_of_mem_laneResults {v : VInstr} {t : Team} {lanes : List (Nat × Lane)} {j : Nat} (h : ∀ c ∈ lanes, c.1 = j → c.2 = .off) :
    ∀ c ∈ laneResults v t lanes, c.1 ≠ j := by
  intro c hc hj
  obtain ⟨⟨m, l⟩, he, hc⟩ := List.mem_filterMap.1 hc
  cases l with
  | off => cases hc
  | val a fl => cases hc; exact Lane.noConfusion (h _ he hj)
  | trap i =>
    dsimp only at hc
    split at hc <;> cases hc
    exact Lane.noConfusion (h _ he hj)

theorem commit_of_latency {v : VInstr} {l : Nat} (hl : v.lat = some l) (s : State) (x : Ctx) (lanes : List (Nat × Lane)) :
    ∃ p, v.commit s x lanes = s.setTeam x.team
      { (laneResults v (s.team x.team) lanes).foldl (writeLane v.dst x.grp (x.cc + l) x.pc) (s.team x.team) with fpend := p } :=
  ⟨_, by simp only [VInstr.commit, hl]; rfl⟩

theorem commit_of_interlock {v : VInstr} (hl : v.lat = none) (s : State) (x : Ctx) (lanes : List (Nat × Lane)) :
    ∃ r, v.commit s x lanes = s.setTeam x.team { s.team x.team with results := r } :=
  ⟨_, by simp only [VInstr.commit, hl]; rfl⟩

/-- What a commit leaves of its team: no field but threads, marks, results and pending exceptions changes, every thread keeps what the
destination leaves alone, and one whose lanes are off is as it was. -/
theorem commit_keeps (v : VInstr) (s : State) (x : Ctx) (lanes : List (Nat × Lane)) :
    ∃ U, v.commit s x lanes = s.setTeam x.team U ∧ TeamKeeps (s.team x.team) U ∧
      (∀ j, ThreadKeeps v.dst (s.team x.team) ((s.team x.team).thread j) (U.thread j)) ∧
      ∀ j, (∀ c ∈ lanes, c.1 = j → c.2 = .off) → U.thread j = (s.team x.team).thread j := by
  cases hl : v.lat with
  | none =>
    obtain ⟨r, hr⟩ := commit_of_interlock hl s x lanes
    exact ⟨_, hr, rfl, fun j => threadKeeps_refl _ _ _, fun j _ => rfl⟩
  | some l =>
    obtain ⟨p, hp⟩ := commit_of_latency hl s x lanes
    have hkeeps := foldl_writeLane_teamKeeps v.dst x.grp (x.cc + l) x.pc (T := s.team x.team)
      (laneResults v (s.team x.team) lanes) rfl
    refine ⟨_, hp, hkeeps, fun j => ?_, fun j hj => ?_⟩
    · exact foldl_writeLane_threadKeeps v.dst x.grp (x.cc + l) x.pc j _ (T := s.team x.team) rfl (threadKeeps_refl _ _ _)
    · exact foldl_writeLane_thread_ne v.dst x.grp (x.cc + l) x.pc _ (ne_of_mem_laneResults hj)

/-! ### The frame -/

theorem team_spendFresh (s : State) (b : Bool) (k : Nat) : (s.spendFresh b).team k = s.team k := by
  unfold State.spendFresh; split <;> rfl

/-- R28, R415: what a vector instruction that traps in no thread leaves alone. -/
theorem execVector_frame {v : VInstr} {s : State} {x : Ctx} (hr : Ready s x v.guard v.opds) (hd : DstOk s x v.guard v.dst) :
    ∃ t, execVector v s = .next t ∧ OutsideTeams s { t with fresh := s.fresh } ∧ (v.gangFlags = false → t.fresh = s.fresh) ∧
      (∀ k, k ≠ x.team → t.team k = s.team k) ∧ TeamKeeps (s.team x.team) (t.team x.team) ∧
      ∀ j, if j ∈ x.group ∧ s.guardOn x v.guard j = true then
          ThreadKeeps v.dst (s.team x.team) ((s.team x.team).thread j) ((t.team x.team).thread j)
        else (t.team x.team).thread j = (s.team x.team).thread j := by
  obtain ⟨hx, he, hall⟩ := hr
  have hwin : ∀ m ∈ x.group, s.guardOn x v.guard m = true → ∀ i, v.dst = .win i →
      (((s.team x.team).thread m).iget i).toNat < (s.team x.team).wlen := by
    intro m hm hon i hi
    rw [hi] at hd
    exact hd m hm hon
  obtain ⟨U, hU, hteam, hthread, hoff⟩ := commit_keeps v s x (x.group.map (fun j => (j, v.lane s x j)))
  refine ⟨_, execVector_ready hx he hall hwin, ?_, fun hg => ?_, fun k hk => ?_, ?_, fun j => ?_⟩
  · rw [hU]; unfold State.spendFresh; split <;> rfl
  · rw [hU, hg]; rfl
  · rw [team_spendFresh, hU, State.team_setTeam_ne _ _ _ hk]
  · rw [team_spendFresh, hU, State.team_setTeam]; exact hteam
  · rw [team_spendFresh, hU, State.team_setTeam]
    split
    · exact hthread j
    · next hj =>
      refine hoff j fun c hc hcj => ?_
      obtain ⟨m, hm, rfl⟩ := List.mem_map.1 hc
      obtain rfl : m = j := hcj
      exact VInstr.lane_off (hall m hm).1 (Bool.eq_false_iff.2 fun hon => hj ⟨hm, hon⟩)

/-- Settles O12: every instruction with a form is a vector instruction, whose issue commits its lanes and does nothing else. -/
theorem vectorInstructionsChangeOnlyTheirDestination : Obligations.VectorInstructionsChangeOnlyTheirDestination := by
  unfold Obligations.VectorInstructionsChangeOnlyTheirDestination
  intro i F h s x hr hd
  obtain ⟨v, hv, rfl, hg⟩ := exec_eq_execVector h
  obtain ⟨t, ht, hout, hfresh, hrest⟩ := execVector_frame hr hd
  refine ⟨t, hv ▸ ht, hout, fun hi => hfresh (Bool.eq_false_iff.2 fun hf => ?_), hrest⟩
  obtain ⟨f, hf⟩ := hg hf
  exact hi f hf

end Sys2Proof.Proofs
end

section
/-! SUPPORT. What an operand gives a thread, what it consumes, and what it refuses (R42, R55, R80, R85, R107, R111, R128 to R130, R453, R454):
one law for each kind of read, and from them one for the operand. -/

namespace Sys2Proof.Proofs

open Sys2Proof Sys2Proof.Machine Sys2Proof.Claims

/-! ### Slots that are readable, and poisoned ones -/

section
variable {s : State} {x : Ctx}

/-- A readable v register gives its word (R44). -/
theorem rd_v {b n early : Nat} (hn : n < 64) (h : (s.team x.team).short x { owner := b, slot := n, early := early } = 0) :
    s.rd x { owner := b, slot := n, early := early } = ((s.team x.team).thread b).vget n := by
  unfold State.rd Thread.slotGet
  simp only [h, if_true, hn]

/-- A readable predicate's slot gives the predicate line's word (R44, R71). -/
theorem rd_p {b n early : Nat} (hn : n < 8) (h : (s.team x.team).short x { owner := b, slot := pSlot n, early := early } = 0) :
    (s.rd x { owner := b, slot := pSlot n, early := early }).getLsbD n = ((s.team x.team).thread b).p.getLsbD n := by
  unfold pSlot at *
  unfold State.rd Thread.slotGet
  simp only [h, if_true]
  rw [if_neg (show ¬200 + n < 64 by omega), if_pos (show 200 + n < 300 by omega)]
  simp [show n < 32 by omega]

/-- A readable index register's slot gives the index line's word (R44, R71). -/
theorem rd_ix {b i early : Nat} (h : (s.team x.team).short x { owner := b, slot := iSlot i, early := early } = 0) :
    s.rd x { owner := b, slot := iSlot i, early := early } = ((s.team x.team).thread b).ix := by
  unfold iSlot at *
  unfold State.rd Thread.slotGet
  simp only [h, if_true]
  rw [if_neg (show ¬300 + i < 64 by omega), if_neg (show ¬300 + i < 300 by omega)]
  rfl

/-- A predicate read of a thread's own gives its value (R44, R55), p0's without a read. -/
theorem rdP_eq {b n : Nat} (hn : n < 8) (h : ∀ r ∈ predRd b n, (s.team x.team).short x r = 0) :
    s.rdP x b n = ((s.team x.team).thread b).pget n := by
  unfold State.rdP Thread.pget
  by_cases h0 : n = 0
  · simp [h0]
  · have hb : (n == 0) = false := beq_false_of_ne h0
    have hs := h _ (by rw [predRd, hb]; exact List.mem_singleton_self _)
    rw [hb, rd_p hn hs]
    simp [Thread.slotGet, show n < 32 by omega]

theorem rdS_eq {g n : Nat} (h : n = 0 ∨ (s.team x.team).short x { owner := g, slot := sSlot n, early := 0 } = 0) :
    s.rdS x g n = (s.team x.team).sget g n := by
  unfold State.rdS
  simp only [h, if_true]

end

section
variable (t : Team)

theorem poisoned_v {b n early : Nat} (hn : n < 64) : t.poisoned { owner := b, slot := n, early := early } = true ↔ n ∈ (t.thread b).bad := by
  simp [Team.poisoned, slotNumber, show ¬100 ≤ n by omega, show n < 100 by omega]

theorem poisoned_fill (r : Rd) : t.poisoned { r with fill := true } = false := rfl

theorem poisoned_p {b n early : Nat} (hn : n < 8) :
    t.poisoned { owner := b, slot := pSlot n, early := early } = true ↔ 64 ∈ (t.thread b).bad := by
  simp [Team.poisoned, slotNumber, pSlot, show ¬200 + n < 200 by omega, show ¬200 + n < 100 by omega, show 200 + n < 300 by omega]

theorem poisoned_ix {b i early : Nat} : t.poisoned { owner := b, slot := iSlot i, early := early } = true ↔ 65 ∈ (t.thread b).bad := by
  simp [Team.poisoned, slotNumber, iSlot, show ¬300 + i < 200 by omega, show ¬300 + i < 100 by omega, show ¬300 + i < 300 by omega]

theorem poisoned_s {g n : Nat} (hn : n < 32) : t.poisoned { owner := g, slot := sSlot n, early := 0 } = t.spoison g n := by
  simp [Team.poisoned, sSlot, show 100 + n < 200 by omega]

/-- Some register among these reads is poisoned. -/
def AnyPoisoned (rs : List Rd) : Prop := ∃ r ∈ rs, t.poisoned r = true

theorem consumed_eq_none_iff (rs : List Rd) : t.consumed rs = none ↔ ¬AnyPoisoned t rs := by
  simp [Team.consumed, AnyPoisoned]

theorem anyPoisoned_append (rs qs : List Rd) : AnyPoisoned t (rs ++ qs) ↔ AnyPoisoned t rs ∨ AnyPoisoned t qs := by
  simp only [AnyPoisoned, List.mem_append, or_and_right, exists_or]

theorem not_anyPoisoned_nil : ¬AnyPoisoned t [] := nofun

theorem anyPoisoned_singleton (r : Rd) : AnyPoisoned t [r] ↔ t.poisoned r = true := by simp [AnyPoisoned]

theorem anyPoisoned_predRd {b n : Nat} (hn : n < 8) : AnyPoisoned t (predRd b n) ↔ n ≠ 0 ∧ 64 ∈ (t.thread b).bad := by
  unfold predRd
  by_cases h0 : n = 0
  · simp [h0, not_anyPoisoned_nil]
  · simp [h0, anyPoisoned_singleton, poisoned_p t hn]

end

/-! ### Own registers, and another lane's -/

/-- Every one of these reads is readable (R44, R127). -/
def AllReadable (s : State) (x : Ctx) (rs : List Rd) : Prop := ∀ r ∈ rs, (s.team x.team).short x r = 0

section
variable {s : State} {x : Ctx}

theorem opdOwn_late (b n early : Nat) (wide : Bool) : (s.opdOwn x b n early wide).late = [] := by cases wide <;> rfl

theorem opdOwn_vals {b n early : Nat} {wide : Bool} (hn : n + (if wide then 1 else 0) < 64)
    (h : AllReadable s x (s.opdOwn x b n early wide).rds) :
    (s.opdOwn x b n early wide).vals = [some (ownValue (s.team x.team) b n wide)] := by
  cases wide with
  | false =>
    have h0 := h _ (List.mem_singleton_self _)
    show [w64 (s.rd x _)] = _
    rw [rd_v (by simpa using hn) h0]
    rfl
  | true =>
    have h0 := h _ List.mem_cons_self
    have h1 := h _ (List.mem_cons_of_mem _ (List.mem_singleton_self _))
    have hn1 : n + 1 < 64 := by simpa using hn
    show [some (pair64 (s.rd x _) (s.rd x _))] = _
    rw [rd_v (by omega) h0, rd_v hn1 h1]
    rfl

theorem opdOwn_poisoned {b n early : Nat} {wide : Bool} (hn : n + (if wide then 1 else 0) < 64) :
    AnyPoisoned (s.team x.team) (s.opdOwn x b n early wide).rds ↔ Bad (s.team x.team) b n wide := by
  cases wide with
  | false =>
    have hn0 : n < 64 := by simpa using hn
    simp [State.opdOwn, anyPoisoned_singleton, poisoned_v _ hn0, Bad]
  | true =>
    have hn1 : n + 1 < 64 := by simpa using hn
    simp [State.opdOwn, AnyPoisoned, poisoned_v _ hn1, poisoned_v _ (show n < 64 by omega), Bad]

theorem present_eq (j l : Nat) : x.present (s.team x.team) ((s.team x.team).gangOf j) l =
    if inGroup (s.team x.team) x j l = true then some (atLane (s.team x.team) j l) else none := rfl

theorem opdFrom_late (j g l n early : Nat) (wide fill : Bool) : (s.opdFrom x j g l n early wide fill).late = [] := by
  unfold State.opdFrom
  split
  · exact opdOwn_late _ _ _ _
  · split
    · exact opdOwn_late _ _ _ _
    · rfl

/-- A read of another lane (R42): its thread's value where it is in the group, else the fill. -/
theorem opdFrom_vals {j l n early : Nat} {wide fill : Bool} (hn : n + (if wide then 1 else 0) < 64)
    (h : AllReadable s x (s.opdFrom x j ((s.team x.team).gangOf j) l n early wide fill).rds) :
    (s.opdFrom x j ((s.team x.team).gangOf j) l n early wide fill).vals =
      [some (laneValue (s.team x.team) x j l n wide fill)] := by
  unfold State.opdFrom laneValue at *
  rw [present_eq] at *
  cases hg : inGroup (s.team x.team) x j l with
  | true =>
    simp only [hg, if_true] at h ⊢
    exact opdOwn_vals hn h
  | false =>
    cases fill with
    | false => rfl
    | true =>
      simp only [hg, Bool.false_eq_true, if_false, if_true] at h ⊢
      exact opdOwn_vals hn fun r hr => h { r with fill := true } (List.mem_map_of_mem hr)

/-- It consumes the lane's register where its thread is in the group; a fill consumes none (R42, R85). -/
theorem opdFrom_poisoned {j l n early : Nat} {wide fill : Bool} (hn : n + (if wide then 1 else 0) < 64) :
    AnyPoisoned (s.team x.team) (s.opdFrom x j ((s.team x.team).gangOf j) l n early wide fill).rds ↔
      inGroup (s.team x.team) x j l = true ∧ Bad (s.team x.team) (atLane (s.team x.team) j l) n wide := by
  unfold State.opdFrom
  rw [present_eq]
  cases hg : inGroup (s.team x.team) x j l with
  | true => simp [opdOwn_poisoned hn]
  | false => cases fill <;> simp [AnyPoisoned, poisoned_fill]

end

/-! ### Routing (R128, R129) -/

theorem lmMode_bad_iff (m : BitVec 3) : (m.toNat = 0 ∨ 5 < m.toNat) ↔ m ∈ [(0 : BitVec 3), 6, 7] := by
  revert m; decide

theorem lmScope_bad_iff (c : BitVec 2) : 1 < c.toNat ↔ c ∈ [(2 : BitVec 2), 3] := by
  revert c; decide

theorem lmBad_iff (d : BitVec 16) : lmBad d = true ↔ badRoute d := by
  unfold lmBad badRoute lmMode lmScope
  rw [← lmMode_bad_iff, ← lmScope_bad_iff]
  simp [or_assoc]

/-- A lane number and another below a scope's width stay below it when they are XORed, which is a power of two. -/
theorem xor_lt_width {a b n : Nat} (hn : n = 4 ∨ n = 16 ∨ n = 32 ∨ n = 64) (ha : a < n) (hb : b < n) : a ^^^ b < n := by
  rcases hn with rfl | rfl | rfl | rfl
  · exact Nat.xor_lt_two_pow (n := 2) ha hb
  · exact Nat.xor_lt_two_pow (n := 4) ha hb
  · exact Nat.xor_lt_two_pow (n := 5) ha hb
  · exact Nat.xor_lt_two_pow (n := 6) ha hb

/-- The lane of a routed read that is not refused (R129). -/
theorem lmLane_eq_sourceLane {d : BitVec 16} {w l i i' : Nat} (hw : w = 16 ∨ w = 32 ∨ w = 64) (hd : lmBad d = false) (hl : l < w)
    (hi : lmMode d = 4 → i = i') : lmLane d w l i = sourceLane d w l i' := by
  simp only [lmBad, Bool.or_eq_false_iff, beq_eq_false_iff_ne, decide_eq_false_iff_not] at hd
  obtain ⟨⟨⟨hm0, hm5⟩, hsc⟩, -⟩ := hd
  have hwhole : lmScope d = 0 ↔ ¬d.extractLsb' 4 2 = 1 := by
    rw [BitVec.toNat_inj.symm]
    show lmScope d = 0 ↔ ¬lmScope d = 1
    omega
  have hn : (if lmScope d == 0 then 4 else w) = if d.extractLsb' 4 2 = 1 then w else 4 := by
    by_cases h : d.extractLsb' 4 2 = 1 <;> simp [hwhole, h]
  have hbase : (if lmScope d == 0 then l - l % 4 else 0) = if d.extractLsb' 4 2 = 1 then 0 else 4 * (l / 4) := by
    by_cases h : d.extractLsb' 4 2 = 1
    · simp [hwhole, h]
    · simp only [beq_iff_eq, hwhole, h, not_false_eq_true, if_true, if_false]; omega
  unfold lmLane sourceLane
  simp only [hn, hbase]
  have hscope : ∃ n base, (if d.extractLsb' 4 2 = 1 then w else 4) = n ∧ (if d.extractLsb' 4 2 = 1 then 0 else 4 * (l / 4)) = base ∧
      (n = 4 ∨ n = 16 ∨ n = 32 ∨ n = 64) ∧ l - base < n := by
    refine ⟨_, _, rfl, rfl, ?_⟩
    split <;> omega
  obtain ⟨n, base, hen, heb, hn4, hlt⟩ := hscope
  simp only [hen, heb]
  have hmode : (d.extractLsb' 0 3).toNat = 1 ∨ (d.extractLsb' 0 3).toNat = 2 ∨ (d.extractLsb' 0 3).toNat = 3 ∨ (d.extractLsb' 0 3).toNat = 4 ∨
      (d.extractLsb' 0 3).toNat = 5 := by
    unfold lmMode at hm0 hm5
    omega
  have hx := xor_lt_width hn4 hlt (Nat.mod_lt (lmParam d) (show 0 < n by omega))
  unfold lmMode at *
  rcases hmode with h | h | h | h | h <;> simp only [h]
  · rfl
  · rfl
  · exact congrArg (base + ·) (Nat.mod_eq_of_lt hx)
  · rw [hi h]

section
variable {s : State} {x : Ctx}

theorem Shaped.laneOf_lt {t : Team} (ht : Shaped t) (j : Nat) : t.laneOf j < t.w := by
  obtain ⟨hw, -⟩ := ht
  exact Nat.mod_lt _ (by omega)

/-- v[PARAM] of the reader, which an IDX routing reads (R129). -/
def indexRd (d : BitVec 16) (j : Nat) : Rd := { owner := j, slot := lmParam d, early := 0 }

theorem lmParam_lt (d : BitVec 16) : lmParam d < 64 := (d.extractLsb' 6 6).isLt

/-- A routed read whose descriptor is not refused reads its lane, and v[PARAM] where that gives the lane. -/
theorem opdRouted_ok (n : Nat) (wide : Bool) {j m : Nat} (ht : Shaped (s.team x.team)) (hm : m ≠ 0) (hd : lmBad ((s.team x.team).lmGet m) = false)
    (hi : lmMode ((s.team x.team).lmGet m) = 4 → (s.team x.team).short x (indexRd ((s.team x.team).lmGet m) j) = 0) :
    ∃ early, s.opdRouted x j m n wide = .ok
      { s.opdFrom x j ((s.team x.team).gangOf j) (routeOf (s.team x.team) j m) n early wide (((s.team x.team).lmGet m).getLsbD 3) with
        late := if lmMode ((s.team x.team).lmGet m) = 4 then [indexRd ((s.team x.team).lmGet m) j] else [] } := by
  have hlane := lmLane_eq_sourceLane (l := (s.team x.team).laneOf j)
    (i := if lmMode ((s.team x.team).lmGet m) = 4 then (s.rd x (indexRd ((s.team x.team).lmGet m) j)).toNat else 0)
    (i' := (((s.team x.team).thread j).vget (lmParam ((s.team x.team).lmGet m))).toNat) ht.1 hd (Shaped.laneOf_lt ht j) (fun h4 => by
      rw [if_pos h4, indexRd, rd_v (lmParam_lt _) (hi h4)])
  refine ⟨if lmMode ((s.team x.team).lmGet m) == 4 then 2 else 1, ?_⟩
  unfold State.opdRouted
  simp only [beq_iff_eq, hm, hd, Bool.false_eq_true, if_false]
  unfold indexRd at *
  rw [hlane]
  rfl

/-- Whether a routed read reads v[PARAM] hangs on its descriptor alone. -/
theorem opdRouted_late (n : Nat) (wide : Bool) {j m : Nat} (hm : m ≠ 0) (hd : lmBad ((s.team x.team).lmGet m) = false) :
    ∃ a, s.opdRouted x j m n wide = .ok a ∧
      a.late = if lmMode ((s.team x.team).lmGet m) = 4 then [indexRd ((s.team x.team).lmGet m) j] else [] := by
  unfold State.opdRouted indexRd
  simp only [beq_iff_eq, hm, hd, Bool.false_eq_true, if_false]
  exact ⟨_, rfl, rfl⟩

theorem opdRouted_refused (n : Nat) (wide : Bool) {j m : Nat} (hm : m ≠ 0) (hd : lmBad ((s.team x.team).lmGet m) = true) :
    s.opdRouted x j m n wide =
      .error (x.trap causeLaneMap (BitVec.ofNat 64 (((s.team x.team).lmGet m).toNat + 2 ^ 16 * m)) 0) := by
  unfold State.opdRouted
  simp only [beq_iff_eq, hm, hd, if_false, if_true]

theorem anyPoisoned_index (t : Team) (d : BitVec 16) (j : Nat) :
    AnyPoisoned t (if lmMode d = 4 then [indexRd d j] else []) ↔ d.extractLsb' 0 3 = 4 ∧ Bad t j (d.extractLsb' 6 6).toNat false := by
  have h4 : lmMode d = 4 ↔ d.extractLsb' 0 3 = 4 := BitVec.toNat_inj (y := (4 : BitVec 3))
  rw [← h4]
  split
  · next h =>
    rw [anyPoisoned_singleton, indexRd, poisoned_v t (lmParam_lt d)]
    exact ⟨fun hp => ⟨h, .inl hp⟩, fun hp => hp.2.resolve_right fun hw => Bool.false_ne_true hw.1⟩
  · next h => simp [not_anyPoisoned_nil, h]

end

/-! ### Operands that span lanes -/

theorem upto_eq_map_range (lo n : Nat) : upto lo n = (List.range n).map (lo + ·) := by
  induction n generalizing lo with
  | zero => rfl
  | succ n ih => rw [upto, ih, List.range_succ_eq_map, List.map_cons, List.map_map]; simp [Function.comp_def, Nat.add_assoc, Nat.add_comm 1]

/-- The threads at lanes lo and up of a thread's gang, k of them, where they are in the group. -/
def lanesFrom (x : Ctx) (t : Team) (j lo k : Nat) : List (Option Nat) := (upto lo k).map (fun m => x.present t (t.gangOf j) m)

theorem mem_lanesFrom {x : Ctx} {t : Team} {j lo k b : Nat} :
    b ∈ (lanesFrom x t j lo k).filterMap id ↔ ∃ c, c < k ∧ inGroup t x j (lo + c) = true ∧ atLane t j (lo + c) = b := by
  have hp : ∀ l, x.present t (t.gangOf j) l = if inGroup t x j l = true then some (atLane t j l) else none := fun _ => rfl
  rw [lanesFrom, upto_eq_map_range, List.map_map]
  constructor
  · intro h
    obtain ⟨p, hmem, hsome⟩ := List.mem_filterMap.1 h
    obtain ⟨c, hc, rfl⟩ := List.mem_map.1 hmem
    rw [Function.comp_apply, hp] at hsome
    split at hsome
    · next hin => exact ⟨c, List.mem_range.1 hc, hin, Option.some.inj hsome⟩
    · cases hsome
  · rintro ⟨c, hc, hin, rfl⟩
    refine List.mem_filterMap.2 ⟨_, List.mem_map.2 ⟨c, List.mem_range.2 hc, rfl⟩, ?_⟩
    rw [Function.comp_apply, hp, if_pos hin]
    rfl

/-- The values of the lanes that are present. -/
theorem lanesFrom_vals {x : Ctx} {t : Team} {j lo k : Nat} {f : Nat → DWord} {g : Thread → DWord}
    (h : ∀ b ∈ (lanesFrom x t j lo k).filterMap id, f b = g (t.thread b)) :
    (lanesFrom x t j lo k).map (fun p => p.map f) = laneValues t x j lo k g := by
  unfold laneValues
  rw [lanesFrom, upto_eq_map_range, List.map_map, List.map_map]
  refine List.map_congr_left fun c hc => ?_
  show Option.map f (if inGroup t x j (lo + c) = true then some (atLane t j (lo + c)) else none) = _
  split
  · next hin => exact congrArg some (h _ (mem_lanesFrom.2 ⟨c, List.mem_range.1 hc, hin, rfl⟩))
  · rfl

/-- The lanes that are present consume a poisoned register where one of them does. -/
theorem anyPoisoned_lanes {x : Ctx} {t : Team} {j lo k : Nat} {rds : Nat → List Rd} {P : Nat → Prop}
    (h : ∀ b, AnyPoisoned t (rds b) ↔ P b) :
    AnyPoisoned t (((lanesFrom x t j lo k).filterMap id).flatMap rds) ↔
      ∃ c, c < k ∧ inGroup t x j (lo + c) = true ∧ P (atLane t j (lo + c)) := by
  constructor
  · rintro ⟨r, hr, hp⟩
    obtain ⟨b, hb, hr⟩ := List.mem_flatMap.1 hr
    obtain ⟨c, hc, hin, rfl⟩ := mem_lanesFrom.1 hb
    exact ⟨c, hc, hin, (h _).1 ⟨r, hr, hp⟩⟩
  · rintro ⟨c, hc, hin, hp⟩
    obtain ⟨r, hr, hp⟩ := (h _).2 hp
    exact ⟨r, List.mem_flatMap.2 ⟨_, mem_lanesFrom.2 ⟨c, hc, hin, rfl⟩, hr⟩, hp⟩

/-! ### Every operand -/

/-- What reading an operand may answer: the trap of a refused one, or its value, with what it consumes. -/
def Answers (s : State) (x : Ctx) (j : Nat) (o : Opd) : Except TrapInfo OpdVal → Prop
  | .error e => operandRefused (s.team x.team) x j o e
  | .ok a => (∀ e, ¬operandRefused (s.team x.team) x j o e) ∧ a.vals = operandValue (s.team x.team) x j o ∧
      (AnyPoisoned (s.team x.team) (a.rds ++ a.late) ↔ Consumes (s.team x.team) x j o)

/-- Every register that a thread's operand reads is readable, and its index register where it is the window's (R80). -/
def OpdReadable (s : State) (x : Ctx) (j : Nat) (o : Opd) : Prop :=
  (∀ a, s.opd x j o = .ok a → AllReadable s x (a.rds ++ a.late)) ∧
    ∀ i, o = .win i → (s.team x.team).short x { owner := j, slot := iSlot i, early := 0 } = 0

section
variable {s : State} {x : Ctx} {j : Nat}

theorem AllReadable.left {rs qs : List Rd} (h : AllReadable s x (rs ++ qs)) : AllReadable s x rs := fun r hr => h r (List.mem_append_left _ hr)
theorem AllReadable.right {rs qs : List Rd} (h : AllReadable s x (rs ++ qs)) : AllReadable s x qs := fun r hr => h r (List.mem_append_right _ hr)

/-- A read of own registers gives their value and consumes them. -/
theorem opdOwn_answers {o : Opd} {n : Nat} {wide : Bool} (hn : n + (if wide then 1 else 0) < 64)
    (hr : AllReadable s x (s.opdOwn x j n 0 wide).rds) (hno : ∀ e, ¬operandRefused (s.team x.team) x j o e)
    (hv : operandValue (s.team x.team) x j o = [some (ownValue (s.team x.team) j n wide)])
    (hc : Consumes (s.team x.team) x j o ↔ Bad (s.team x.team) j n wide) : Answers s x j o (.ok (s.opdOwn x j n 0 wide)) := by
  refine ⟨hno, (opdOwn_vals hn hr).trans hv.symm, ?_⟩
  rw [opdOwn_late, List.append_nil, opdOwn_poisoned hn, hc]

/-- A read of a quad lane gives the lane's value or the reader's own, and consumes the lane's (R453). -/
theorem opdFrom_answers {o : Opd} {l n : Nat} (hn : n < 64)
    (hr : AllReadable s x (s.opdFrom x j ((s.team x.team).gangOf j) l n 1 false true).rds)
    (hno : ∀ e, ¬operandRefused (s.team x.team) x j o e)
    (hv : operandValue (s.team x.team) x j o = [some (laneValue (s.team x.team) x j l n false true)])
    (hc : Consumes (s.team x.team) x j o ↔ inGroup (s.team x.team) x j l = true ∧ Bad (s.team x.team) (atLane (s.team x.team) j l) n false) :
    Answers s x j o (.ok (s.opdFrom x j ((s.team x.team).gangOf j) l n 1 false true)) := by
  refine ⟨hno, (opdFrom_vals hn hr).trans hv.symm, ?_⟩
  rw [opdFrom_late, List.append_nil, opdFrom_poisoned hn, hc]

/-- A routed read answers LANE_MAP for a descriptor that R128 refuses, and else the value of its lane or the fill (R42, R129, R130). -/
theorem opdRouted_answers {o : Opd} {m n : Nat} {wide : Bool} (ht : Shaped (s.team x.team)) (hn : n + (if wide then 1 else 0) < 64)
    (hr : ∀ a, s.opdRouted x j m n wide = .ok a → AllReadable s x (a.rds ++ a.late))
    (hno : ∀ e, operandRefused (s.team x.team) x j o e ↔ m ≠ 0 ∧ badRoute ((s.team x.team).lmGet m) ∧
      e = { cause := causeLaneMap, info0 := BitVec.ofNat 64 (((s.team x.team).lmGet m).toNat + 2 ^ 16 * m), info1 := 0, pc := x.pc })
    (hv : operandValue (s.team x.team) x j o = [some (routedValue (s.team x.team) x j m n wide)])
    (hc : Consumes (s.team x.team) x j o ↔ BadRoute (s.team x.team) x j m n wide) : Answers s x j o (s.opdRouted x j m n wide) := by
  by_cases hm : m = 0
  · subst hm
    exact opdOwn_answers hn (AllReadable.left (hr _ rfl)) (fun e he => ((hno e).1 he).1 rfl) hv hc
  · cases hd : lmBad ((s.team x.team).lmGet m) with
    | true =>
      rw [opdRouted_refused n wide hm hd]
      exact (hno _).2 ⟨hm, (lmBad_iff _).1 hd, rfl⟩
    | false =>
      obtain ⟨a, ha, hlate⟩ := opdRouted_late (s := s) (x := x) (j := j) n wide hm hd
      have hidx := AllReadable.right (hr a ha)
      rw [hlate] at hidx
      obtain ⟨early, hok⟩ := opdRouted_ok (s := s) (x := x) (j := j) n wide ht hm hd (fun h4 => by
        rw [if_pos h4] at hidx
        exact hidx _ (List.mem_singleton_self _))
      have hrds := AllReadable.left (hr _ hok)
      rw [hok]
      refine ⟨fun e he => ?_, ?_, ?_⟩
      · exact Bool.false_ne_true (hd.symm.trans ((lmBad_iff _).2 ((hno e).1 he).2.1))
      · rw [hv, routedValue, if_neg hm]
        exact opdFrom_vals hn hrds
      · rw [hc, BadRoute, if_neg hm, anyPoisoned_append, opdFrom_poisoned hn, anyPoisoned_index]

/-- An operand that spans lanes gives the values of those that are present, and consumes theirs (R85, R107, R111, R454). -/
theorem lanes_answers {o : Opd} {lo k : Nat} {rds : Nat → List Rd} {f : Nat → DWord} {g : Thread → DWord} {P : Nat → Prop}
    (hr : AllReadable s x (((lanesFrom x (s.team x.team) j lo k).filterMap id).flatMap rds))
    (hf : ∀ b, AllReadable s x (rds b) → f b = g ((s.team x.team).thread b))
    (hp : ∀ b, AnyPoisoned (s.team x.team) (rds b) ↔ P b) (hno : ∀ e, ¬operandRefused (s.team x.team) x j o e)
    (hv : operandValue (s.team x.team) x j o = laneValues (s.team x.team) x j lo k g)
    (hc : Consumes (s.team x.team) x j o ↔
      ∃ c, c < k ∧ inGroup (s.team x.team) x j (lo + c) = true ∧ P (atLane (s.team x.team) j (lo + c))) :
    Answers s x j o (.ok { rds := ((lanesFrom x (s.team x.team) j lo k).filterMap id).flatMap rds, late := [],
                           vals := (lanesFrom x (s.team x.team) j lo k).map (fun p => p.map f) }) := by
  refine ⟨hno, ?_, ?_⟩
  · rw [hv]
    exact lanesFrom_vals fun b hb => hf b fun r hr' => hr r (List.mem_flatMap.2 ⟨b, hb, hr'⟩)
  · rw [List.append_nil, anyPoisoned_lanes hp, hc]

/-- Lanes of v[n]. -/
theorem lanes_v_answers {o : Opd} {lo k n : Nat} (hn : n < 64)
    (hr : AllReadable s x (((lanesFrom x (s.team x.team) j lo k).filterMap id).map (fun b => { owner := b, slot := n, early := 1 })))
    (hno : ∀ e, ¬operandRefused (s.team x.team) x j o e)
    (hv : operandValue (s.team x.team) x j o = laneValues (s.team x.team) x j lo k (fun z => zx (z.vget n)))
    (hc : Consumes (s.team x.team) x j o ↔ ∃ c, c < k ∧ inGroup (s.team x.team) x j (lo + c) = true ∧
      n ∈ ((s.team x.team).thread (atLane (s.team x.team) j (lo + c))).bad) :
    Answers s x j o (.ok { rds := ((lanesFrom x (s.team x.team) j lo k).filterMap id).map (fun b => { owner := b, slot := n, early := 1 })
                           late := []
                           vals := (lanesFrom x (s.team x.team) j lo k).map (fun p => p.map (fun b =>
                             (s.rd x { owner := b, slot := n, early := 1 }).zeroExtend 64)) }) := by
  rw [List.map_eq_flatMap] at hr ⊢
  refine lanes_answers (P := fun b => n ∈ ((s.team x.team).thread b).bad) hr (fun b hb => ?_) (fun b => ?_) hno hv hc
  · rw [rd_v hn (hb _ (List.mem_singleton_self _))]; rfl
  · rw [anyPoisoned_singleton, poisoned_v _ hn]

/-- The reads of lanes of p[n] are a cycle early (R124). -/
theorem anyPoisoned_predRd_early (t : Team) {b n : Nat} (hn : n < 8) :
    AnyPoisoned t ((predRd b n).map (fun r => { r with early := 1 })) ↔ n ≠ 0 ∧ 64 ∈ (t.thread b).bad := by
  rw [← anyPoisoned_predRd t hn]
  constructor
  · rintro ⟨r, hr, hp⟩
    obtain ⟨q, hq, rfl⟩ := List.mem_map.1 hr
    exact ⟨q, hq, hp⟩
  · rintro ⟨r, hr, hp⟩
    exact ⟨_, List.mem_map_of_mem hr, hp⟩

theorem gangP_value {b n : Nat} (hn : n < 8) (h : AllReadable s x ((predRd b n).map (fun r => { r with early := 1 }))) :
    (n == 0 || (s.rd x { owner := b, slot := pSlot n, early := 1 }).getLsbD n) = ((s.team x.team).thread b).pget n := by
  unfold Thread.pget
  by_cases h0 : n = 0
  · simp [h0]
  · rw [rd_p hn (h _ (by simp [predRd, h0]))]

/-- s[n] of the thread's gang; s0 is no register (R55). -/
theorem sOpd_answers {n : Nat} (hn : n < 32) (hr : OpdReadable s x j (.s n)) : Answers s x j (.s n) (s.opd x j (.s n)) := by
  have hr := AllReadable.left (hr.1 _ rfl)
  by_cases h0 : n = 0
  · subst h0
    refine ⟨fun _ h => h, ?_, ?_⟩
    · exact congrArg (fun a => [some a]) (rdS_eq (.inl rfl))
    · exact ⟨fun h => absurd h (not_anyPoisoned_nil _), nofun⟩
  · simp only [State.opd, beq_iff_eq, h0, if_false] at hr ⊢
    refine ⟨fun _ h => h, ?_, ?_⟩
    · exact congrArg (fun a => [some a]) (rdS_eq (.inr (hr _ (List.mem_singleton_self _))))
    · rw [List.append_nil, anyPoisoned_singleton, poisoned_s _ hn]; rfl

/-- The window register that i[j] selects; an index at or past the window's end is refused (R80). -/
theorem winOpd_answers {i : Nat} (ht : Shaped (s.team x.team)) (hr : OpdReadable s x j (.win i)) :
    Answers s x j (.win i) (s.opd x j (.win i)) := by
  obtain ⟨hread, hwin⟩ := hr
  obtain ⟨-, hw⟩ := ht
  have hix : ((s.rd x { owner := j, slot := iSlot i, early := 0 }).extractLsb' (8 * i) 8).toNat = (((s.team x.team).thread j).iget i).toNat := by
    rw [rd_ix (hwin i rfl)]; rfl
  by_cases hb : (s.team x.team).wlen ≤ (((s.team x.team).thread j).iget i).toNat
  · simp only [State.opd, hix, hb, if_true]
    exact ⟨hb, by rw [Ctx.trap, BitVec.ofNat_toNat]⟩
  · simp only [State.opd, hix, hb, if_false] at hread ⊢
    exact opdOwn_answers (by simp; omega) (AllReadable.left (hread _ rfl)) (fun e he => hb he.1) rfl (by simp [Consumes, Bad])

theorem zeroExtend_byte (b : BitVec 8) : (b.zeroExtend 32).zeroExtend 64 = b.zeroExtend 64 := by
  apply BitVec.eq_of_toNat_eq
  simp only [BitVec.toNat_setWidth]
  omega

/-- An operand of a thread, whatever its kind: it is refused, or it gives its value and consumes what R85 says. -/
theorem opd_answers {o : Opd} (ht : Shaped (s.team x.team)) (hn : Named o) (hr : OpdReadable s x j o) : Answers s x j o (s.opd x j o) := by
  have hread := hr.1
  have hquad : (s.team x.team).laneOf j - (s.team x.team).laneOf j % 4 = 4 * (j % (s.team x.team).w / 4) := by
    unfold Team.laneOf; omega
  have hblock : (s.team x.team).laneOf j - (s.team x.team).laneOf j % 8 = 8 * (j % (s.team x.team).w / 8) := by
    unfold Team.laneOf; omega
  cases o with
  | v n => exact opdOwn_answers hn (AllReadable.left (hread _ rfl)) (fun _ h => h) rfl Iff.rfl
  | v64 n =>
    have hn' : n < 63 := hn
    exact opdOwn_answers (by simp; omega) (AllReadable.left (hread _ rfl)) (fun _ h => h) rfl Iff.rfl
  | rv m n => exact opdRouted_answers ht hn hread (fun _ => Iff.rfl) rfl Iff.rfl
  | rv64 m n =>
    have hn' : n < 63 := hn
    exact opdRouted_answers ht (by simp; omega) hread (fun _ => Iff.rfl) rfl Iff.rfl
  | quadX k n =>
    obtain ⟨hk, hn⟩ := hn
    have hlane : ((s.team x.team).laneOf j % 4 ^^^ k) % 4 = j % (s.team x.team).w % 4 ^^^ k :=
      Nat.mod_eq_of_lt (xor_lt_width (.inl rfl) (Nat.mod_lt _ (by omega)) hk)
    have hr := AllReadable.left (hread _ rfl)
    simp only [State.opd, hquad, hlane] at hr ⊢
    exact opdFrom_answers hn hr (fun _ h => h) rfl (by simp [Consumes, Bad])
  | quadB k n =>
    obtain ⟨hk, hn⟩ := hn
    have hr := AllReadable.left (hread _ rfl)
    simp only [State.opd, hquad, Nat.mod_eq_of_lt hk] at hr ⊢
    exact opdFrom_answers hn hr (fun _ h => h) rfl (by simp [Consumes, Bad])
  | p n =>
    have hr := AllReadable.left (hread _ rfl)
    refine ⟨fun _ h => h, ?_, ?_⟩
    · show [some (if s.rdP x j n = true then (1 : DWord) else 0)] = _
      rw [rdP_eq hn hr]; rfl
    · rw [List.append_nil]
      exact anyPoisoned_predRd _ hn
  | ix i =>
    have hr := AllReadable.left (hread _ rfl) _ (List.mem_singleton_self _)
    refine ⟨fun _ h => h, ?_, ?_⟩
    · show [w64 (((s.rd x _).extractLsb' (8 * i) 8).zeroExtend 32)] = _
      rw [rd_ix hr, w64, zeroExtend_byte]; rfl
    · rw [List.append_nil, anyPoisoned_singleton, poisoned_ix]; rfl
  | win i => exact winOpd_answers ht hr
  | s n => exact sOpd_answers hn hr
  | block lo k n =>
    have hr := AllReadable.left (hread _ rfl)
    simp only [State.opd, hblock] at hr ⊢
    exact lanes_v_answers hn hr (fun _ h => h) rfl Iff.rfl
  | gangV n => exact lanes_v_answers hn (AllReadable.left (hread _ rfl)) (fun _ h => h) rfl (by simp [Consumes])
  | gangP n =>
    refine lanes_answers (P := fun b => n ≠ 0 ∧ 64 ∈ ((s.team x.team).thread b).bad) (g := fun z => if z.pget n then 1 else 0)
      (AllReadable.left (hread _ rfl)) (fun b hb => ?_) (fun b => anyPoisoned_predRd_early _ hn) (fun _ h => h) rfl ?_
    · rw [gangP_value hn hb]
    · simp only [Consumes, Nat.zero_add]
      constructor
      · rintro ⟨h0, c, hc, hin, hb⟩
        exact ⟨c, hc, hin, h0, hb⟩
      · rintro ⟨c, hc, hin, h0, hb⟩
        exact ⟨h0, c, hc, hin, hb⟩

/-! ### An instruction's operands -/

/-- A thread's operands are consumed where the first is read and consumes no poisoned word, and so the rest (R85). -/
theorem consume_cons_eq_ok_iff {o : Opd} {os : List Opd} {vs : List (List (Option DWord))} : s.consume x j (o :: os) = .ok vs ↔
    ∃ a ws, s.opd x j o = .ok a ∧ (s.team x.team).consumed (a.rds ++ a.late) = none ∧ s.consume x j os = .ok ws ∧ vs = a.vals :: ws := by
  rw [State.consume]
  constructor
  · intro h
    split at h
    · cases h
    · next a ha =>
      split at h
      · cases h
      · next hc =>
        split at h
        · cases h
        · next ws hws => cases h; exact ⟨a, ws, ha, hc, hws, rfl⟩
  · rintro ⟨a, ws, ha, hc, hws, rfl⟩
    simp only [ha, hc, hws]

/-- Parting a list by a test leaves every element of it in one of the parts. -/
theorem mem_parted {α : Type} {l : List α} {p : α → Bool} {a : α} (h : a ∈ l) : a ∈ l.filter (fun b => !p b) ++ l.filter p := by
  rw [List.mem_append, List.mem_filter, List.mem_filter]
  cases hp : p a
  · exact .inl ⟨h, rfl⟩
  · exact .inr ⟨h, rfl⟩

/-- The reads of an operand are among those that R127 compares. -/
theorem mem_readsOf {os : List Opd} {o : Opd} {a : OpdVal} {r : Rd} (ho : o ∈ os) (ha : s.opd x j o = .ok a) (hr : r ∈ a.rds ++ a.late) :
    r ∈ s.readsOf x j os := by
  unfold State.readsOf
  refine mem_parted ?_
  rcases List.mem_append.1 hr with hr | hr
  · exact List.mem_append_left _ (List.mem_flatMap.2 ⟨a, List.mem_filterMap.2 ⟨o, ho, by rw [ha]⟩, hr⟩)
  · exact List.mem_append_right _ (List.mem_flatMap.2 ⟨a, List.mem_filterMap.2 ⟨o, ho, by rw [ha]⟩, hr⟩)

/-- Every read of the operands of a thread that an instruction runs in is readable: R127 compares them all. -/
theorem Runs.allReadable {g : Option Nat} {os : List Opd} {vs : List (List (Option DWord))} (h : Runs s x j g os vs) {o : Opd} {a : OpdVal}
    (ho : o ∈ os) (ha : s.opd x j o = .ok a) : AllReadable s x (a.rds ++ a.late) := by
  obtain ⟨⟨-, hearly, -⟩, hj, hon, -⟩ := h
  intro r hr
  refine State.short_of_not_early hearly hj (List.mem_append_right _ ?_)
  rw [hon]
  exact mem_readsOf ho ha hr

/-- The operands that an instruction names are readable in a thread that it runs in, where it names a window's index register too (R80). -/
theorem Runs.opdReadable {g : Option Nat} {os : List Opd} {vs : List (List (Option DWord))} (h : Runs s x j g os vs)
    (hwin : ∀ i, .win i ∈ os → .ix i ∈ os) {o : Opd} (ho : o ∈ os) : OpdReadable s x j o := by
  refine ⟨fun a ha => Runs.allReadable h ho ha, fun i hi => ?_⟩
  subst hi
  exact Runs.allReadable h (hwin i ho) (o := .ix i) rfl _ (List.mem_singleton_self _)

/-- The values of operands that are all readable. -/
theorem consume_vals {os : List Opd} {vs : List (List (Option DWord))} (ht : Shaped (s.team x.team)) (hn : ∀ o ∈ os, Named o)
    (hr : ∀ o ∈ os, OpdReadable s x j o) (h : s.consume x j os = .ok vs) : vs = os.map (operandValue (s.team x.team) x j) := by
  induction os generalizing vs with
  | nil => exact (Except.ok.inj h).symm
  | cons o os ih =>
    obtain ⟨a, ws, ha, -, hws, rfl⟩ := consume_cons_eq_ok_iff.1 h
    have hans := opd_answers ht (hn o List.mem_cons_self) (hr o List.mem_cons_self)
    rw [ha] at hans
    obtain ⟨-, hvals, -⟩ := hans
    rw [List.map_cons, hvals, ih (fun o ho => hn o (List.mem_cons_of_mem _ ho)) (fun o ho => hr o (List.mem_cons_of_mem _ ho)) hws]

/-- A readable operand is read, and consumes no poisoned word, exactly where R80, R85 and R128 let it. -/
theorem opd_read_iff {o : Opd} (ht : Shaped (s.team x.team)) (hn : Named o) (hr : OpdReadable s x j o) :
    (∃ a, s.opd x j o = .ok a ∧ (s.team x.team).consumed (a.rds ++ a.late) = none) ↔
      (∀ e, ¬operandRefused (s.team x.team) x j o e) ∧ ¬Consumes (s.team x.team) x j o := by
  have hans := opd_answers ht hn hr
  cases ha : s.opd x j o with
  | error e =>
    rw [ha] at hans
    exact ⟨nofun, fun h => absurd hans (h.1 e)⟩
  | ok a =>
    rw [ha] at hans
    obtain ⟨hno, -, hc⟩ := hans
    rw [← hc, ← consumed_eq_none_iff]
    constructor
    · rintro ⟨b, hb, hnone⟩
      cases hb
      exact ⟨hno, hnone⟩
    · rintro ⟨-, hnone⟩
      exact ⟨a, rfl, hnone⟩

theorem exists_consume_iff {os : List Opd} : (∃ vs, s.consume x j os = .ok vs) ↔
    ∀ o ∈ os, ∃ a, s.opd x j o = .ok a ∧ (s.team x.team).consumed (a.rds ++ a.late) = none := by
  induction os with
  | nil => exact ⟨nofun, fun _ => ⟨[], rfl⟩⟩
  | cons o os ih =>
    rw [List.forall_mem_cons, ← ih]
    constructor
    · rintro ⟨vs, h⟩
      obtain ⟨a, ws, ha, hc, hws, -⟩ := consume_cons_eq_ok_iff.1 h
      exact ⟨⟨a, ha, hc⟩, ws, hws⟩
    · rintro ⟨⟨a, ha, hc⟩, ws, hws⟩
      exact ⟨_, consume_cons_eq_ok_iff.2 ⟨a, ws, ha, hc, hws, rfl⟩⟩

/-- An operand is refused by one trap. -/
theorem operandRefused_unique {t : Team} {o : Opd} {e e' : TrapInfo} (h : operandRefused t x j o e) (h' : operandRefused t x j o e') : e = e' := by
  cases o with
  | rv m n | rv64 m n =>
    obtain ⟨-, -, rfl⟩ := h
    obtain ⟨-, -, rfl⟩ := h'
    rfl
  | win i =>
    obtain ⟨-, rfl⟩ := h
    obtain ⟨-, rfl⟩ := h'
    rfl
  | _ => exact h.elim

/-- A refused operand takes its trap (R80, R128). -/
theorem consume_refused {o : Opd} {e : TrapInfo} (ht : Shaped (s.team x.team)) (hn : Named o) (hr : OpdReadable s x j o)
    (h : operandRefused (s.team x.team) x j o e) : s.consume x j [o] = .error e := by
  have hans := opd_answers ht hn hr
  rw [State.consume]
  cases ha : s.opd x j o with
  | ok a => rw [ha] at hans; exact absurd h (hans.1 e)
  | error e' => rw [ha] at hans; rw [operandRefused_unique hans h]

end

/-- Settles O15: operand by operand, from the law of what each answers. -/
theorem operandValues : Obligations.OperandValues := by
  unfold Obligations.OperandValues
  refine ⟨fun s x j g os vs h ht hn hwin => ?_, fun s x j os ht hshort hn => ?_⟩
  · have ⟨_, _, _, hvals⟩ := h
    exact consume_vals ht hn (fun o ho => Runs.opdReadable h hwin ho) hvals
  · have hr : ∀ o, OpdReadable s x j o := fun o => ⟨fun _ _ r _ => hshort r, fun _ _ => hshort _⟩
    refine ⟨?_, fun o e ho h => ?_⟩
    · rw [exists_consume_iff]
      have hread := fun o ho => opd_read_iff ht (hn o ho) (hr o)
      exact ⟨fun h o ho => (hread o ho).1 (h o ho), fun h o ho => (hread o ho).2 (h o ho)⟩
    · subst ho
      exact consume_refused ht (hn o (List.mem_singleton_self _)) (hr o) h

end Sys2Proof.Proofs
end

section
/-! SUPPORT. Results as they are written (R45, R62, R126, R384): what a table reads after a function of its values, what the passing of
cycles leaves of a team, and what a result leaves in its registers. -/

namespace Sys2Proof.Proofs

open Sys2Proof Sys2Proof.Machine Sys2Proof.Claims

/-! ### The passing of cycles -/

theorem Tab.find?_mapVal {α β : Type} (f : Nat → α → β) (t : Tab α) (k : Nat) : (t.mapVal f).find? k = (t.find? k).map (f k) := by
  induction t with
  | nil => rfl
  | cons c r ih =>
    obtain ⟨j, a⟩ := c
    show Tab.find? ((j, f j a) :: Tab.mapVal f r) k = _
    simp only [Tab.find?, ih]
    split
    · next h => rw [beq_iff_eq.1 h]; rfl
    · split <;> rfl

/-- A team whose fields beside its threads' watch counters and its entries' idle cycles are as they were: what cycles leave. -/
def TimeKeeps (T U : Team) : Prop := { U with threads := T.threads, spill := T.spill } = T

theorem watchTime_team (s : State) (c n k : Nat) : TimeKeeps (s.team k) ((s.watchTime c n).team k) := by
  unfold State.team State.watchTime Tab.get
  rw [Tab.find?_mapVal]
  cases s.teams.find? k with
  | none => rfl
  | some t => simp only [Option.map_some, Option.getD_some]; split <;> rfl

theorem idleTime_team (s : State) (c n k : Nat) : TimeKeeps (s.team k) ((s.idleTime c n).team k) := by
  unfold State.idleTime
  split
  · rfl
  · unfold State.team Tab.get
    simp only [Tab.find?_mapVal]
    cases s.teams.find? k with
    | none => rfl
    | some t => simp only [Option.map_some, Option.getD_some]; split <;> rfl

theorem timeKeeps_trans {T U V : Team} (h : TimeKeeps T U) (h' : TimeKeeps U V) : TimeKeeps T V := by
  unfold TimeKeeps at *
  rw [← h, ← h']

theorem tickTo_team (s : State) (c n k : Nat) : TimeKeeps (s.team k) ((s.tickTo c n).team k) :=
  timeKeeps_trans (watchTime_team s c _ k) (idleTime_team _ c _ k)

theorem idleTime_core (s : State) (c n : Nat) : ∃ l, (s.idleTime c n).core c = { s.core c with table := l } := by
  unfold State.idleTime
  split
  · exact ⟨_, rfl⟩
  · exact ⟨_, State.core_setCore s c _⟩

/-- A core's clock goes on to a cycle, and never back. -/
theorem tickTo_cc (s : State) (c n : Nat) : ((s.tickTo c n).core c).cc = max n (s.core c).cc := by
  obtain ⟨l, hl⟩ := idleTime_core (s.watchTime c (n - (s.core c).cc)) c (n - (s.core c).cc)
  refine (congrArg Core.cc (Tab.get_set_self Core.empty _ c _)).trans ?_
  show max n ((State.idleTime _ c _).core c).cc = _
  rw [hl]
  rfl

/-- A core's clock changes the teams, the cores and the wall time alone. -/
theorem tickTo_outside (s : State) (c n : Nat) : { s.tickTo c n with teams := s.teams, cores := s.cores, part := s.part } = s := by
  unfold State.tickTo State.elapse State.idleTime State.watchTime
  dsimp only
  split <;> rfl

/-! ### What a result leaves in its registers -/

/-- A result's word written to a slot of its thread. -/
def writeWord (t : Team) (v : Nat × Nat × Word) : Team := t.setThread v.1 ((t.thread v.1).slotSet v.2.1 v.2.2)
/-- A result's value written to an s register of its gang. -/
def writeS (t : Team) (v : Nat × Nat × DWord) : Team := t.sset v.1 v.2.1 v.2.2

/-- The registers of a team with a result in them. -/
def written (t : Team) (r : Result) : Team := r.ss.foldl writeS (r.vs.foldl writeWord t)

theorem applyResult_eq (t : Team) (r : Result) : t.applyResult r =
    { written t r with fflags := (written t r).fflags ||| r.flags, marks := (written t r).marks.filter (fun m => !r.writes m) } := rfl

theorem vget_slotSet_self (y : Thread) {n : Nat} (a : Word) (h : n < 64) : (y.slotSet n a).vget n = a := by
  unfold Thread.slotSet
  rw [if_pos h, Thread.vget_vset]

theorem vget_slotSet_ne (y : Thread) {n m : Nat} (a : Word) (h : n ≠ m) : (y.slotSet m a).vget n = y.vget n := by
  unfold Thread.slotSet
  split
  · exact Thread.vget_vset_ne y a h
  · split <;> rfl

theorem foldl_writeWord_keeps (t : Team) (vs : List (Nat × Nat × Word)) : { vs.foldl writeWord t with threads := t.threads } = t := by
  induction vs generalizing t with
  | nil => rfl
  | cons v vs ih =>
    have h := congrArg (fun u : Team => { u with threads := t.threads }) (ih (writeWord t v))
    exact h

theorem foldl_writeWord_vget_ne {j n : Nat} (t : Team) (vs : List (Nat × Nat × Word)) (h : ∀ v ∈ vs, j ≠ v.1 ∨ n ≠ v.2.1) :
    ((vs.foldl writeWord t).thread j).vget n = (t.thread j).vget n := by
  induction vs generalizing t with
  | nil => rfl
  | cons v vs ih =>
    rw [List.foldl_cons, ih _ fun w hw => h w (List.mem_cons_of_mem _ hw)]
    unfold writeWord
    by_cases hj : j = v.1
    · subst hj
      rw [Team.thread_setThread]
      exact vget_slotSet_ne _ _ ((h v List.mem_cons_self).resolve_left (fun e => e rfl))
    · rw [Team.thread_setThread_ne _ _ hj]

/-- Words for different registers are all there after they are written. -/
theorem foldl_writeWord_vget (t : Team) {vs : List (Nat × Nat × Word)} (hd : vs.Pairwise (fun a b => a.1 ≠ b.1 ∨ a.2.1 ≠ b.2.1)) :
    ∀ v ∈ vs, v.2.1 < 64 → ((vs.foldl writeWord t).thread v.1).vget v.2.1 = v.2.2 := by
  induction vs generalizing t with
  | nil => nofun
  | cons w vs ih =>
    obtain ⟨hw, hd⟩ := List.pairwise_cons.1 hd
    intro v hv hn
    rcases List.mem_cons.1 hv with rfl | hv
    · rw [List.foldl_cons, foldl_writeWord_vget_ne _ vs hw]
      unfold writeWord
      rw [Team.thread_setThread, vget_slotSet_self _ _ hn]
    · exact ih (writeWord t w) hd v hv hn

theorem foldl_writeS_keeps (t : Team) (ss : List (Nat × Nat × DWord)) : { ss.foldl writeS t with s := t.s, sbad := t.sbad } = t := by
  induction ss generalizing t with
  | nil => rfl
  | cons v ss ih =>
    have h := congrArg (fun u : Team => { u with s := t.s, sbad := t.sbad }) (ih (writeS t v))
    refine h.trans ?_
    unfold writeS Team.sset
    split <;> rfl

/-- s[n] after a write of another s register. -/
theorem sget_sset_ne (t : Team) {g n g' n' : Nat} (a : DWord) (hn : n < 32) (hn' : n' < 32) (h : g ≠ g' ∨ n ≠ n') :
    (t.sset g' n' a).sget g n = t.sget g n := by
  unfold Team.sget Team.sset
  by_cases h0 : n' = 0
  · simp [h0]
  · have hk : 32 * g + n ≠ 32 * g' + n' := by omega
    simp [h0, Tab.get_set_ne _ _ _ hk]

theorem foldl_writeS_sget_ne {g n : Nat} (t : Team) (ss : List (Nat × Nat × DWord)) (hn : n < 32) (hs : ∀ v ∈ ss, v.2.1 < 32)
    (h : ∀ v ∈ ss, g ≠ v.1 ∨ n ≠ v.2.1) : (ss.foldl writeS t).sget g n = t.sget g n := by
  induction ss generalizing t with
  | nil => rfl
  | cons v ss ih =>
    rw [List.foldl_cons, ih _ (fun w hw => hs w (List.mem_cons_of_mem _ hw)) fun w hw => h w (List.mem_cons_of_mem _ hw)]
    exact sget_sset_ne t _ hn (hs v List.mem_cons_self) (h v List.mem_cons_self)

/-- Values for different s registers are all there after they are written. -/
theorem foldl_writeS_sHolds (t : Team) {ss : List (Nat × Nat × DWord)} (hd : ss.Pairwise (fun a b => a.1 ≠ b.1 ∨ a.2.1 ≠ b.2.1))
    (hs : ∀ v ∈ ss, v.2.1 < 32) : ∀ v ∈ ss, SHolds (ss.foldl writeS t) v.1 v.2.1 v.2.2 := by
  induction ss generalizing t with
  | nil => nofun
  | cons w ss ih =>
    obtain ⟨hw, hd⟩ := List.pairwise_cons.1 hd
    have hs' := fun v hv => hs v (List.mem_cons_of_mem w hv)
    intro v hv
    rcases List.mem_cons.1 hv with rfl | hv
    · unfold SHolds
      rw [List.foldl_cons, foldl_writeS_sget_ne _ ss (hs v List.mem_cons_self) hs' hw]
      exact Team.sget_sset t _ _ _
    · exact ih (writeS t w) hd hs' v hv

theorem written_keeps (t : Team) (r : Result) : { written t r with threads := t.threads, s := t.s, sbad := t.sbad } = t := by
  have h := congrArg (fun u : Team => { u with threads := t.threads, s := t.s, sbad := t.sbad })
    (foldl_writeS_keeps (r.vs.foldl writeWord t) r.ss)
  have hw := congrArg (fun u : Team => { u with s := t.s, sbad := t.sbad }) (foldl_writeWord_keeps t r.vs)
  exact h.trans hw

theorem written_results (t : Team) (r : Result) : (written t r).results = t.results := by
  have h := congrArg Team.results (written_keeps t r)
  exact h

theorem written_fflags (t : Team) (r : Result) : (written t r).fflags = t.fflags := by
  have h := congrArg Team.fflags (written_keeps t r)
  exact h

theorem written_threads (t : Team) (r : Result) : (written t r).threads = (r.vs.foldl writeWord t).threads := by
  have h := congrArg Team.threads (foldl_writeS_keeps (r.vs.foldl writeWord t) r.ss)
  exact h

/-- A result written (R45, R62): its words and values are in their registers, no earlier write to them is under way, and its exceptions
are in FFLAGS. -/
theorem applyResult_spec (t : Team) (r : Result) (hv : r.vs.Pairwise (fun a b => a.1 ≠ b.1 ∨ a.2.1 ≠ b.2.1))
    (hs : r.ss.Pairwise (fun a b => a.1 ≠ b.1 ∨ a.2.1 ≠ b.2.1)) (hn : ∀ v ∈ r.ss, v.2.1 < 32) :
    (∀ m ∈ (t.applyResult r).marks, r.writes m = false) ∧ (t.applyResult r).results = t.results ∧
      (∀ v ∈ r.vs, v.2.1 < 64 → ((t.applyResult r).thread v.1).vget v.2.1 = v.2.2) ∧
      (∀ v ∈ r.ss, SHolds (t.applyResult r) v.1 v.2.1 v.2.2) ∧ (t.applyResult r).fflags = t.fflags ||| r.flags := by
  rw [applyResult_eq]
  refine ⟨fun m hm => ?_, written_results t r, fun v hm h => ?_, foldl_writeS_sHolds (r.vs.foldl writeWord t) hs hn, ?_⟩
  · simpa using (List.mem_filter.1 hm).2
  · rw [← foldl_writeWord_vget t hv v hm h]
    exact congrArg (fun l => (Tab.get Thread.empty l v.1).vget v.2.1) (written_threads t r)
  · rw [written_fflags]

/-! ### The oldest result -/

theorem pickResult_oldest (r : Result) (rest : List Result) : pickResult r.load 0 [] (r :: rest) = some (0, r) := by
  simp [pickResult]

/-- The step that brings a result of its kind writes a team's oldest: a load's by LOAD_REPLY (R384), another's by RESULT_WRITEBACK (R45). -/
theorem exec_result (s : State) (k : Nat) (r : Result) :
    exec (if r.load = true then .loadReply k else .resultWriteback k) s = .next (s.writeResult k r.load) := by
  cases h : r.load <;> rfl

/-- A team off its cores has its oldest result written at once. -/
theorem writeResult_offCore {s : State} {k : Nat} {r : Result} {rest : List Result} (h : (s.team k).results = r :: rest)
    (hc : (s.team k).onCore = none) :
    s.writeResult k r.load = s.updTeam k (fun t => { t with results := dropAt t.results 0 }.applyResult r) := by
  simp only [State.writeResult, h, pickResult_oldest, hc]

/-- On a core the clock first reaches the cycle before that from which the result's registers are available (R126). -/
theorem writeResult_onCore {s : State} {k c : Nat} {r : Result} {rest : List Result} (h : (s.team k).results = r :: rest)
    (hc : (s.team k).onCore = some c) :
    s.writeResult k r.load =
      (s.tickTo c ((s.team k).resultAt r - 1)).updTeam k (fun t => { t with results := dropAt t.results 0 }.applyResult r) := by
  simp only [State.writeResult, h, pickResult_oldest, hc]

theorem foldl_max_avail_le {b : Nat} (ms : List Mark) (a : Nat) :
    ms.foldl (fun n m => max n m.avail) a ≤ b ↔ a ≤ b ∧ ∀ m ∈ ms, m.avail ≤ b := by
  induction ms generalizing a with
  | nil => simp
  | cons m ms ih => simp only [List.foldl_cons, ih, Nat.max_le, List.forall_mem_cons, and_assoc]

/-- A result is available by a cycle exactly where every earlier write to its registers is (R126). -/
theorem resultAt_le_iff (t : Team) (r : Result) (n : Nat) :
    t.resultAt r ≤ n ↔ ∀ m ∈ t.marks, r.writes m = true → m.avail ≤ n := by
  simp [Team.resultAt, foldl_max_avail_le]

/-- What the write of the oldest result leaves of its team, wherever the time of its core has gone on to. -/
theorem updTeam_applyResult {s s' : State} {k : Nat} {r : Result} {rest : List Result} (h : (s.team k).results = r :: rest)
    (hk : TimeKeeps (s.team k) (s'.team k)) (hv : r.vs.Pairwise (fun a b => a.1 ≠ b.1 ∨ a.2.1 ≠ b.2.1))
    (hs : r.ss.Pairwise (fun a b => a.1 ≠ b.1 ∨ a.2.1 ≠ b.2.1)) (hn : ∀ v ∈ r.ss, v.2.1 < 32) :
    let U := (s'.updTeam k (fun t => { t with results := dropAt t.results 0 }.applyResult r)).team k
    (∀ m ∈ U.marks, r.writes m = false) ∧ U.results = rest ∧ (∀ v ∈ r.vs, v.2.1 < 64 → (U.thread v.1).vget v.2.1 = v.2.2) ∧
      (∀ v ∈ r.ss, SHolds U v.1 v.2.1 v.2.2) ∧ U.fflags = (s.team k).fflags ||| r.flags := by
  have hres : (s'.team k).results = r :: rest := (congrArg Team.results hk : _).trans h
  have hfl : (s'.team k).fflags = (s.team k).fflags := (congrArg Team.fflags hk : _)
  intro U
  have hU : U = { s'.team k with results := rest }.applyResult r := by
    simp only [U, State.team_updTeam, hres, dropAt]
  obtain ⟨hmarks, hrest, hwords, hvals, hflags⟩ := applyResult_spec { s'.team k with results := rest } r hv hs hn
  rw [hU]
  exact ⟨hmarks, hrest, hwords, hvals, hflags.trans (by rw [← hfl])⟩

/-- Settles O39: the oldest result is the one that its step writes, at the cycle from which its registers are free (R126). -/
theorem resultsAreWritten : Obligations.ResultsAreWritten := by
  unfold Obligations.ResultsAreWritten
  intro s k r rest h hv hs hn
  refine ⟨_, exec_result s k r, ?_⟩
  cases hc : (s.team k).onCore with
  | none =>
    rw [writeResult_offCore h hc]
    exact ⟨rfl, updTeam_applyResult h rfl hv hs hn⟩
  | some c =>
    rw [writeResult_onCore h hc]
    have hcc := tickTo_cc s c ((s.team k).resultAt r - 1)
    refine ⟨⟨?_, fun m hm hw => ?_, fun hall => ?_⟩, updTeam_applyResult h (tickTo_team s c _ k) hv hs hn⟩
    · exact tickTo_outside s c _
    · have := (resultAt_le_iff (s.team k) r _).1 (Nat.le_refl _) m hm hw
      show m.avail ≤ ((s.tickTo c _).core c).cc + 1
      omega
    · have := (resultAt_le_iff (s.team k) r _).2 hall
      show ((s.tickTo c _).core c).cc = _
      omega

end Sys2Proof.Proofs
end

section
/-! SUPPORT. A trap at successor evaluation that kills its context writes a kill record (R282, R296, R297): the state that refutes O43. -/

namespace Sys2Proof.Proofs

open Sys2Proof Sys2Proof.Machine Sys2Proof.Claims

/-- An ended pass of thread 0 over a block of KIND 7 at address 0. -/
def kind7Pass : Pass := { placedPass 0 0 0 with w1 := 7, body := [], groups := [[0]] }

/-- Its team has no handler: TRAPVEC is 0. Its thread 1 is in the selected pass, and the kill log is a ring of four records at address 0. -/
def unhandled : State :=
  { State.reset.powered with
    part := { Part.empty with kl := { Ring.empty with log2n := 2 } }
    cores := [(0, { Core.empty with ended := [kind7Pass] })]
    teams := [(0, { placedTeam with sel := some { placedPass 0 0 0 with groups := [[1]] } })] }

/-- The bytes that an outcome's memory lists. -/
def cellsOf (o : Host.Outcome State Fault Refusal) : Option (List Host.Cell) :=
  match o with
  | .next t => some t.mem.cells
  | _ => none

/-- KIND 7 traps ILLEGAL_OP in the thread, which kills the context; the kill record holds the cause at 14 and word 1 of the header, as
TRAPINFO0, at 24. -/
theorem cellsOf_exec_unhandled : cellsOf (exec (.successorEvaluation 0) unhandled) = some [(14, 0x01), (24, 0x07)] := by decide +kernel

/-- Refutes O43: the clause on successors has memory unchanged whether or not the thread has a handler, and a trap without one writes
the kill record. -/
theorem not_passesStartAndEnd : ¬ Obligations.PassesStartAndEnd := by
  unfold Obligations.PassesStartAndEnd
  rintro ⟨-, -, hsucc, -⟩
  obtain ⟨t, ht, -, hmem, -⟩ := hsucc unhandled 0 0 0 0 kind7Pass { placedPass 0 0 0 with groups := [[1]] } (by decide) (by decide) (by decide)
    (by decide) (by decide) (by decide) (by decide) (by decide) (by decide) (by decide)
  have h : cellsOf (exec (.successorEvaluation 0) unhandled) = some t.mem.cells := congrArg cellsOf ht
  rw [cellsOf_exec_unhandled, hmem] at h
  exact absurd h (by decide)

end Sys2Proof.Proofs
end

section
/-! SUPPORT. A host hart's fetch acts on memory before its instruction runs (R153, R258): the state that refutes O58. -/

namespace Sys2Proof.Proofs

open Sys2Proof Sys2Proof.Machine Sys2Proof.Claims

/-- Hart 0 runs XLSPAWN x0, 0x0000000B, whose first halfword ends the memory's first granule of 256 bytes, and whose second lies in the
next one, which nothing has written: its zero-map bit is set. -/
def splitFetch : State :=
  { State.reset.powered.setMem (Memory.empty.write 254 [0x0B]) with
    turn := .hart 0, harts := [(0, { Hart.empty with pc := 254, running := true })] }

theorem hartAt_splitFetch : HartAt splitFetch 0 0x0000000B :=
  ⟨by decide, by decide, by decide, by decide, by decide, by decide, by decide, by decide, by decide, by decide, by decide, by decide, by decide⟩

/-- The lines with the zero-line flag that an outcome's memory lists (R152). -/
def zeroLines (o : Host.Outcome State Fault Refusal) : Option (List Nat) :=
  match o with
  | .next t => some t.mem.zline
  | _ => none

/-- The fetch of the second halfword brings a line of a granule whose zero-map bit is set into the L2, which sets its flag (R153). -/
theorem zeroLines_step_splitFetch : zeroLines (step splitFetch) = some [2] := by decide +kernel

/-- The instruction itself reads nothing from there. -/
theorem zeroLines_exec_splitFetch : zeroLines (mapNext (turnOver splitFetch) (exec (.xlspawn 0) splitFetch)) = some [] := by
  decide +kernel

/-- Refutes O58: a hart's step is its instruction after the fetch, which sets zero-line flags, where the statement runs the instruction
on the state before the fetch. -/
theorem not_stepRunsTheDecodedInstruction : ¬ Obligations.StepRunsTheDecodedInstruction := by
  unfold Obligations.StepRunsTheDecodedInstruction
  rintro ⟨-, -, hhart, -⟩
  have h := congrArg zeroLines (hhart splitFetch 0 0x0000000B (.xlspawn 0) hartAt_splitFetch rfl)
  rw [zeroLines_step_splitFetch, zeroLines_exec_splitFetch] at h
  exact absurd h (by decide)

end Sys2Proof.Proofs
end

section
/-! SUPPORT. A vector instruction issued to one thread that traps (R27, R85, R86, R127, R280): what its commit leaves before the trap is
taken, and what a pawn receives instead. -/

namespace Sys2Proof.Proofs

open Sys2Proof Sys2Proof.Machine Sys2Proof.Claims

/-! ### The destinations of the forms -/

/-- A form's destination is a register that there is, and an interlocked result is a word of v or a pair. -/
def DstNamed (F : Form) : Prop :=
  match F.dst with
  | .v _ | .v64 _ => True
  | .p n => n < 8 ∧ F.lat ≠ none
  | .ix i => i < 4 ∧ F.lat ≠ none
  | .win _ => F.lat ≠ none

theorem dstNamed_of_vform {i : Instr} {F : Form} (h : vform i = some F) : DstNamed F := by
  cases i
  case vcvt f =>
    cases h
    by_cases hd : f.dst = .f64 <;> simp only [DstNamed, formV, hd, if_true, if_false]
  case vcmp f | vfcmp f | vcmpi f | vvoteAny f | vvoteAll f => cases h; exact ⟨f.pd.isLt, nofun⟩
  case vseti f => cases h; exact ⟨f.n.isLt, nofun⟩
  case vstx f => cases h; exact nofun
  -- what is left has no form, or writes v or a pair
  all_goals cases h
  all_goals trivial

/-- A destination that there is holds what was written to it. -/
theorem holds_write {F : Form} (hF : DstNamed F) {T U : Team} (hw : U.wbase = T.wbase) (y : Thread) (a : DWord) :
    Holds F.dst U (F.dst.write T y a) a := by
  unfold DstNamed at hF
  cases hd : F.dst with
  | v n => exact Thread.vget_vset y n _
  | v64 n => exact Thread.v64_v64set y n a
  | p n => rw [hd] at hF; exact Thread.pget_pset y n _ hF.1
  | ix i => rw [hd] at hF; exact Thread.iget_iset y i _ hF.1
  | win i =>
    show Thread.vget _ (U.wbase + _) = _
    rw [hw]
    exact Thread.vget_vset y _ _

/-! ### A lane that traps -/

section
variable {v : VInstr} {s : State} {x : Ctx} {j : Nat} {e : TrapInfo}

/-- A lane whose guard's register is poisoned traps RF_UE (R85, R119). -/
theorem lane_of_poisoned_guard {r : Rd} (hg : (s.team x.team).consumed (guardRd v.guard j) = some r) :
    v.lane s x j = .trap (x.rfUe j r) := by
  simp only [VInstr.lane, hg]

/-- A lane whose guard is 1 takes the trap of its first operand that is refused or poisoned (R85, R128). -/
theorem lane_of_consume_error (hg : (s.team x.team).consumed (guardRd v.guard j) = none) (hon : s.guardOn x v.guard j = true)
    (he : s.consume x j v.opds = .error e) : v.lane s x j = .trap e := by
  simp only [VInstr.lane, hg, hon, he, Bool.not_true, Bool.false_eq_true, if_false]

/-- Poisoned v[n] is RF_UE with the register's number and the thread (R86). -/
theorem consume_poisoned_v {n : Nat} (hn : n < 64) (h : n ∈ ((s.team x.team).thread j).bad) : s.consume x j [.v n] =
    .error { cause := causeRfUe, info0 := BitVec.ofNat 64 (n + 2 ^ 16 * j), info1 := 0, pc := x.pc } := by
  have hp : (s.team x.team).poisoned { owner := j, slot := n, early := 0 } = true := (poisoned_v _ hn).2 h
  have hslot : ¬100 ≤ n := by omega
  simp [State.consume, State.opd, State.opdOwn, Team.consumed, hp, Ctx.rfUe, Ctx.trap, slotNumber, hslot, show n < 100 by omega]

/-! ### The issue to a group of one thread -/

/-- An instruction whose one lane traps commits that lane, and then a real thread takes the trap (R280). -/
theorem issue_of_trap (hgrp : x.group = [j]) (hearly : s.anyEarly x (s.compared x v.guard v.opds) = false)
    (hl : v.lane s x j = .trap e) : ∃ b, v.issue s x =
      ((v.commit s x [(j, .trap e)]).spendFresh b).trapAll x.team (if (s.team x.team).isPawn j = true then [] else [(j, e)]) := by
  refine ⟨s.anyEarly x (s.compared x v.guard v.opds) || (v.gangFlags && s.anyEarly x (fun j => s.readsOf x j v.opds)), ?_⟩
  simp only [VInstr.issue, State.waitShorts_nil hearly, hearly, hgrp, List.map_cons, List.map_nil, hl, Bool.and_false, Bool.not_false,
    List.isEmpty_nil, Bool.and_true, if_true, Bool.false_or, List.filterMap_cons, List.filterMap_nil]
  cases (s.team x.team).isPawn j <;> rfl

/-- An operand that is not yet readable stops the issue to a real thread, which traps WAIT_SHORT at its worst one (R127). -/
theorem issue_of_short {r : Rd} (hgrp : x.group = [j]) (hp : (s.team x.team).isPawn j = false) (hon : s.guardOn x v.guard j = true)
    (hw : (s.team x.team).waitCheck = true) (hr : (s.team x.team).worst x (s.compared x v.guard v.opds j) = some r) : v.issue s x =
      (({ v with gangFlags := false }.commit s x []).spendFresh true).trapThread x.team j (x.waitShort (s.team x.team) r) := by
  have hshorts : s.waitShorts x v.guard (s.compared x v.guard v.opds) = [(j, x.waitShort (s.team x.team) r)] := by
    simp [State.waitShorts, hw, hgrp, sortNat, insertNat, hr, hp, hon]
  simp [VInstr.issue, hshorts, hgrp, hp, State.trapAll]

/-! ### What the commit leaves, and the trap -/

/-- A commit without results leaves every thread, and of its team all but results and pending exceptions. -/
theorem commit_of_no_results {lanes : List (Nat × Lane)} (h : laneResults v (s.team x.team) lanes = []) :
    ∃ U, v.commit s x lanes = s.setTeam x.team U ∧ TeamKeeps (s.team x.team) U ∧ U.threads = (s.team x.team).threads := by
  cases hl : v.lat with
  | none =>
    obtain ⟨r, hr⟩ := commit_of_interlock hl s x lanes
    exact ⟨_, hr, rfl, rfl⟩
  | some l =>
    obtain ⟨p, hp⟩ := commit_of_latency hl s x lanes
    rw [h] at hp
    exact ⟨_, hp, rfl, rfl⟩

theorem mem_spendFresh (s : State) (b : Bool) : (s.spendFresh b).mem = s.mem := by
  unfold State.spendFresh; split <;> rfl

/-- A thread in its handler by a trap: its registers are as they were (R289). -/
def EntersHandler (y z : Thread) (i : TrapInfo) : Prop :=
  ∃ m w, z = { y with trapCause := i.cause, info0 := i.info0, info1 := i.info1, trapPc := i.pc, handler := true, watch := 0,
                      irrev := false, mon := m, loc := .waits w }

/-- A trap that its thread's handler takes: memory is as it was. -/
theorem trapThread_of_handled {k : Nat} (h : Handled s k j) : let t := s.trapThread k j e
    EntersHandler ((s.team k).thread j) ((t.team k).thread j) e ∧ t.mem = s.mem := by
  obtain ⟨⟨c, sl, hstate⟩, hloc, hhand, hvec⟩ := h
  have hlive : ((s.team k).thread j).loc ≠ .exited ∧ ((s.team k).thread j).loc ≠ .vacant ∧ ((s.team k).thread j).loc ≠ .dormant := by
    rw [hloc]; exact ⟨nofun, nofun, nofun⟩
  obtain ⟨hexited, hvacant, hdormant⟩ := hlive
  obtain ⟨⟨m, hz⟩, hmem, -⟩ := State.trapThread_enters s (i := e) hstate hexited hvacant hdormant hhand hvec
  exact ⟨⟨m, _, hz⟩, hmem⟩

theorem handled_of_teamKeeps {s' : State} {k : Nat} (hk : TeamKeeps (s.team k) (s'.team k))
    (hth : (s'.team k).thread j = (s.team k).thread j) (h : Handled s k j) : Handled s' k j := by
  have hstate : (s'.team k).state = (s.team k).state := (congrArg Team.state hk : _)
  have hvec : (s'.team k).trapVec = (s.team k).trapVec := (congrArg Team.trapVec hk : _)
  unfold Handled
  rwa [hth, hstate, hvec]

/-- A trap taken after a commit without results. -/
theorem trapThread_after_commit {lanes : List (Nat × Lane)} (h : laneResults v (s.team x.team) lanes = []) (b : Bool)
    (hh : Handled s x.team j) : let t := ((v.commit s x lanes).spendFresh b).trapThread x.team j e
    EntersHandler ((s.team x.team).thread j) ((t.team x.team).thread j) e ∧ t.mem = s.mem := by
  obtain ⟨U, hU, hk, hth⟩ := commit_of_no_results h
  have hteam : ((v.commit s x lanes).spendFresh b).team x.team = U := by rw [team_spendFresh, hU, State.team_setTeam]
  have hthread : U.thread j = (s.team x.team).thread j := congrArg (fun l => Tab.get Thread.empty l j) hth
  have hmem : ((v.commit s x lanes).spendFresh b).mem = s.mem := by rw [mem_spendFresh, hU, State.setTeam_mem]
  have htrap := trapThread_of_handled (e := e) (handled_of_teamKeeps (s' := (v.commit s x lanes).spendFresh b) (by rwa [hteam])
    (by rw [hteam, hthread]) hh)
  rwa [hteam, hthread, hmem] at htrap

/-! ### A pawn's zero -/

/-- No exception of a group of one pawn counts (R27). -/
theorem flagsOfGangs_of_pawn (hgrp : x.group = [j]) (hp : (s.team x.team).isPawn j = true) : v.flagsOfGangs s x = 0 := by
  simp [VInstr.flagsOfGangs, hgrp, hp]

theorem lands_congr {F : Form} {t u : State} {k : Nat} {a : DWord} (h : u.team k = t.team k) (hl : Lands F t k j a) : Lands F u k j a := by
  unfold Lands at *
  rwa [h]

/-- The commit of a pawn's trap where the latency is fixed writes zero to its destination, and nothing else (R27). -/
theorem commit_of_pawn_trap_latency {l : Nat} (hl : v.lat = some l) (hgrp : x.group = [j]) (hp : (s.team x.team).isPawn j = true)
    (hex : v.dst.exists (s.team x.team) j = true) : v.commit s x [(j, .trap e)] =
      s.setTeam x.team (writeLane v.dst x.grp (x.cc + l) x.pc (s.team x.team) (j, 0, 0)) := by
  simp [VInstr.commit, hl, hp, hex, flagsOfGangs_of_pawn hgrp hp, writeLane]

/-- Where the result is interlocked, it brings zeros. -/
theorem commit_of_pawn_trap_interlock (hl : v.lat = none) (hp : (s.team x.team).isPawn j = true)
    (hF : DstNamed (formOf v)) :
    ∃ r, v.commit s x [(j, .trap e)] = s.setTeam x.team { s.team x.team with results := (s.team x.team).results ++ [r] } ∧
      r.load = false ∧ Brings v.dst j r 0 := by
  refine ⟨_, by simp only [VInstr.commit, hl]; rfl, rfl, ?_⟩
  simp only [formOf, DstNamed, hl, ne_eq, not_true_eq_false, and_false] at hF
  cases hd : v.dst with
  | v n => simp [Brings, Dst.slots, hp, Dst.exists]
  | v64 n => simp [Brings, hp, Dst.exists]
  | p n | ix n | win n => rw [hd] at hF; exact hF.elim

/-- The commit of a pawn's trap gives its destination zero, and raises nothing (R27). -/
theorem commit_of_pawn_trap (hgrp : x.group = [j]) (hp : (s.team x.team).isPawn j = true)
    (hex : v.dst.exists (s.team x.team) j = true) (hF : DstNamed (formOf v)) : let t := v.commit s x [(j, .trap e)]
    Lands (formOf v) t x.team j 0 ∧ (t.team x.team).fpend = (s.team x.team).fpend := by
  intro t
  cases hl : v.lat with
  | some l =>
    have ht : t.team x.team = writeLane v.dst x.grp (x.cc + l) x.pc (s.team x.team) (j, 0, 0) := by
      simp only [t, commit_of_pawn_trap_latency hl hgrp hp hex, State.team_setTeam]
    refine ⟨?_, by rw [ht]; rfl⟩
    unfold Lands
    simp only [formOf, hl, ht]
    show Holds v.dst _ (((s.team x.team).setThread j _).thread j) 0
    rw [Team.thread_setThread]
    exact holds_write hF rfl _ 0
  | none =>
    obtain ⟨r, hr, hload, hbrings⟩ := commit_of_pawn_trap_interlock (e := e) hl hp hF
    have ht : t.team x.team = { s.team x.team with results := (s.team x.team).results ++ [r] } := by
      simp only [t, hr, State.team_setTeam]
    refine ⟨?_, by rw [ht]⟩
    unfold Lands
    simp only [formOf, hl, ht]
    exact ⟨r, List.getLast?_concat, hload, hbrings⟩

end

/-! ### The three traps, and the pawn -/

/-- A real thread that consumes a poisoned word, or reads through a map or a window that refuses, takes the trap. -/
theorem exec_operand_trap {i : Instr} {F : Form} (hF : vform i = some F) {s : State} {x : Ctx} {j : Nat} {e : TrapInfo} (hx : s.ctx = some x)
    (hgrp : x.group = [j]) (hp : (s.team x.team).isPawn j = false) (hearly : s.anyEarly x (s.compared x F.guard F.opds) = false)
    (hg : (s.team x.team).consumed (guardRd F.guard j) = none) (hon : s.guardOn x F.guard j = true)
    (he : s.consume x j F.opds = .error e) (hh : Handled s x.team j) :
    ∃ t, exec i s = .next t ∧ EntersHandler ((s.team x.team).thread j) ((t.team x.team).thread j) e ∧ t.mem = s.mem := by
  obtain ⟨v, hv, rfl, -⟩ := exec_eq_execVector hF
  obtain ⟨b, hissue⟩ := issue_of_trap hgrp hearly (lane_of_consume_error hg hon he)
  have hnone : laneResults v (s.team x.team) [(j, .trap e)] = [] := by simp [laneResults, hp]
  refine ⟨_, by rw [hv, execVector, hx], ?_⟩
  rw [hissue, hp]
  exact trapThread_after_commit hnone b hh

/-- A pawn takes no trap, and its destination receives zero (R27). -/
theorem exec_pawn_trap {i : Instr} {F : Form} (hF : vform i = some F) {s : State} {x : Ctx} {j : Nat} (hx : s.ctx = some x)
    (hgrp : x.group = [j]) (hp : (s.team x.team).isPawn j = true) (hearly : s.anyEarly x (s.compared x F.guard F.opds) = false)
    (htrap : (s.team x.team).consumed (guardRd F.guard j) ≠ none ∨ s.guardOn x F.guard j = true ∧ ∃ e, s.consume x j F.opds = .error e)
    (hwin : ∀ n, F.dst = .win n → (((s.team x.team).thread j).iget n).toNat < (s.team x.team).wlen) :
    ∃ t, exec i s = .next t ∧ Lands F t x.team j 0 ∧ t.mem = s.mem ∧ (∀ k, k ≠ x.team → t.team k = s.team k) ∧
      TeamKeeps (s.team x.team) (t.team x.team) ∧ (t.team x.team).fpend = (s.team x.team).fpend ∧
      ThreadKeeps F.dst (s.team x.team) ((s.team x.team).thread j) ((t.team x.team).thread j) := by
  have hdst := dstNamed_of_vform hF
  obtain ⟨v, hv, rfl, -⟩ := exec_eq_execVector hF
  have hex : v.dst.exists (s.team x.team) j = true := by
    cases hd : v.dst with
    | win n => exact decide_eq_true (hwin n hd)
    | _ => rfl
  obtain ⟨e, hl⟩ : ∃ e, v.lane s x j = .trap e := by
    cases hg : (s.team x.team).consumed (guardRd v.guard j) with
    | some r => exact ⟨_, lane_of_poisoned_guard hg⟩
    | none =>
      obtain ⟨hon, e, he⟩ := htrap.resolve_left (fun h => h hg)
      exact ⟨e, lane_of_consume_error hg hon he⟩
  obtain ⟨b, hissue⟩ := issue_of_trap hgrp hearly hl
  obtain ⟨U, hU, hteam, hthread, -⟩ := commit_keeps v s x [(j, .trap e)]
  obtain ⟨hlands, hfpend⟩ := commit_of_pawn_trap (e := e) hgrp hp hex hdst
  rw [if_pos hp] at hissue
  rw [hU, State.team_setTeam] at hfpend
  refine ⟨(v.commit s x [(j, .trap e)]).spendFresh b, by rw [hv, execVector, hx]; exact congrArg _ hissue,
    lands_congr (team_spendFresh _ b _) hlands, ?_⟩
  simp only [team_spendFresh, mem_spendFresh, hU, State.team_setTeam, State.setTeam_mem, true_and]
  exact ⟨fun k hk => State.team_setTeam_ne _ _ _ hk, hteam, hfpend, hthread j⟩

/-- An instruction with an operand that is not yet readable does not issue to a real thread, which traps WAIT_SHORT (R127). -/
theorem exec_wait_short {i : Instr} {F : Form} (hF : vform i = some F) {s : State} {x : Ctx} {j : Nat} {r : Rd} (hx : s.ctx = some x)
    (hgrp : x.group = [j]) (hp : (s.team x.team).isPawn j = false) (hon : s.guardOn x F.guard j = true)
    (hw : (s.team x.team).waitCheck = true) (hr : (s.team x.team).worst x (s.compared x F.guard F.opds j) = some r)
    (hh : Handled s x.team j) : ∃ t, exec i s = .next t ∧
      EntersHandler ((s.team x.team).thread j) ((t.team x.team).thread j) (x.waitShort (s.team x.team) r) := by
  obtain ⟨v, hv, rfl, -⟩ := exec_eq_execVector hF
  refine ⟨_, by rw [hv, execVector, hx], ?_⟩
  rw [issue_of_short hgrp hp hon hw hr]
  obtain ⟨hent, -⟩ := trapThread_after_commit (v := { v with gangFlags := false }) (lanes := []) rfl true hh
  exact hent

/-- WAIT_SHORT tells the operand, its shortfall and its producer (R127). -/
theorem waitShort_of_mark {x : Ctx} {t : Team} {r : Rd} {m : Mark} (h : t.markOf x r = some m) : x.waitShort t r =
    { cause := causeWaitShort, info0 := BitVec.ofNat 64 (slotNumber r.slot + 256 * min 255 (m.avail + r.early - x.cc)),
      info1 := m.pc, pc := x.pc } := by
  simp only [Ctx.waitShort, Ctx.trap, Team.short, h] <;> rfl

/-- Settles O14: the one lane of the group traps after a commit without results, a pawn's commit writes zero, and a short read stops
the issue. -/
theorem operandsThatTrap : Obligations.OperandsThatTrap := by
  unfold Obligations.OperandsThatTrap
  refine ⟨⟨?_, ?_, ?_⟩, ?_⟩
  · intro i F hF s x j c sl e hx hgrp hp hearly hg hon he hstate hloc hhand hvec
    obtain ⟨t, ht, ⟨m, w, hz⟩, hmem⟩ := exec_operand_trap hF hx hgrp hp hearly hg hon he ⟨⟨c, sl, hstate⟩, hloc, hhand, hvec⟩
    refine ⟨t, ht, ?_⟩
    rw [hz]
    exact ⟨rfl, rfl, rfl, rfl, rfl, hmem⟩
  · exact fun s x j n hn h => consume_poisoned_v hn h
  · exact fun i F hF s x j hx hgrp hp hearly htrap hwin => exec_pawn_trap hF hx hgrp hp hearly htrap hwin
  · intro i F hF s x j c sl r m hx hgrp hp hon hw hr hm hstate hloc hhand hvec
    obtain ⟨t, ht, ⟨m', w, hz⟩⟩ := exec_wait_short hF hx hgrp hp hon hw hr ⟨⟨c, sl, hstate⟩, hloc, hhand, hvec⟩
    refine ⟨t, ht, ?_⟩
    rw [hz, waitShort_of_mark hm]
    exact ⟨rfl, rfl, rfl, rfl, rfl, rfl, rfl, rfl⟩

end Sys2Proof.Proofs
end

section
/-! SUPPORT. The issue of an instruction that acts per gang (R120, R381) where nothing stops it: each gang completes in turn, and the s
registers that the gangs write hold their values. -/

namespace Sys2Proof.Proofs

open Sys2Proof Sys2Proof.Machine Sys2Proof.Claims

/-! ### The gangs of a group -/

theorem mem_dedupSorted {a : Nat} {l : List Nat} : a ∈ dedupSorted l ↔ a ∈ l := by
  induction l with
  | nil => rfl
  | cons b l ih =>
    rw [List.mem_cons, ← ih, dedupSorted]
    cases dedupSorted l with
    | nil => simp
    | cons c r =>
      dsimp only
      split
      · next h => rw [beq_iff_eq.1 h]; simp
      · exact List.mem_cons

theorem mem_gangs {x : Ctx} {t : Team} {g : Nat} : g ∈ x.gangs t ↔ ∃ j ∈ x.group, t.gangOf j = g := by
  rw [Ctx.gangs, mem_dedupSorted, mem_sortNat, List.mem_map]

theorem mem_gangs_of_mem_realGangs {x : Ctx} {t : Team} {g : Nat} (h : g ∈ x.realGangs t) : g ∈ x.gangs t := by
  rw [Ctx.realGangs, mem_dedupSorted, mem_sortNat, List.mem_map] at h
  obtain ⟨j, hj, hg⟩ := h
  rw [Ctx.real, mem_sortNat] at hj
  exact mem_gangs.2 ⟨j, (List.mem_filter.1 hj).1, hg⟩

/-! ### The checks at issue -/

/-- An instruction that is not irrevocable runs where no operand is early. -/
theorem gate_opens {s : State} {x : Ctx} {reads : Nat → List Rd} (h : s.anyEarly x reads = false) (guard : Option Nat)
    (zero : State → List Nat → State) (run : State → State) : s.gate x false guard reads zero run = run s := by
  simp only [State.gate, h, Bool.false_and, Bool.and_false, Bool.false_eq_true, if_false, State.spendFresh]

/-- A gang's sources are readable and hold no poison where nothing stops the issue: they give their values (R44, R55). -/
theorem Uniform.source {s : State} {x : Ctx} {srcs : List Nat} (h : Uniform s x srcs) {g n : Nat} (hg : g ∈ x.gangs (s.team x.team))
    (hn : n ∈ srcs) : (s.team x.team).spoison g n = false ∧
      (n = 0 ∨ (s.team x.team).short x { owner := g, slot := sSlot n, early := 0 } = 0) := by
  obtain ⟨-, hearly, hpoison⟩ := h
  refine ⟨hpoison g hg n hn, ?_⟩
  obtain ⟨j, hj, rfl⟩ := mem_gangs.1 hg
  by_cases h0 : n = 0
  · exact .inl h0
  · refine .inr (State.short_of_not_early hearly hj (List.mem_flatMap.2 ⟨n, hn, ?_⟩))
    rw [if_neg (by simpa using h0)]
    exact List.mem_singleton_self _

/-! ### The gangs in turn -/

section
variable {v : GInstr} {s : State} {x : Ctx}

/-- A gang none of whose sources is poisoned acts on their values. -/
theorem gang_of_clean {g : Nat} (h : ∀ n ∈ v.srcs, (s.team x.team).spoison g n = false) :
    v.gang x s g = v.body x g (v.srcs.map (s.rdS x g)) s := by
  have hnone : v.srcs.find? (fun n => (s.team x.team).spoison g n) = none := by simpa using h
  simp only [GInstr.gang, hnone]

/-- Gangs that leave the state alone. -/
theorem gangs_of_still {out : Nat → GangOut} {gs : List Nat} (h : ∀ g ∈ gs, v.gang x s g = (out g, s)) :
    v.gangs x s gs = (gs.map (fun g => (g, out g)), s) := by
  induction gs with
  | nil => rfl
  | cons g gs ih =>
    obtain ⟨hg, hgs⟩ := List.forall_mem_cons.1 h
    simp only [GInstr.gangs, hg, ih hgs, List.map_cons]

/-- Gangs that overwrite what the one before them did: the last one's state remains (R62). -/
theorem gangs_of_overwriting {w : Nat → State} {gs : List Nat} {g : Nat} (hlast : gs.getLast? = some g)
    (h : ∀ g ∈ gs, v.gang x s g = (.done [], w g)) (hw : ∀ g' ∈ gs, ∀ g ∈ gs, v.gang x (w g') g = (.done [], w g)) :
    v.gangs x s gs = (gs.map (fun g => (g, .done [])), w g) := by
  induction gs generalizing s with
  | nil => cases hlast
  | cons b gs ih =>
    obtain ⟨hb, hgs⟩ := List.forall_mem_cons.1 h
    cases gs with
    | nil => cases hlast; simp [GInstr.gangs, hb]
    | cons c gs =>
      have hrest := ih (s := w b) (by rwa [List.getLast?_cons_cons] at hlast)
        (fun g hg => hw b List.mem_cons_self g (List.mem_cons_of_mem _ hg))
        (fun g' hg' g hg => hw g' (List.mem_cons_of_mem _ hg') g (List.mem_cons_of_mem _ hg))
      rw [GInstr.gangs, hb]
      dsimp only
      rw [hrest]
      rfl

/-- The writes of s registers of gangs that complete. -/
def gangWrites (outs : List (Nat × GangOut)) : List (Nat × Nat × DWord) :=
  outs.flatMap (fun o => match o.2 with
    | .done l => l.map (fun a => (o.1, a.1, a.2))
    | _ => [])

/-- The gangs that do not complete. -/
def gangsFailed (outs : List (Nat × GangOut)) : List Nat :=
  outs.filterMap (fun o => match o.2 with
    | .done _ => none
    | _ => some o.1)

theorem gangsFailed_of_done {outs : List (Nat × GangOut)} (h : ∀ o ∈ outs, ∃ l, o.2 = .done l) : gangsFailed outs = [] := by
  refine List.filterMap_eq_nil_iff.2 fun o ho => ?_
  obtain ⟨l, hl⟩ := h o ho
  rw [hl]

/-- The zeros that gangs of pawns receive for an instruction that does not complete (R27). -/
def gangZeros (v : GInstr) (x : Ctx) (t : Team) (gs : List Nat) : List (Nat × Nat × DWord) :=
  match v.dst with
  | some d => if v.realOnly then [] else (gs.filter (fun g => (x.ofGang t g).all (fun j => t.isPawn j))).map (fun g => (g, d, (0 : DWord)))
  | none => []

theorem gangZeros_nil (v : GInstr) (x : Ctx) (t : Team) : gangZeros v x t [] = [] := by
  unfold gangZeros
  split
  · exact ite_self _
  · rfl

/-- The issue of a revocable instruction with no early operand: the gangs in turn, their writes, and the traps of those that fail. -/
theorem gangIssue_eq {outs : List (Nat × GangOut)} {s' : State} (hirrev : v.irrev = false) (hcalm : v.calm = false)
    (hearly : s.anyEarly x (v.reads (s.team x.team)) = false) (h : v.gangs x s (v.acts x (s.team x.team)) = (outs, s')) :
    v.issue s x = outs.foldl (fun t o => t.disposeGang x o.1 o.2)
      (s'.writeS x v.lat (gangWrites outs ++ gangZeros v x (s.team x.team) (gangsFailed outs))) := by
  simp only [GInstr.issue, hcalm, hirrev, Bool.false_eq_true, if_false, gate_opens hearly, h]
  rfl

/-- Where every gang completes it is the gangs in turn, and then their writes. -/
theorem gangIssue_of_done {outs : List (Nat × GangOut)} {s' : State} (hirrev : v.irrev = false) (hcalm : v.calm = false)
    (hearly : s.anyEarly x (v.reads (s.team x.team)) = false) (h : v.gangs x s (v.acts x (s.team x.team)) = (outs, s'))
    (hdone : ∀ o ∈ outs, ∃ l, o.2 = .done l) : v.issue s x = s'.writeS x v.lat (gangWrites outs) := by
  rw [gangIssue_eq hirrev hcalm hearly h, gangsFailed_of_done hdone, gangZeros_nil, List.append_nil]
  refine foldl_fix outs _ fun o ho t => ?_
  obtain ⟨l, hl⟩ := hdone o ho
  rw [hl]
  rfl

end

/-! ### s registers written (R44, R55) -/

/-- s[n] of a gang written with its mark; s0 is not (R55). -/
def writeGang (grp avail : Nat) (pc : DWord) (t : Team) (c : Nat × Nat × DWord) : Team :=
  if c.2.1 == 0 then t else { t.sset c.1 c.2.1 c.2.2 with marks := addMarks t.marks grp c.1 [sSlot c.2.1] avail pc }

theorem writeS_of_latency (s : State) (x : Ctx) (l : Nat) (ss : List (Nat × Nat × DWord)) :
    s.writeS x (some l) ss = s.updTeam x.team (fun t => ss.foldl (writeGang x.grp (x.cc + l) x.pc) t) := rfl

theorem writeGang_sget (grp avail : Nat) (pc : DWord) (t : Team) (c : Nat × Nat × DWord) (g n : Nat) :
    (writeGang grp avail pc t c).sget g n = (t.sset c.1 c.2.1 c.2.2).sget g n := by
  unfold writeGang
  split
  · next h => rw [beq_iff_eq.1 h, Team.sset_zero]
  · rfl

/-- A gang's register holds the value that every write of it writes. -/
theorem foldl_writeGang_sHolds (grp avail : Nat) (pc : DWord) {g n : Nat} {a : DWord} (hn : n < 32) {ss : List (Nat × Nat × DWord)}
    (hs : ∀ c ∈ ss, c.2.1 < 32) (ha : ∀ c ∈ ss, c.1 = g → c.2.1 = n → c.2.2 = a) (t : Team)
    (h : (∃ c ∈ ss, c.1 = g ∧ c.2.1 = n) ∨ SHolds t g n a) : SHolds (ss.foldl (writeGang grp avail pc) t) g n a := by
  induction ss generalizing t with
  | nil => exact h.resolve_left (by simp)
  | cons c ss ih =>
    obtain ⟨hc, hs⟩ := List.forall_mem_cons.1 hs
    obtain ⟨hca, ha⟩ := List.forall_mem_cons.1 ha
    refine ih hs ha _ ?_
    unfold SHolds at *
    rw [writeGang_sget]
    by_cases hcg : c.1 = g ∧ c.2.1 = n
    · obtain ⟨rfl, rfl⟩ := hcg
      exact .inr ((Team.sget_sset t _ _ _).trans (by rw [hca rfl rfl]))
    · rw [sget_sset_ne t _ hn hc (by omega)]
      refine h.imp_left ?_
      rintro ⟨d, hd, hdg⟩
      rcases List.mem_cons.1 hd with rfl | hd
      · exact absurd hdg hcg
      · exact ⟨d, hd, hdg⟩

end Sys2Proof.Proofs
end

section
/-! SUPPORT. The issue of an instruction that acts per thread where nothing stops it. -/

namespace Sys2Proof.Proofs

open Sys2Proof Sys2Proof.Machine Sys2Proof.Claims

/-! ### The threads in turn -/

/-- What a thread does that neither traps nor faults. -/
def Completes : LaneOut → Prop
  | .done | .vals _ => True
  | _ => False

section
variable {v : MInstr} {s : State} {x : Ctx}

/-- A thread that completes adds its words, and the rest go on from the state that it leaves; a pawn is no exception (R27). -/
theorem lanes_cons {j : Nat} {tids : List Nat} {o : LaneOut} {s' : State} (h : v.lane x s j = (o, s')) (ho : Completes o) :
    v.lanes x s (j :: tids) = ((j, o) :: (v.lanes x s' tids).1, (v.lanes x s' tids).2) := by
  rw [MInstr.lanes, h]
  cases o with
  | done | vals l => simp
  | trap i | park va acc c => exact ho.elim

/-- Threads that leave the state alone. -/
theorem lanes_of_still {out : Nat → LaneOut} {tids : List Nat} (h : ∀ j ∈ tids, v.lane x s j = (out j, s))
    (ho : ∀ j ∈ tids, Completes (out j)) : v.lanes x s tids = (tids.map (fun j => (j, out j)), s) := by
  induction tids with
  | nil => rfl
  | cons j tids ih =>
    obtain ⟨hj, htids⟩ := List.forall_mem_cons.1 h
    obtain ⟨hoj, hos⟩ := List.forall_mem_cons.1 ho
    rw [lanes_cons hj hoj, ih htids hos, List.map_cons]

/-- The words that threads which complete write. -/
def laneWords (outs : List (Nat × LaneOut)) : List (Nat × Nat × Word) :=
  outs.flatMap (fun o => match o.2 with
    | .vals l => l.map (fun a => (o.1, a.1, a.2))
    | _ => [])

/-- Threads that complete leave nothing to trap or park. -/
theorem dispose_of_completes {outs : List (Nat × LaneOut)} (h : ∀ o ∈ outs, Completes o.2) (t : State) : t.dispose x outs = t := by
  refine foldl_fix outs t fun o ho t => ?_
  have hc := h o ho
  cases ho2 : o.2 with
  | done | vals l => rfl
  | trap i | park va acc c => rw [ho2] at hc; exact hc.elim

/-- The registers that a thread reads: those of its operands where it acts at all. -/
def threadReads (v : MInstr) (s : State) (x : Ctx) (j : Nat) : List Rd :=
  s.compared x v.guard (if v.acts ((s.team x.team).thread j) then v.opds else []) j

/-- The issue of a revocable instruction with no early operand where every thread completes: the threads in turn, and then their words. -/
theorem threadIssue_of_completes {outs : List (Nat × LaneOut)} {s' : State} (hirrev : v.irrev = false)
    (hearly : s.anyEarly x (threadReads v s x) = false) (h : v.lanes x s (sortNat x.group) = (outs, s'))
    (hc : ∀ o ∈ outs, Completes o.2) : v.issue s x = s'.writeSlots x v.lat v.load (laneWords outs) := by
  have hgate := fun zero run => gate_opens hearly v.guard zero run
  unfold threadReads at hgate
  simp only [MInstr.issue, hirrev, hgate, h, Bool.false_eq_true, if_false, dispose_of_completes hc]
  rfl

/-- A thread without a guard that does not act does nothing. -/
theorem lane_of_idle {j : Nat} (hguard : v.guard = none) (h : v.acts ((s.team x.team).thread j) = false) : v.lane x s j = (.done, s) := by
  simp [MInstr.lane, hguard, guardRd, Team.consumed, State.guardOn, h]

/-- A thread without a guard that acts does so on its operands' values. -/
theorem lane_of_acting {j : Nat} {vs : List (List (Option DWord))} (hguard : v.guard = none)
    (h : v.acts ((s.team x.team).thread j) = true) (hv : s.consume x j v.opds = .ok vs) : v.lane x s j = v.body x j vs s := by
  simp [MInstr.lane, hguard, guardRd, Team.consumed, State.guardOn, h, hv]

end

/-! ### Words written (R44) -/

/-- A word written to a thread's slot with its mark. -/
def writeMarked (grp avail : Nat) (pc : DWord) (t : Team) (c : Nat × Nat × Word) : Team :=
  { writeWord t c with marks := addMarks t.marks grp c.1 [c.2.1] avail pc }

theorem writeSlots_of_latency (s : State) (x : Ctx) (l : Nat) (load : Bool) (vs : List (Nat × Nat × Word)) :
    s.writeSlots x (some l) load vs = s.updTeam x.team (fun t => vs.foldl (writeMarked x.grp (x.cc + l) x.pc) t) := rfl

theorem writeMarked_vget_self (grp avail : Nat) (pc : DWord) (t : Team) {c : Nat × Nat × Word} (h : c.2.1 < 64) :
    ((writeMarked grp avail pc t c).thread c.1).vget c.2.1 = c.2.2 := by
  show ((t.setThread c.1 _).thread c.1).vget c.2.1 = c.2.2
  rw [Team.thread_setThread, vget_slotSet_self _ _ h]

theorem writeMarked_vget_ne (grp avail : Nat) (pc : DWord) (t : Team) {c : Nat × Nat × Word} {j n : Nat} (h : ¬(c.1 = j ∧ c.2.1 = n)) :
    ((writeMarked grp avail pc t c).thread j).vget n = (t.thread j).vget n := by
  show ((t.setThread c.1 _).thread j).vget n = _
  by_cases hj : j = c.1
  · subst hj
    rw [Team.thread_setThread, vget_slotSet_ne _ _ (fun e => h ⟨rfl, e.symm⟩)]
  · rw [Team.thread_setThread_ne _ _ hj]

/-- A thread's register holds the word that every write of it writes. -/
theorem foldl_writeMarked_vget (grp avail : Nat) (pc : DWord) {j n : Nat} {a : Word} (hn : n < 64) {vs : List (Nat × Nat × Word)}
    (ha : ∀ c ∈ vs, c.1 = j → c.2.1 = n → c.2.2 = a) (t : Team) (h : (∃ c ∈ vs, c.1 = j ∧ c.2.1 = n) ∨ (t.thread j).vget n = a) :
    ((vs.foldl (writeMarked grp avail pc) t).thread j).vget n = a := by
  induction vs generalizing t with
  | nil => exact h.resolve_left (by simp)
  | cons c vs ih =>
    obtain ⟨hca, ha⟩ := List.forall_mem_cons.1 ha
    refine ih ha _ ?_
    by_cases hcj : c.1 = j ∧ c.2.1 = n
    · obtain ⟨rfl, rfl⟩ := hcj
      exact .inr ((writeMarked_vget_self grp avail pc t hn).trans (hca rfl rfl))
    · rw [writeMarked_vget_ne grp avail pc t hcj]
      refine h.imp_left ?_
      rintro ⟨d, hd, hdj⟩
      rcases List.mem_cons.1 hd with rfl | hd
      · exact absurd hdj hcj
      · exact ⟨d, hd, hdj⟩

end Sys2Proof.Proofs
end

section
/-! SUPPORT. Special registers (R60 to R62, R374 to R376, R396, R397): what GETS gives, and what SETS writes. -/

namespace Sys2Proof.Proofs

open Sys2Proof Sys2Proof.Machine Sys2Proof.Claims

/-! ### Their values -/

theorem foldl_or_flags (l : List (Nat × BitVec 5)) (a : BitVec 5) :
    l.foldl (fun a f => a ||| f.2) a = a ||| l.foldl (fun a f => a ||| f.2) 0 := by
  induction l generalizing a with
  | nil => simp
  | cons f l ih =>
    rw [List.foldl_cons, List.foldl_cons, ih, ih (0 ||| f.2), BitVec.or_assoc]
    simp

/-- FFLAGS at an issue (R62). -/
theorem settleFlags_fflags (t : Team) (cc : Nat) : (t.settleFlags cc).fflags = flagsAt t cc := foldl_or_flags _ _

/-- GETS of team scope reads the register's value (R60). -/
theorem special_of_teamRegisters (s : State) (x : Ctx) : ∀ e ∈ teamRegisters s x, s.special x e.1 = e.2 := by
  have hflags : s.special x 0x0A = (flagsAt (s.team x.team) x.cc).zeroExtend 64 := by
    rw [← settleFlags_fflags]; rfl
  simp only [teamRegisters, List.forall_mem_cons, hflags, true_and]
  exact ⟨rfl, rfl, rfl, rfl, rfl, rfl, rfl, rfl, rfl, rfl, rfl, rfl, rfl, rfl, rfl, nofun⟩

/-- GETS of thread scope reads the register's value, of its width (R60). -/
theorem special_of_threadRegisters (y : Thread) : ∀ e ∈ threadRegisters, wideSpecial e.1 = e.2.1 ∧ y.special e.1 = e.2.2 y := by
  simp only [threadRegisters, List.forall_mem_cons]
  exact ⟨⟨rfl, rfl⟩, ⟨rfl, rfl⟩, ⟨rfl, rfl⟩, ⟨rfl, rfl⟩, ⟨rfl, rfl⟩, nofun⟩

/-! ### The encodings (R374, R375, R396) -/

theorem specialWidth_of_wide {n : Nat} (h : wideSpecial n = true) : specialWidth n = 64 := by
  simp only [wideSpecial, Bool.or_eq_true, beq_iff_eq] at h
  obtain (rfl | rfl) | rfl := h <;> rfl

/-- What an encoding of thread scope names: a register of thread scope, which for SETS is no read-only one, and where it is wide an even
register for its pair. -/
theorem form_of_thread {f : FSpec} {write : Bool} (hvk : f.vk = 1) (h : f.form write = none) :
    specialThread f.num.toNat = true ∧ (write = true → specialRO f.num.toNat = false) ∧
      (wideSpecial f.num.toNat = true → evenReg f.sa = true) := by
  simp only [FSpec.form, hvk, beq_self_eq_true, if_true] at h
  split at h
  · cases h
  split at h
  · cases h
  next hro =>
  split at h
  · cases h
  next hthread =>
  split at h
  · cases h
  next hodd =>
  refine ⟨by simpa using hthread, fun hw => by simpa [hw] using hro, fun hw => ?_⟩
  simpa [specialWidth_of_wide hw] using hodd

/-- What an encoding of SETS of team scope names: a register of team scope that is no read-only one. -/
theorem form_of_team {f : FSpec} (hvk : f.vk = 0) (h : f.form true = none) :
    f.num.toNat ≤ 0x14 ∧ specialRO f.num.toNat = false ∧ specialThread f.num.toNat = false := by
  have hvk1 : (f.vk == 1) = false := by rw [hvk]; rfl
  simp only [FSpec.form, hvk1, Bool.false_eq_true, if_false] at h
  split at h
  · cases h
  next hle =>
  split at h
  · cases h
  next hro =>
  split at h
  · cases h
  next hthread =>
  exact ⟨Nat.le_of_not_lt hle, by simpa using hro, by simpa using hthread⟩

/-- v[32·IDX4[0] + SA] is a register that there is, and the one after an even SA too (R374). -/
theorem specReg_lt (f : FSpec) : specReg f < 64 ∧ (evenReg f.sa = true → specReg f + 1 < 64) := by
  have hhi : f.hi.toNat < 2 := f.hi.isLt
  have hsa : f.sa.toNat < 32 := f.sa.isLt
  unfold specReg evenReg
  refine ⟨by omega, fun h => ?_⟩
  have heven := beq_iff_eq.1 h
  omega

/-! ### GETS -/

theorem gangWrites_of_one (gs : List Nat) (n : Nat) (a : DWord) :
    gangWrites (gs.map (fun g => (g, .done [(n, a)]))) = gs.map (fun g => (g, n, a)) := by
  induction gs with
  | nil => rfl
  | cons g gs ih => rw [List.map_cons, List.map_cons, ← ih]; rfl

/-- GETS of team scope writes its register's value to s[SA] of every gang of the group (R375). -/
theorem exec_gets_team {f : FSpec} {s : State} {x : Ctx} (hvk : f.vk = 0) (h : Uniform s x []) : exec (.gets f) s =
    .next (s.writeS x (some 4) ((x.gangs (s.team x.team)).map (fun g => (g, f.sa.toNat, s.special x f.num.toNat)))) := by
  obtain ⟨hx, hearly, -⟩ := h
  have hgangs := gangs_of_still (v := getsGang f) (s := s) (x := x) (gs := x.gangs (s.team x.team))
    (out := fun _ => .done [(f.sa.toNat, s.special x f.num.toNat)]) (fun g _ => gang_of_clean nofun)
  have hissue := gangIssue_of_done (v := getsGang f) rfl rfl hearly hgangs fun o ho => by
    obtain ⟨g, -, rfl⟩ := List.mem_map.1 ho
    exact ⟨_, rfl⟩
  rw [gangWrites_of_one] at hissue
  show execGets f s = _
  rw [execGets, if_neg (by rw [hvk]; decide), execGangs, hx]
  exact congrArg _ hissue

theorem exec_gets_team_sHolds {f : FSpec} {s : State} {x : Ctx} {g : Nat} (hvk : f.vk = 0) (h : Uniform s x [])
    (hg : g ∈ x.gangs (s.team x.team)) :
    ∃ t, exec (.gets f) s = .next t ∧ SHolds (t.team x.team) g f.sa.toNat (s.special x f.num.toNat) := by
  refine ⟨_, exec_gets_team hvk h, ?_⟩
  rw [writeS_of_latency, State.team_updTeam]
  refine foldl_writeGang_sHolds _ _ _ f.sa.isLt ?_ ?_ _ (.inl ⟨_, List.mem_map_of_mem hg, rfl, rfl⟩)
  · intro c hc
    obtain ⟨_, -, rfl⟩ := List.mem_map.1 hc
    exact f.sa.isLt
  · intro c hc _ _
    obtain ⟨_, -, rfl⟩ := List.mem_map.1 hc
    rfl

/-- The words of a special register of a thread, for v[n] or its pair (R375). -/
def specWords (wide : Bool) (n : Nat) (a : DWord) : List (Nat × Word) := if wide then [(n, lo32 a), (n + 1, hi32 a)] else [(n, lo32 a)]

/-- GETS of thread scope writes its register's words to every thread of the group (R375). -/
theorem exec_gets_thread {f : FSpec} {s : State} {x : Ctx} (hvk : f.vk = 1) (h : Ready s x none []) : exec (.gets f) s =
    .next (s.writeSlots x (some 4) false (laneWords ((sortNat x.group).map (fun j =>
      (j, .vals (specWords (wideSpecial f.num.toNat) (specReg f) (((s.team x.team).thread j).special f.num.toNat))))))) := by
  obtain ⟨hx, hearly, -⟩ := h
  have hlanes := lanes_of_still (v := getsThread f) (s := s) (x := x) (tids := sortNat x.group)
    (out := fun j => .vals (specWords (wideSpecial f.num.toNat) (specReg f) (((s.team x.team).thread j).special f.num.toNat)))
    (fun j _ => lane_of_acting rfl rfl rfl) (fun _ _ => trivial)
  have hissue := threadIssue_of_completes (v := getsThread f) rfl hearly hlanes fun o ho => by
    obtain ⟨j, -, rfl⟩ := List.mem_map.1 ho
    trivial
  show execGets f s = _
  rw [execGets, if_pos hvk, execThreads, hx]
  exact congrArg _ hissue

theorem mem_laneWords_map {tids : List Nat} {w : Nat → List (Nat × Word)} {c : Nat × Nat × Word} :
    c ∈ laneWords (tids.map (fun j => (j, .vals (w j)))) ↔ c.1 ∈ tids ∧ c.2 ∈ w c.1 := by
  unfold laneWords
  rw [List.mem_flatMap]
  constructor
  · rintro ⟨o, ho, hc⟩
    obtain ⟨j, hj, rfl⟩ := List.mem_map.1 ho
    obtain ⟨a, ha, rfl⟩ := List.mem_map.1 hc
    exact ⟨hj, ha⟩
  · rintro ⟨hj, hc⟩
    exact ⟨_, List.mem_map_of_mem hj, List.mem_map.2 ⟨c.2, hc, rfl⟩⟩

/-- A thread of the group holds each word that the threads write to their own registers. -/
theorem vget_of_laneWords (grp avail : Nat) (pc : DWord) {tids : List Nat} {w : Nat → List (Nat × Word)} {j n : Nat} {a : Word} (hj : j ∈ tids)
    (hn : n < 64) (hw : (n, a) ∈ w j) (ha : ∀ b, (n, b) ∈ w j → b = a) (t : Team) :
    (((laneWords (tids.map (fun j => (j, .vals (w j))))).foldl (writeMarked grp avail pc) t).thread j).vget n = a := by
  refine foldl_writeMarked_vget grp avail pc hn ?_ t (.inl ⟨(j, n, a), mem_laneWords_map.2 ⟨hj, hw⟩, rfl, rfl⟩)
  rintro ⟨i, m, b⟩ hc rfl rfl
  exact ha b (mem_laneWords_map.1 hc).2

/-- A thread of the group holds the special register that its words are of, in v[n] or its pair. -/
theorem holds_of_specWords (grp avail : Nat) (pc : DWord) {f : FSpec} {wide : Bool} {tids : List Nat} {a : Nat → DWord} {j : Nat} (hj : j ∈ tids)
    (heven : wide = true → evenReg f.sa = true) (t : Team) :
    let u := (laneWords (tids.map (fun j => (j, .vals (specWords wide (specReg f) (a j)))))).foldl (writeMarked grp avail pc) t
    Holds (specDst f wide) u (u.thread j) (a j) := by
  intro u
  obtain ⟨hreg, hpair⟩ := specReg_lt f
  cases wide with
  | false => exact vget_of_laneWords grp avail pc hj hreg (by simp [specWords]) (by simp [specWords]) t
  | true =>
    have hlo : (u.thread j).vget (specReg f) = lo32 (a j) :=
      vget_of_laneWords grp avail pc hj hreg (by simp [specWords]) (by simp [specWords]) t
    have hhi : (u.thread j).vget (specReg f + 1) = hi32 (a j) :=
      vget_of_laneWords grp avail pc hj (hpair (heven rfl)) (by simp [specWords]) (by simp [specWords]) t
    show pair64 ((u.thread j).vget (specReg f)) ((u.thread j).vget (specReg f + 1)) = a j
    rw [hlo, hhi, pair64_lo_hi]

theorem exec_gets_thread_holds {f : FSpec} {s : State} {x : Ctx} {j : Nat} (hvk : f.vk = 1) (hf : (Instr.gets f).illForm = none)
    (h : Ready s x none []) (hj : j ∈ x.group) : ∃ t, exec (.gets f) s = .next t ∧
      Holds (specDst f (wideSpecial f.num.toNat)) (t.team x.team) ((t.team x.team).thread j) (((s.team x.team).thread j).special f.num.toNat) := by
  obtain ⟨-, -, heven⟩ := form_of_thread hvk hf
  refine ⟨_, exec_gets_thread hvk h, ?_⟩
  rw [writeSlots_of_latency, State.team_updTeam]
  exact holds_of_specWords _ _ _ (mem_sortNat.2 hj) heven _

/-- Settles O18: every gang completes with the one value, every thread with its own. -/
theorem specialRegisterReads : Obligations.SpecialRegisterReads := by
  unfold Obligations.SpecialRegisterReads
  refine ⟨fun f s x g hvk h hg e he hnum => ?_, fun f hvk hf e he hnum s x j vs hr _ => ?_⟩
  · rw [← special_of_teamRegisters s x e he, hnum]
    exact exec_gets_team_sHolds hvk h hg
  · obtain ⟨hwide, hval⟩ := special_of_threadRegisters ((s.team x.team).thread j) e he
    obtain ⟨hready, hj, -, -⟩ := hr
    dsimp only
    rw [← hval, ← hwide, hnum]
    exact exec_gets_thread_holds hvk hf hready hj

/-! ### SETS of team scope -/

section
variable (t : Team) (cc n : Nat) (a b : DWord)

theorem setSpecial_s : (t.setSpecial cc n a).s = t.s := by unfold Team.setSpecial; split <;> rfl
theorem setSpecial_sbad : (t.setSpecial cc n a).sbad = t.sbad := by unfold Team.setSpecial; split <;> rfl
theorem setSpecial_marks : (t.setSpecial cc n a).marks = t.marks := by unfold Team.setSpecial; split <;> rfl

/-- Of two writes of a special register the second remains (R62). -/
theorem setSpecial_setSpecial : (t.setSpecial cc n a).setSpecial cc n b = t.setSpecial cc n b := by
  unfold Team.setSpecial
  split <;> simp [Team.settleFlags]

/-- A write of a register of team scope that SETS may name (R60, R61). -/
theorem teamSet_setSpecial (hle : n ≤ 0x14) (hro : specialRO n = false) (hthread : specialThread n = false) :
    TeamSet n a t (t.setSpecial cc n a) := by
  have hn : n = 0x09 ∨ n = 0x0A ∨ n = 0x0B ∨ n = 0x11 ∨ n = 0x12 := by
    simp [specialRO, specialThread] at hro hthread
    omega
  obtain rfl | rfl | rfl | rfl | rfl := hn <;> rfl

end

theorem Tab.set_set {α : Type} (t : Tab α) (k : Nat) (a b : α) : (t.set k a).set k b = t.set k b := by
  induction t with
  | nil => simp [Tab.set]
  | cons c r ih =>
    obtain ⟨j, d⟩ := c
    simp only [Tab.set]
    split
    · simp [Tab.set]
    · split
      · simp [Tab.set]
      · next hne hlt => rw [Tab.set, if_neg hne, if_neg hlt, ih]

theorem updTeam_updTeam (s : State) (k : Nat) (f g : Team → Team) : (s.updTeam k f).updTeam k g = s.updTeam k (fun t => g (f t)) := by
  simp only [State.updTeam, State.team_setTeam]
  exact congrArg (fun ts => { s with teams := ts }) (Tab.set_set _ _ _ _)

/-- A special register of team scope of the issuing team written. -/
def withSpecial (s : State) (x : Ctx) (n : Nat) (a : DWord) : State := s.updTeam x.team (fun t => t.setSpecial x.cc n a)

theorem withSpecial_withSpecial (s : State) (x : Ctx) (n : Nat) (a b : DWord) :
    withSpecial (withSpecial s x n a) x n b = withSpecial s x n b := by
  unfold withSpecial
  rw [updTeam_updTeam]
  simp only [setSpecial_setSpecial]

/-- One gang of SETS writes the value of its s[SA] (R396). -/
theorem setsGang_gang {f : FSpec} {s : State} {x : Ctx} {g : Nat} (hpoison : (s.team x.team).spoison g f.sa.toNat = false)
    (hshort : f.sa.toNat = 0 ∨ (s.team x.team).short x { owner := g, slot := sSlot f.sa.toNat, early := 0 } = 0) :
    (setsGang f).gang x s g = (.done [], withSpecial s x f.num.toNat ((s.team x.team).sget g f.sa.toNat)) := by
  rw [gang_of_clean (by simpa [setsGang] using hpoison)]
  simp [setsGang, withSpecial, rdS_eq hshort]

/-- The gangs after the first find their s registers as they were. -/
theorem setsGang_gang_withSpecial {f : FSpec} {s : State} {x : Ctx} {g : Nat} {a : DWord}
    (hpoison : (s.team x.team).spoison g f.sa.toNat = false)
    (hshort : f.sa.toNat = 0 ∨ (s.team x.team).short x { owner := g, slot := sSlot f.sa.toNat, early := 0 } = 0) :
    (setsGang f).gang x (withSpecial s x f.num.toNat a) g = (.done [], withSpecial s x f.num.toNat ((s.team x.team).sget g f.sa.toNat)) := by
  have hteam : (withSpecial s x f.num.toNat a).team x.team = (s.team x.team).setSpecial x.cc f.num.toNat a := State.team_updTeam _ _ _
  have hsget : ((withSpecial s x f.num.toNat a).team x.team).sget g f.sa.toNat = (s.team x.team).sget g f.sa.toNat := by
    rw [hteam]; unfold Team.sget; rw [setSpecial_s]
  rw [setsGang_gang, withSpecial_withSpecial, hsget]
  · rw [hteam]; unfold Team.spoison at *; rwa [setSpecial_sbad]
  · rw [hteam]; unfold Team.short Team.markOf at *; rwa [setSpecial_marks]

/-- SETS of team scope leaves the value of the highest gang that has a real thread (R62, R396). -/
theorem exec_sets_team {f : FSpec} {s : State} {x : Ctx} {g : Nat} (hvk : f.vk = 0) (h : Uniform s x [f.sa.toNat])
    (hlast : (x.realGangs (s.team x.team)).getLast? = some g) :
    exec (.sets f) s = .next (withSpecial s x f.num.toNat ((s.team x.team).sget g f.sa.toNat)) := by
  have hsrc := fun g hg => Uniform.source h (mem_gangs_of_mem_realGangs (g := g) hg) (List.mem_singleton_self _)
  obtain ⟨hx, hearly, -⟩ := h
  have hgangs := gangs_of_overwriting (v := setsGang f) (s := s) (x := x)
    (w := fun g => withSpecial s x f.num.toNat ((s.team x.team).sget g f.sa.toNat)) hlast
    (fun g hg => setsGang_gang (hsrc g hg).1 (hsrc g hg).2)
    (fun _ _ g hg => setsGang_gang_withSpecial (hsrc g hg).1 (hsrc g hg).2)
  have hissue := gangIssue_of_done (v := setsGang f) rfl rfl hearly hgangs fun o ho => by
    obtain ⟨g, -, rfl⟩ := List.mem_map.1 ho
    exact ⟨_, rfl⟩
  have hnone : gangWrites ((x.realGangs (s.team x.team)).map (fun g => (g, .done []))) = [] := by
    simp [gangWrites]
  rw [hnone] at hissue
  show execSets f s = _
  rw [execSets, if_neg (by rw [hvk]; decide), execGangs, hx]
  exact congrArg _ hissue

/-! ### SETS of thread scope -/

section
variable {s s' : State} {x : Ctx}

/-- No operand is early where these reads are among others none of which is. -/
theorem anyEarly_of_subset {reads reads' : Nat → List Rd} (h : s.anyEarly x reads' = false) (hsub : ∀ j ∈ x.group, reads j ⊆ reads' j) :
    s.anyEarly x reads = false := by
  refine List.any_eq_false.2 fun j hj => ?_
  simp only [List.any_eq_true, decide_eq_true_eq, not_exists, not_and, Decidable.not_not]
  exact fun r hr => State.short_of_not_early h hj (hsub j hj hr)

/-- A thread that reads no operand and has no guard has no reads to compare. -/
theorem compared_nil (j : Nat) : s.compared x none [] j = [] := rfl

/-- A thread's registers, poison included, are as another's. -/
def SameRegisters (y z : Thread) : Prop := z.v = y.v ∧ z.p = y.p ∧ z.ix = y.ix ∧ z.bad = y.bad

theorem setSpecial_sameRegisters (y : Thread) (n : Nat) (a : DWord) : SameRegisters y (y.setSpecial n a) := by
  unfold Thread.setSpecial
  split <;> exact ⟨rfl, rfl, rfl, rfl⟩

theorem setSpecial_handler (y : Thread) (n : Nat) (a : DWord) : (y.setSpecial n a).handler = y.handler := by
  unfold Thread.setSpecial
  split <;> rfl

theorem setSpecial_idem (y : Thread) (n : Nat) (a : DWord) : (y.setSpecial n a).setSpecial n a = y.setSpecial n a := by
  unfold Thread.setSpecial
  split <;> simp

theorem SameRegisters.slotGet {y z : Thread} (h : SameRegisters y z) (n : Nat) : z.slotGet n = y.slotGet n := by
  obtain ⟨hv, hp, hix, -⟩ := h
  unfold Thread.slotGet Thread.vget
  rw [hv, hp, hix]

/-- An operand of own registers reads them. -/
theorem opd_own (j n : Nat) (wide : Bool) : s.opd x j (if wide then .v64 n else .v n) = .ok (s.opdOwn x j n 0 wide) := by
  cases wide <;> rfl

/-- What a thread's own registers give does not change where registers, marks and the count of free values do not. -/
theorem consume_own_congr (hfresh : s'.fresh = s.fresh) (hmarks : (s'.team x.team).marks = (s.team x.team).marks)
    (hsbad : (s'.team x.team).sbad = (s.team x.team).sbad)
    (hregs : ∀ i, SameRegisters ((s.team x.team).thread i) ((s'.team x.team).thread i)) (j n : Nat) (wide : Bool) :
    s'.consume x j [if wide then .v64 n else .v n] = s.consume x j [if wide then .v64 n else .v n] := by
  have hrd : s'.rd x = s.rd x := by
    funext r
    have hshort : (s'.team x.team).short x r = (s.team x.team).short x r := by
      unfold Team.short Team.markOf
      rw [hmarks]
    unfold State.rd
    dsimp only
    rw [hshort, (hregs r.owner).slotGet, hfresh]
  have hpoison : (s'.team x.team).poisoned = (s.team x.team).poisoned := by
    funext r
    obtain ⟨-, -, -, hbad⟩ := hregs r.owner
    unfold Team.poisoned Team.spoison
    rw [hbad, hsbad]
  have hown : s'.opdOwn x j n 0 wide = s.opdOwn x j n 0 wide := by
    unfold State.opdOwn
    rw [hrd]
  simp only [State.consume, opd_own, hown, Team.consumed, hpoison]

/-- The operand's value, where it is consumed. -/
def sourceOf (s : State) (x : Ctx) (os : List Opd) (j : Nat) : DWord :=
  match s.consume x j os with
  | .ok vs => Machine.val1 vs 0
  | .error _ => 0

theorem sourceOf_eq {os : List Opd} {j : Nat} {vs : List (List (Option DWord))} (h : s.consume x j os = .ok vs) :
    sourceOf s x os j = Machine.val1 vs 0 := by
  unfold sourceOf
  rw [h]

/-- What SETS leaves of a thread: in a user handler its special register written (R61). -/
def setsTarget (f : FSpec) (s : State) (x : Ctx) (j : Nat) : Thread :=
  let y := (s.team x.team).thread j
  if y.handler then y.setSpecial f.num.toNat (sourceOf s x (setsThread f).opds j) else y

/-- A state between threads of SETS: each thread is as it was, or as SETS leaves it, and nothing else has changed. -/
structure SetsMidway (f : FSpec) (s : State) (x : Ctx) (s' : State) : Prop where
  outside : OutsideTeams s s'
  team : { s'.team x.team with threads := (s.team x.team).threads } = s.team x.team
  thread : ∀ j, (s'.team x.team).thread j = (s.team x.team).thread j ∨ (s'.team x.team).thread j = setsTarget f s x j

variable {f : FSpec}

theorem setsTarget_sameRegisters (j : Nat) : SameRegisters ((s.team x.team).thread j) (setsTarget f s x j) := by
  unfold setsTarget
  dsimp only
  split
  · exact setSpecial_sameRegisters _ _ _
  · exact ⟨rfl, rfl, rfl, rfl⟩

theorem setsTarget_handler (j : Nat) : (setsTarget f s x j).handler = ((s.team x.team).thread j).handler := by
  unfold setsTarget
  dsimp only
  split
  · exact setSpecial_handler _ _ _
  · rfl

theorem SetsMidway.consume (h : SetsMidway f s x s') (j : Nat) :
    s'.consume x j (setsThread f).opds = s.consume x j (setsThread f).opds := by
  obtain ⟨hout, hteam, hthread⟩ := h
  have hfresh : s'.fresh = s.fresh := (congrArg State.fresh hout : _)
  have hmarks : (s'.team x.team).marks = (s.team x.team).marks := (congrArg Team.marks hteam : _)
  have hsbad : (s'.team x.team).sbad = (s.team x.team).sbad := (congrArg Team.sbad hteam : _)
  refine consume_own_congr hfresh hmarks hsbad (fun i => ?_) j (specReg f) (wideSpecial f.num.toNat)
  rcases hthread i with hi | hi
  · rw [hi]; exact ⟨rfl, rfl, rfl, rfl⟩
  · rw [hi]; exact setsTarget_sameRegisters i

theorem SetsMidway.handler (h : SetsMidway f s x s') (j : Nat) :
    ((s'.team x.team).thread j).handler = ((s.team x.team).thread j).handler := by
  rcases h.thread j with hj | hj
  · rw [hj]
  · rw [hj, setsTarget_handler]

/-- One thread of SETS ends as it leaves it, whatever the others have done. -/
theorem SetsMidway.lane (h : SetsMidway f s x s') {j : Nat} {vs : List (List (Option DWord))}
    (hv : s.consume x j (setsThread f).opds = .ok vs) : ∃ t, (setsThread f).lane x s' j = (.done, t) ∧ SetsMidway f s x t ∧
      (t.team x.team).thread j = setsTarget f s x j ∧ ∀ i, i ≠ j → (t.team x.team).thread i = (s'.team x.team).thread i := by
  have hsource := sourceOf_eq hv
  cases hh : ((s.team x.team).thread j).handler with
  | false =>
    have htarget : setsTarget f s x j = (s.team x.team).thread j := by
      unfold setsTarget; simp only [hh, Bool.false_eq_true, if_false]
    refine ⟨s', lane_of_idle rfl ((h.handler j).trans hh), h, ?_, fun _ _ => rfl⟩
    exact (h.thread j).elim (fun hj => hj.trans htarget.symm) id
  | true =>
    have htarget : setsTarget f s x j = ((s.team x.team).thread j).setSpecial f.num.toNat (Machine.val1 vs 0) := by
      unfold setsTarget; simp only [hh, if_true, hsource]
    have hset : ((s'.team x.team).thread j).setSpecial f.num.toNat (Machine.val1 vs 0) = setsTarget f s x j := by
      rcases h.thread j with hj | hj
      · rw [hj, htarget]
      · rw [hj, htarget, setSpecial_idem]
    have hlane := lane_of_acting (v := setsThread f) (x := x) rfl ((h.handler j).trans hh) ((h.consume j).trans hv)
    have hself : ((s'.updThread x.team j (fun y => y.setSpecial f.num.toNat (Machine.val1 vs 0))).team x.team).thread j = setsTarget f s x j := by
      rw [State.thread_updThread, hset]
    have hne : ∀ i, i ≠ j → ((s'.updThread x.team j (fun y => y.setSpecial f.num.toNat (Machine.val1 vs 0))).team x.team).thread i =
        (s'.team x.team).thread i := fun i hi => by
      rw [State.updThread, State.team_setTeam, Team.thread_setThread_ne _ _ hi]
    refine ⟨_, hlane, ⟨h.outside, ?_, fun i => ?_⟩, hself, hne⟩
    · rw [State.updThread, State.team_setTeam]; exact h.team
    · by_cases hi : i = j
      · subst hi; exact .inr hself
      · rw [hne i hi]; exact h.thread i

/-- The threads of SETS in turn. -/
theorem SetsMidway.lanes {tids : List Nat} (h : SetsMidway f s x s') (hv : ∀ j ∈ tids, ∃ vs, s.consume x j (setsThread f).opds = .ok vs) :
    ∃ t, (setsThread f).lanes x s' tids = (tids.map (fun j => (j, .done)), t) ∧ SetsMidway f s x t ∧
      ∀ j, j ∈ tids ∨ (s'.team x.team).thread j = setsTarget f s x j → (t.team x.team).thread j = setsTarget f s x j := by
  induction tids generalizing s' with
  | nil => exact ⟨s', rfl, h, fun j hj => hj.resolve_left (by simp)⟩
  | cons i tids ih =>
    obtain ⟨⟨vs, hvs⟩, hv⟩ := List.forall_mem_cons.1 hv
    obtain ⟨t, ht, hmid, hi, hother⟩ := h.lane hvs
    obtain ⟨u, hu, hend, hall⟩ := ih hmid hv
    refine ⟨u, by rw [lanes_cons ht trivial, hu, List.map_cons], hend, fun j hj => hall j ?_⟩
    by_cases hji : j = i
    · subst hji; exact .inr hi
    · rw [hother j hji]
      exact hj.imp_left fun hm => (List.mem_cons.1 hm).resolve_left hji

theorem laneWords_of_done (tids : List Nat) : laneWords (tids.map (fun j => (j, .done))) = [] := by
  simp [laneWords]

/-- SETS of thread scope where no operand is early and every thread completes: the threads in turn, and nothing else. -/
theorem exec_sets_of_lanes {t : State} (hvk : f.vk = 1) (hx : s.ctx = some x)
    (hearly : s.anyEarly x (threadReads (setsThread f) s x) = false)
    (h : (setsThread f).lanes x s (sortNat x.group) = ((sortNat x.group).map (fun j => (j, .done)), t)) : exec (.sets f) s = .next t := by
  have hissue := threadIssue_of_completes (v := setsThread f) rfl hearly h fun o ho => by
    obtain ⟨j, -, rfl⟩ := List.mem_map.1 ho
    trivial
  rw [laneWords_of_done] at hissue
  show execSets f s = _
  rw [execSets, if_pos hvk, execThreads, hx]
  exact congrArg _ hissue

/-- SETS of thread scope writes the special register of every thread of the group that is in a user handler (R61, R396). -/
theorem exec_sets_thread (hvk : f.vk = 1) (h : Ready s x none (setsThread f).opds) : ∃ t, exec (.sets f) s = .next t ∧ OutsideTeams s t ∧
    ∀ j ∈ x.group, (t.team x.team).thread j = setsTarget f s x j := by
  obtain ⟨hx, hearly, hall⟩ := h
  have hreads : s.anyEarly x (threadReads (setsThread f) s x) = false := anyEarly_of_subset hearly fun j _ => by
    unfold threadReads
    split
    · exact List.Subset.refl _
    · exact List.nil_subset _
  obtain ⟨t, ht, hmid, hend⟩ := SetsMidway.lanes (f := f) (s := s) (x := x) (tids := sortNat x.group) ⟨rfl, rfl, fun _ => .inl rfl⟩
    fun j hj => (hall j (mem_sortNat.1 hj)).2 rfl
  exact ⟨t, exec_sets_of_lanes hvk hx hreads ht, hmid.outside, fun j hj => hend j (.inl (mem_sortNat.2 hj))⟩

/-- Outside a user handler SETS of thread scope is ignored, and its register is not read (R61). -/
theorem exec_sets_outside (hvk : f.vk = 1) (hx : s.ctx = some x) (h : ∀ j ∈ x.group, ((s.team x.team).thread j).handler = false) :
    exec (.sets f) s = .next s := by
  have hreads : s.anyEarly x (threadReads (setsThread f) s x) = false := by
    refine List.any_eq_false.2 fun j hj => ?_
    have hnil : threadReads (setsThread f) s x j = [] := by
      unfold threadReads
      rw [if_neg]
      · rfl
      · rw [show (setsThread f).acts _ = _ from h j hj]; exact Bool.false_ne_true
    rw [hnil]
    exact Bool.false_ne_true
  refine exec_sets_of_lanes hvk hx hreads (lanes_of_still (out := fun _ => .done) (fun j hj => ?_) (fun _ _ => trivial))
  exact lane_of_idle rfl (h j (mem_sortNat.1 hj))

end

/-- The registers of thread scope that SETS may name (R60). -/
theorem writable_thread_special {n : Nat} (hro : specialRO n = false) (hthread : specialThread n = true) :
    n = 0x0C ∨ n = 0x0D ∨ n = 0x0E ∨ n = 0x0F := by
  simp [specialRO, specialThread] at hro hthread
  omega

/-- A write of one of them (R61). -/
theorem threadSet_setSpecial {n : Nat} (hro : specialRO n = false) (hthread : specialThread n = true) (y : Thread) (a : DWord) :
    ThreadSet n a y (y.setSpecial n a) := by
  obtain rfl | rfl | rfl | rfl := writable_thread_special hro hthread <;> rfl

/-- All of them but TRAPCAUSE are wide (R60). -/
theorem wideSpecial_eq {n : Nat} (hro : specialRO n = false) (hthread : specialThread n = true) : wideSpecial n = (n != 0x0C) := by
  obtain rfl | rfl | rfl | rfl := writable_thread_special hro hthread <;> rfl

theorem setsThread_opds {f : FSpec} (hro : specialRO f.num.toNat = false) (hthread : specialThread f.num.toNat = true) :
    (setsThread f).opds = [specOpd f (f.num.toNat != 0x0C)] := by
  rw [← wideSpecial_eq hro hthread]
  rfl

theorem sc_eq_val1 (vs : List (List (Option DWord))) : sc vs 0 = Machine.val1 vs 0 := by
  cases vs <;> rfl

/-- Settles O19: the gangs overwrite one register in turn, and each thread in a handler writes its own. -/
theorem specialRegisterWrites : Obligations.SpecialRegisterWrites := by
  unfold Obligations.SpecialRegisterWrites
  refine ⟨fun f s x g hvk hf h hlast => ?_, fun f s x j vs hvk hf hr => ?_, fun f s x hvk _ hx h => exec_sets_outside hvk hx h⟩
  · obtain ⟨hle, hro, hthread⟩ := form_of_team hvk hf
    refine ⟨_, exec_sets_team hvk h hlast, rfl, fun k hk => State.team_updTeam_ne _ _ hk, ?_⟩
    rw [withSpecial, State.team_updTeam]
    exact teamSet_setSpecial _ _ _ _ hle hro hthread
  · obtain ⟨hthread, hro, -⟩ := form_of_thread hvk hf
    have hro := hro rfl
    rw [← setsThread_opds hro hthread] at hr
    obtain ⟨hready, hj, -, hvs⟩ := hr
    obtain ⟨t, ht, hout, htarget⟩ := exec_sets_thread hvk hready
    refine ⟨t, ht, hout, ?_⟩
    rw [htarget j hj, setsTarget, sc_eq_val1]
    split
    · rw [sourceOf_eq hvs]
      exact threadSet_setSpecial hro hthread _ _
    · rfl

end Sys2Proof.Proofs
end

section
/-! SUPPORT. What reset leaves (R82, R153, R250, R276, R307, R308, R330, R332, R337, R338): every table is empty, and what an empty table
reads as. -/

namespace Sys2Proof.Proofs

open Sys2Proof Sys2Proof.Machine Sys2Proof.Claims

/-- Memory that lists no byte is in its canonical form, and Castle has locked the action table (R332). -/
theorem reset_inv : State.reset.Inv := ⟨rfl, rfl⟩

/-- Every ring of the partition and of its dies is unconfigured and empty (R308). -/
theorem reset_ring (r : RingId) : State.reset.ring r = Ring.empty := by
  cases r with
  | kill | error | fault d | service d | plog d => rfl

/-- No queue is enabled: the control register of each is zero (R250). -/
theorem reset_queue_en (n : Nat) : (State.reset.queue n).en = false := by
  have hqueue : State.reset.queue n = Queue.empty := rfl
  rw [hqueue]
  rfl

/-- Settles O59: field by field, from what reset writes and what an empty table reads as. -/
theorem resetLeaves : Obligations.ResetLeaves := by
  unfold Obligations.ResetLeaves
  exact ⟨reset_inv, fun _ => rfl, reset_ring, rfl, rfl, rfl, rfl, rfl, fun _ => rfl, rfl, fun _ => rfl, reset_queue_en⟩

end Sys2Proof.Proofs
end

section
/-! SUPPORT. What is performed at a home (R154, R169, R180, R186 to R190, R249): the bytes of an access of either width, stores in
their order, and near-memory updates; and what a scope's release and acquire do. -/

namespace Sys2Proof.Proofs

open Sys2Proof Sys2Proof.Machine Sys2Proof.Claims

/-! ### Bytes and operations of two widths -/

/-- The low bytes of a number are those of what is left below them. -/
theorem toBytes_mod (n v : Nat) : toBytes n (v % 256 ^ n) = toBytes n v := by
  induction n generalizing v with
  | zero => rfl
  | succ n ih =>
    have hdiv : v % 256 ^ (n + 1) / 256 = v / 256 % 256 ^ n := by
      rw [Nat.pow_succ', Nat.mod_mul_right_div_self]
    have hlow : BitVec.ofNat 8 (v % 256 ^ (n + 1)) = BitVec.ofNat 8 v := by
      apply BitVec.eq_of_toNat_eq
      rw [BitVec.toNat_ofNat, BitVec.toNat_ofNat, Nat.pow_succ']
      exact Nat.mod_mul_right_mod v 256 _
    rw [toBytes, toBytes, hdiv, hlow, ih]

theorem lo32_toNat (a : DWord) : (lo32 a).toNat = a.toNat % 2 ^ 32 := by
  simp [lo32]

theorem toBytes_lo32 (a : DWord) : toBytes 4 (lo32 a).toNat = toBytes 4 a.toNat := by
  rw [lo32_toNat]; exact toBytes_mod 4 _

theorem lo32_ofNat (n : Nat) : lo32 (BitVec.ofNat 64 n) = BitVec.ofNat 32 n := by
  apply BitVec.eq_of_toNat_eq
  rw [lo32_toNat, BitVec.toNat_ofNat, BitVec.toNat_ofNat]
  omega

theorem lo32_add (a b : DWord) : lo32 (a + b) = lo32 a + lo32 b := by
  apply BitVec.eq_of_toNat_eq
  rw [BitVec.toNat_add, lo32_toNat, lo32_toNat, lo32_toNat, BitVec.toNat_add]
  omega

theorem lo32_zeroExtend (a : Word) : lo32 (a.zeroExtend 64) = a := by
  apply BitVec.eq_of_toNat_eq
  rw [lo32_toNat, BitVec.zeroExtend, BitVec.toNat_setWidth]
  omega

/-- A 32-bit update gives the low words' step, a 64-bit one the words' (R169). -/
theorem nmNew_wide {op : NmOp} (old a : DWord) (h : ¬(op = .fadd ∨ op = .fmax ∨ op = .fmin)) : nmNew op true old a = nmStep op old a := by
  cases op with
  | fadd | fmax | fmin => simp at h
  | add | maxS | minS | maxU | minU => rfl

theorem lo32_nmNew (op : NmOp) (old a : DWord) : lo32 (nmNew op false old a) = nmStep op (lo32 old) (lo32 a) := by
  cases op with
  | add => exact lo32_add old a
  | maxS | minS | maxU | minU => exact apply_ite lo32 _ _ _
  | fadd | fmax | fmin => exact lo32_ofNat _

theorem atomNew_wide {op : AtomOp} (old a b : DWord) (h : op ≠ .fadd) : atomNew op true old a b = atomStep op old a b := by
  cases op with
  | fadd => exact absurd rfl h
  | cas => simp only [atomNew, atomStep, if_true, BitVec.toNat_inj]
  | add | and | or | xor | minS | maxS | minU | maxU | xchg => rfl

theorem lo32_atomNew (op : AtomOp) (old a b : DWord) :
    (atomNew op false old a b).map lo32 = atomStep op (lo32 old) (lo32 a) (lo32 b) := by
  cases op with
  | add => exact congrArg some ((lo32_zeroExtend _).trans (lo32_add old a))
  | and => exact congrArg some (BitVec.extractLsb'_and ..)
  | or => exact congrArg some (BitVec.extractLsb'_or ..)
  | xor => exact congrArg some (BitVec.extractLsb'_xor ..)
  | minS | maxS | minU | maxU => exact congrArg some (apply_ite lo32 _ _ _)
  | xchg => rfl
  | cas =>
    simp only [atomNew, atomStep, Bool.false_eq_true, if_false, BitVec.toNat_inj]
    split <;> rfl
  | fadd => exact congrArg some (lo32_ofNat _)

/-! ### Poison -/

theorem mem_setIns_of_mem {l : List Nat} {a k : Nat} (h : a ∈ l) : a ∈ setIns l k := by
  induction l with
  | nil => cases h
  | cons j l ih =>
    unfold setIns
    split
    · exact h
    · split
      · exact List.mem_cons_of_mem _ h
      · exact List.mem_cons.2 ((List.mem_cons.1 h).imp_right ih)

theorem mem_foldl_setIns_of_mem {l : List Nat} {a : Nat} (ks : List Nat) (h : a ∈ l) : a ∈ ks.foldl setIns l := by
  induction ks generalizing l with
  | nil => exact h
  | cons k ks ih => exact ih (mem_setIns_of_mem h)

theorem putBytes_fixed (m : Memory) (pa : Nat) (bs : List Byte) : (m.putBytes pa bs).fixed = m.fixed := by
  induction bs generalizing m pa with
  | nil => rfl
  | cons b bs ih => exact ih _ _

/-- A word of a lost granule that has been written stays written (R323). -/
theorem mem_write_fixed {m : Memory} {w : Nat} (pa : Nat) (bs : List Byte) (h : w ∈ m.fixed) : w ∈ (m.write pa bs).fixed := by
  have hfixed : (m.write pa bs).fixed = ((m.putBytes pa bs).heal pa bs.length).fixed := by
    unfold Memory.write Memory.lineFlags Memory.unzero
    split <;> split <;> rfl
  rw [hfixed]
  unfold Memory.heal
  dsimp only
  rw [putBytes_fixed]
  split
  · exact h
  · exact mem_foldl_setIns_of_mem _ h

theorem lostWord_of_write {m : Memory} {w : Nat} (pa : Nat) (bs : List Byte) (h : (m.write pa bs).lostWord w = true) :
    m.lostWord w = true := by
  unfold Memory.lostWord at *
  rw [Memory.write_lost] at h
  simp only [Bool.and_eq_true, Bool.not_eq_true', List.all_eq_false, List.contains_iff_mem] at h ⊢
  obtain ⟨hlost, v, hv, hfixed⟩ := h
  exact ⟨hlost, v, hv, fun hm => hfixed (mem_write_fixed pa bs hm)⟩

/-- A write poisons no word (R154). -/
theorem poisoned_write_of_clean {m : Memory} {a n : Nat} (pa : Nat) (bs : List Byte) (h : m.poisoned a n = false) :
    (m.write pa bs).poisoned a n = false := by
  unfold Memory.poisoned Memory.lostIn at *
  rw [Bool.or_eq_false_iff] at h ⊢
  obtain ⟨hbad, hlost⟩ := h
  constructor
  · rw [Memory.write_bad]
    rw [List.any_eq_false] at hbad ⊢
    exact fun w hw => hbad w (List.mem_filter.1 hw).1
  · rw [Memory.write_lost]
    split
    · rfl
    · next hne =>
      simp only [hne, Bool.false_eq_true, if_false, Bool.not_eq_false', List.isEmpty_iff, List.filter_eq_nil_iff] at hlost ⊢
      exact fun w hw hl => hlost w hw (lostWord_of_write pa bs hl)

/-! ### Accesses performed -/

/-- Accesses of core c that lead from s to t leave the core as k and memory as m; the teams are as they were, and where nothing
waited for a line, still nothing does. -/
structure Performed (s : State) (c : Nat) (k : Core) (m : Memory) (t : State) : Prop where
  core : t.core c = k
  mem : t.mem = m
  teams : t.teams = s.teams
  quiet : Quiet s → Quiet t

section
variable {s t u : State} {c : Nat}

theorem Performed.refl (s : State) (c : Nat) : Performed s c (s.core c) s.mem s := ⟨rfl, rfl, rfl, id⟩

theorem Performed.trans {k k' : Core} {m m' : Memory} (h : Performed s c k m t) (h' : Performed t c k' m' u) : Performed s c k' m' u :=
  ⟨h'.core, h'.mem, h'.teams.trans h.teams, h'.quiet ∘ h.quiet⟩

theorem Performed.team {k : Core} {m : Memory} (h : Performed s c k m t) (n : Nat) : t.team n = s.team n :=
  congrArg (Tab.get Team.empty · n) h.teams

theorem performed_updCore (s : State) (c : Nat) (f : Core → Core) : Performed s c (f (s.core c)) s.mem (s.updCore c f) :=
  ⟨s.core_updCore c f, rfl, rfl, id⟩

/-- A store of the physical function writes memory (R180). -/
theorem performed_storeHome (c pa : Nat) (bs : List Byte) (h : Quiet s) :
    Performed s c (s.core c) (s.mem.write pa bs) (s.storeHome pa bs 0) := by
  obtain ⟨hmon, hwait, htab⟩ := h
  rw [s.storeHome_quiet pa bs hmon htab hwait]
  refine ⟨rfl, rfl, rfl, fun _ => ⟨hmon, ?_, htab⟩⟩
  simp only [State.dropResv, State.setMem_harts]
  refine Tab.noneWaits_mapVal (fun n h => ?_) hwait
  split
  · split <;> rfl
  · rfl

/-! ### Stores in order -/

/-- A store that carries no VMID leaves its core's queue and writes memory. -/
theorem performed_performStoreAt {st : Store} {rest : List Store} (hq : (s.core c).stq = st :: rest) (hv : st.vmid = 0) (h : Quiet s) :
    Performed s c { s.core c with stq := rest } (s.mem.write st.pa st.bytes) (s.performStoreAt c 0) := by
  have hdrop := performed_updCore s c (fun k => { k with stq := dropAt k.stq 0 })
  have hhome := performed_storeHome c st.pa st.bytes (hdrop.quiet h)
  rw [hdrop.core] at hhome
  simp only [State.performStoreAt, hq, List.getElem?_cons_zero, hv, dropAt] at hhome ⊢
  exact hdrop.trans hhome

/-- Memory after stores, the oldest first. -/
def storesWritten (m : Memory) (l : List Store) : Memory := l.foldl (fun m st => m.write st.pa st.bytes) m

theorem poisoned_storesWritten {m : Memory} {a n : Nat} (l : List Store) (h : m.poisoned a n = false) :
    (storesWritten m l).poisoned a n = false := by
  induction l generalizing m with
  | nil => exact h
  | cons st l ih => exact ih (poisoned_write_of_clean st.pa st.bytes h)

/-- A core that has no arrival and no signature on its way has its oldest store as the first of what it issued. -/
theorem oldest_of_stores {k : Core} {st : Store} {rest : List Store} {n m : Nat} (ha : k.arrivals = []) (hg : k.sigs = [])
    (hq : k.stq = st :: rest) (hseq : st.seq < m) : k.oldest n m = some .store := by
  simp [Core.oldest, ha, hg, hq, Option.filter, hseq, minBy]

/-- Stores that alone are on their way, all numbered below a place, are performed in their order. -/
theorem performed_performInOrder {l : List Store} {n m : Nat} (hq : (s.core c).stq = l) (ha : (s.core c).arrivals = [])
    (hg : (s.core c).sigs = []) (h : Quiet s) (hl : ∀ st ∈ l, st.vmid = 0 ∧ st.seq < m) :
    Performed s c { s.core c with stq := [] } (storesWritten s.mem l) (s.performInOrder c n m l.length) := by
  induction l generalizing s with
  | nil =>
    have hk : { s.core c with stq := [] } = s.core c := by rw [← hq]
    rw [hk]
    exact Performed.refl s c
  | cons st l ih =>
    obtain ⟨⟨hv, hseq⟩, hl⟩ := List.forall_mem_cons.1 hl
    have hfirst := performed_performStoreAt hq hv h
    have hrest := ih (s := s.performStoreAt c 0) (by rw [hfirst.core]) (by rw [hfirst.core]; exact ha) (by rw [hfirst.core]; exact hg)
      (hfirst.quiet h) hl
    rw [hfirst.core, hfirst.mem] at hrest
    simp only [List.length_cons, State.performInOrder, oldest_of_stores ha hg hq hseq]
    exact hfirst.trans hrest

theorem performed_settleBefore {n : Nat} (ha : (s.core c).arrivals = []) (hg : (s.core c).sigs = []) (h : Quiet s)
    (hl : ∀ st ∈ (s.core c).stq, st.vmid = 0 ∧ st.seq < n) :
    Performed s c { s.core c with stq := [] } (storesWritten s.mem (s.core c).stq) (s.settleBefore c n) := by
  have hcount : (s.core c).underWay = (s.core c).stq.length := by simp [Core.underWay, ha, hg]
  rw [State.settleBefore, hcount]
  exact performed_performInOrder rfl ha hg h hl

theorem le_foldl_max (l : List Nat) (b : Nat) : b ≤ l.foldl (fun m n => max m (n + 1)) b := by
  induction l generalizing b with
  | nil => exact Nat.le_refl b
  | cons a l ih => exact Nat.le_trans (Nat.le_max_left b (a + 1)) (ih _)

theorem lt_foldl_max {l : List Nat} {a : Nat} (h : a ∈ l) (b : Nat) : a < l.foldl (fun m n => max m (n + 1)) b := by
  induction l generalizing b with
  | nil => cases h
  | cons d l ih =>
    rcases List.mem_cons.1 h with rfl | h
    · exact Nat.lt_of_lt_of_le (Nat.le_max_right b (a + 1)) (le_foldl_max l _)
    · exact ih h _

/-- The place after everything is after every store. -/
theorem seq_lt_topSeq {k : Core} {st : Store} (h : st ∈ k.stq) : st.seq < k.topSeq :=
  lt_foldl_max (List.mem_append_right _ (List.mem_map.2 ⟨st, h, rfl⟩)) _

/-- What is on its way at a core is all performed where it is stores alone. -/
theorem performed_settleAll (ha : (s.core c).arrivals = []) (hg : (s.core c).sigs = []) (h : Quiet s)
    (hv : ∀ st ∈ (s.core c).stq, st.vmid = 0) :
    Performed s c { s.core c with stq := [] } (storesWritten s.mem (s.core c).stq) (s.settleAll c) :=
  performed_settleBefore ha hg h fun st hst => ⟨hv st hst, seq_lt_topSeq hst⟩

/-- A core with nothing on its way has nothing to perform before a place. -/
theorem settleBefore_idle (n : Nat) (hq : (s.core c).stq = []) (ha : (s.core c).arrivals = []) (hg : (s.core c).sigs = []) :
    s.settleBefore c n = s := by
  refine s.performInOrder_none c n n _ ?_
  simp [Core.oldest, hq, ha, hg, minBy]

/-! ### The oldest store -/

/-- Nothing is before the oldest store where it follows no arrival and no signature (R181). -/
theorem settleBefore_oldest {st : Store} {rest : List Store} (hq : (s.core c).stq = st :: rest)
    (hsync : st.rel = true ∨ st.after ≠ 0 → (s.core c).arrivals = [] ∧ (s.core c).sigs = []) :
    s.settleBefore c (if st.rel = true then st.seq else min st.after st.seq) = s := by
  by_cases hfollow : st.rel = true ∨ st.after ≠ 0
  · obtain ⟨ha, hg⟩ := hsync hfollow
    have hself : ¬st.seq < (if st.rel = true then st.seq else min st.after st.seq) := by split <;> omega
    refine s.performInOrder_none c _ _ _ ?_
    simp [Core.oldest, ha, hg, hq, Option.filter, hself, minBy]
  · obtain ⟨hrel, hafter⟩ := not_or.1 hfollow
    rw [if_neg hrel, Classical.not_not.1 hafter, Nat.zero_min, State.settleBefore_zero]

theorem storeTurn_zero (k : Core) : k.storeTurn 0 = 0 := by
  unfold Core.storeTurn
  split
  · rfl
  · exact ite_self 0

theorem performStore_oldest {st : Store} {rest : List Store} (hq : (s.core c).stq = st :: rest)
    (hsync : st.rel = true ∨ st.after ≠ 0 → (s.core c).arrivals = [] ∧ (s.core c).sigs = []) :
    s.performStore c 0 = s.performStoreAt c 0 := by
  have hsettled := settleBefore_oldest hq hsync
  simp only [State.performStore, storeTurn_zero, hq, List.getElem?_cons_zero]
  rw [hsettled]

/-! ### Near-memory updates -/

/-- The bytes that an update of a width that its operation has writes (R169, R390). -/
theorem write_nmNew (m : Memory) {r : NmReq} (h : PlainUpdate r) :
    m.write r.pa (toBytes (if r.wide then 8 else 4)
      (nmNew r.op r.wide (BitVec.ofNat 64 (m.readNat r.pa (if r.wide then 8 else 4))) r.v).toNat) = updated m r := by
  obtain ⟨-, hop⟩ := h
  unfold updated
  cases hw : r.wide with
  | true =>
    have hint : ¬(r.op = .fadd ∨ r.op = .fmax ∨ r.op = .fmin) := fun hf => by simp [hop hf] at hw
    simp only [if_true, nmNew_wide _ _ hint]
  | false =>
    simp only [Bool.false_eq_true, if_false]
    rw [← toBytes_lo32, lo32_nmNew, lo32_ofNat]

theorem performed_nmHome (c : Nat) {r : NmReq} (hr : PlainUpdate r) (hm : s.mem.poisoned r.pa (if r.wide = true then 8 else 4) = false)
    (h : Quiet s) : Performed s c (s.core c) (updated s.mem r) (s.nmHome r) := by
  have hv := hr.1
  simp only [State.nmHome, hm, Bool.false_eq_true, if_false, hv]
  rw [← write_nmNew s.mem hr]
  exact performed_storeHome c _ _ h

/-- An update is performed after what it follows: where that leaves memory as m, the update finds m. -/
theorem performed_performNm {i : Nat} {r : NmReq} {k : Core} {m : Memory} (hi : (s.core c).nmq[i]? = some r) (hr : PlainUpdate r)
    (hm : m.poisoned r.pa (if r.wide = true then 8 else 4) = false)
    (hs : Performed s c k m ((s.updCore c (fun k => { k with nmq := dropAt k.nmq i })).settleBefore c r.after)) (h : Quiet s) :
    Performed s c k (updated m r) (s.performNm c i) := by
  have hhome := performed_nmHome c hr (by rw [hs.mem]; exact hm) (hs.quiet h)
  rw [hs.core, hs.mem] at hhome
  simp only [State.performNm, hi]
  exact hs.trans hhome

/-- An update follows nothing: none of its thread's FENCE.NMs puts a store before it, or its core has nothing on its way (R190). -/
def FollowsNothing (k : Core) (r : NmReq) : Prop := r.after = 0 ∨ k.stq = [] ∧ k.arrivals = [] ∧ k.sigs = []

theorem settleBefore_of_followsNothing {r : NmReq} (h : FollowsNothing (s.core c) r) : s.settleBefore c r.after = s := by
  rcases h with h | ⟨hq, ha, hg⟩
  · rw [h, State.settleBefore_zero]
  · exact settleBefore_idle _ hq ha hg

theorem performed_performNm_alone {i : Nat} {r : NmReq} (hi : (s.core c).nmq[i]? = some r) (hr : PlainUpdate r)
    (hf : FollowsNothing (s.core c) r) (hm : s.mem.poisoned r.pa (if r.wide = true then 8 else 4) = false) (h : Quiet s) :
    Performed s c { s.core c with nmq := dropAt (s.core c).nmq i } (updated s.mem r) (s.performNm c i) := by
  refine performed_performNm hi hr hm ?_ h
  have hdrop := performed_updCore s c (fun k => { k with nmq := dropAt k.nmq i })
  rw [settleBefore_of_followsNothing (by rw [hdrop.core]; exact hf)]
  exact hdrop

/-- Without a poisoned word or a lost channel group nothing is poisoned (R154, R323). -/
theorem poisoned_of_nil {m : Memory} (hb : m.bad = []) (hl : m.lost = []) (a n : Nat) : m.poisoned a n = false := by
  simp [Memory.poisoned, Memory.lostIn, hb, hl]

end

/-- The element that a search finds is the first of its kind: the rest of the kind and every other element stay in their order. -/
theorem filter_of_findIdx?_eq_some {α : Type} {p : α → Bool} {l : List α} {i : Nat} (h : l.findIdx? p = some i) :
    ∃ a, l[i]? = some a ∧ l.filter p = a :: (dropAt l i).filter p ∧ (dropAt l i).filter (fun b => !p b) = l.filter (fun b => !p b) := by
  induction l generalizing i with
  | nil => cases h
  | cons b l ih =>
    rw [List.findIdx?_cons] at h
    cases hb : p b with
    | true =>
      obtain rfl : 0 = i := by simpa [hb] using h
      exact ⟨b, rfl, by simp [dropAt, hb], by simp [dropAt, hb]⟩
    | false =>
      simp only [hb, Bool.false_eq_true, if_false, Option.map_eq_some_iff] at h
      obtain ⟨n, hn, rfl⟩ := h
      obtain ⟨a, ha, hown, hother⟩ := ih hn
      exact ⟨a, ha, by simpa [dropAt, hb] using hown, by simpa [dropAt, hb] using hother⟩

/-- Is an update one of a thread's? -/
def ofThread (k j : Nat) (r : NmReq) : Bool := r.team == k && r.tid == j

section
variable {s : State} {c k j : Nat}

/-- A core that has no update of a thread has drained them. -/
theorem performed_of_none_own {q : List NmReq} (hq : (s.core c).nmq = q) (hown : q.filter (ofThread k j) = []) :
    Performed s c { s.core c with nmq := q.filter (fun r => !ofThread k j r) } ((q.filter (ofThread k j)).foldl updated s.mem) s := by
  have hother : q.filter (fun r => !ofThread k j r) = (s.core c).nmq := by
    rw [hq, List.filter_eq_self]
    intro r hr
    simpa using List.filter_eq_nil_iff.1 hown r hr
  rw [hother, hown]
  exact Performed.refl s c

/-- A thread's updates are performed in their order, and the others stay on their way (R188, NM). -/
theorem performed_drainNm {n : Nat} {q : List NmReq} (hq : (s.core c).nmq = q) (hn : (q.filter (ofThread k j)).length ≤ n)
    (hr : ∀ r ∈ q.filter (ofThread k j), PlainUpdate r ∧ FollowsNothing (s.core c) r) (hm : ∀ a n, s.mem.poisoned a n = false)
    (h : Quiet s) : Performed s c { s.core c with nmq := q.filter (fun r => !ofThread k j r) }
      ((q.filter (ofThread k j)).foldl updated s.mem) (s.drainNm c k j n) := by
  induction n generalizing s q with
  | zero => exact performed_of_none_own hq (List.eq_nil_of_length_eq_zero (Nat.le_zero.1 hn))
  | succ n ih =>
    have hfind : (s.core c).nmq.findIdx? (fun r => r.team == k && r.tid == j) = q.findIdx? (ofThread k j) := by rw [hq]; rfl
    simp only [State.drainNm, hfind]
    cases hi : q.findIdx? (ofThread k j) with
    | none =>
      exact performed_of_none_own hq (List.filter_eq_nil_iff.2 fun r hr => by simp [List.findIdx?_eq_none_iff.1 hi r hr])
    | some i =>
      obtain ⟨r, hget, hown, hother⟩ := filter_of_findIdx?_eq_some hi
      rw [hown] at hn hr ⊢
      obtain ⟨⟨hplain, hfollows⟩, hr⟩ := List.forall_mem_cons.1 hr
      have hfirst := performed_performNm_alone (hq ▸ hget) hplain hfollows (hm _ _) h
      have hrest := ih (s := s.performNm c i) (q := dropAt q i) (by rw [hfirst.core, hq]) (Nat.le_of_succ_le_succ hn)
        (by rw [hfirst.core]; exact hr) (by rw [hfirst.mem]; exact fun a n => poisoned_write_of_clean _ _ (hm a n))
        (hfirst.quiet h)
      rw [hfirst.core, hfirst.mem, hother] at hrest
      exact hfirst.trans hrest

end

/-! ### Scopes (R187) -/

theorem wideScope_iff {sc : Scope} : wideScope sc = true ↔ Wide sc := by
  unfold Wide
  cases sc <;> decide

section
variable {s : State} {c k : Nat} {sc : Scope}

theorem acquire_wide (hw : Wide sc) (hc : (s.team k).onCore = some c) : s.acquire k sc = s.updCore c (fun x => { x with l1 := [] }) := by
  obtain ⟨hgang, hteam⟩ := hw
  unfold State.acquire
  cases sc with
  | gang => exact absurd rfl hgang
  | team => exact absurd rfl hteam
  | cluster | partition | tenant | system => simp only [hc]

theorem acquire_narrow (hw : ¬Wide sc) : s.acquire k sc = s := by
  unfold Wide at hw
  cases sc with
  | gang | team => rfl
  | cluster | partition | tenant | system => simp at hw

theorem release_narrow (hw : ¬Wide sc) : s.release c sc = s := by
  rw [State.release, if_neg (fun h => hw (wideScope_iff.1 h))]

/-- A release at CLUSTER or wider performs the core's stores where they alone are on their way. -/
theorem performed_release (hw : Wide sc) (ht : (s.core c).atq = []) (ha : (s.core c).arrivals = []) (hg : (s.core c).sigs = [])
    (h : Quiet s) (hv : ∀ st ∈ (s.core c).stq, st.vmid = 0) :
    Performed s c { s.core c with stq := [] } (storesWritten s.mem (s.core c).stq) (s.release c sc) := by
  have hall := performed_settleAll ha hg h hv
  have hatoms : ((s.settleAll c).core c).atq.length = 0 := by rw [hall.core, ht]; rfl
  rw [State.release, if_pos (wideScope_iff.2 hw)]
  simp only [hatoms, State.drainAtoms]
  exact hall

end

end Sys2Proof.Proofs
end

section
/-! SUPPORT. Stores, atomics and near-memory updates performed at their homes (R169, R180, R189, R249, R354). -/

namespace Sys2Proof.Proofs

open Sys2Proof Sys2Proof.Machine Sys2Proof.Claims

/-! ### Atomics -/

/-- What an atomic makes of its location's old value, none where a comparison fails (R353, R354). -/
def atomWord (r : AtomReq) (old : Nat) : Option Nat :=
  if r.wide = true then (atomStep r.op (BitVec.ofNat 64 old) r.a r.b).map BitVec.toNat
  else (atomStep r.op (BitVec.ofNat 32 old) (lo32 r.a) (lo32 r.b)).map BitVec.toNat

/-- The bytes that an atomic of a width that its operation has writes. -/
theorem toBytes_atomNew {r : AtomReq} (h : r.op = .fadd → r.wide = false) (old : Nat) :
    (atomNew r.op r.wide (BitVec.ofNat 64 old) r.a r.b).map (fun v => toBytes (if r.wide then 8 else 4) v.toNat)
      = (atomWord r old).map (toBytes (if r.wide then 8 else 4)) := by
  unfold atomWord
  cases hw : r.wide with
  | true =>
    have hint : r.op ≠ .fadd := fun hf => by simp [h hf] at hw
    simp only [if_true, atomNew_wide _ _ _ hint, Option.map_map]
    rfl
  | false =>
    simp only [Bool.false_eq_true, if_false, ← lo32_ofNat, ← lo32_atomNew, Option.map_map, Function.comp_def, toBytes_lo32]

/-- An atomic's step at its location (R354). -/
def atomStepped (s : State) (r : AtomReq) : State :=
  let n := if r.wide then 8 else 4
  match atomNew r.op r.wide (BitVec.ofNat 64 (s.mem.readNat r.pa n)) r.a r.b with
  | some v => s.storeHome r.pa (toBytes n v.toNat) (s.team r.team).vmid
  | none => s.readHome r.pa n

/-- The reply of an atomic: its location's old value (R354). -/
def atomReply (s : State) (r : AtomReq) : Result :=
  let old := BitVec.ofNat 64 (s.mem.readNat r.pa (if r.wide then 8 else 4))
  { load := false, vs := (r.tid, r.vd, lo32 old) :: (if r.wide then [(r.tid, r.vd + 1, hi32 old)] else []), ss := [], flags := 0 }

section
variable {s : State} {c : Nat} {r : AtomReq}

theorem atomReply_brings (s : State) (r : AtomReq) :
    Brings (vdst r.wide r.vd) r.tid (atomReply s r) (BitVec.ofNat 64 (s.mem.readNat r.pa (if r.wide = true then 8 else 4))) := by
  unfold atomReply
  cases r.wide <;> simp [vdst, Brings]

/-- The step writes the new value, or leaves memory alone where a comparison fails. -/
theorem performed_atomStepped (c : Nat) (h : Quiet s) (hv : (s.team r.team).vmid = 0) (hop : r.op = .fadd → r.wide = false) :
    ∃ m, Performed s c (s.core c) m (atomStepped s r) ∧
      match atomWord r (s.mem.readNat r.pa (if r.wide = true then 8 else 4)) with
      | some v => m = s.mem.write r.pa (toBytes (if r.wide = true then 8 else 4) v)
      | none => MemKeeps s.mem m := by
  have hbytes := toBytes_atomNew hop (s.mem.readNat r.pa (if r.wide = true then 8 else 4))
  unfold atomStepped
  cases hnew : atomNew r.op r.wide (BitVec.ofNat 64 (s.mem.readNat r.pa (if r.wide = true then 8 else 4))) r.a r.b with
  | none =>
    rw [hnew] at hbytes
    rw [Option.map_eq_none_iff.1 hbytes.symm]
    exact ⟨_, by simp only [hnew]; exact ⟨rfl, rfl, rfl, id⟩, Memory.installAll_keeps _ _ _⟩
  | some v =>
    rw [hnew] at hbytes
    obtain ⟨w, hword, hw⟩ := Option.map_eq_some_iff.1 hbytes.symm
    rw [hword]
    refine ⟨_, ?_, congrArg _ hw.symm⟩
    simp only [hnew, hv]
    exact performed_storeHome c _ _ h

/-- What follows an atomic's step: its reply, and an acquire at CLUSTER or wider (R189). -/
def atomEnded (s : State) (c : Nat) (r : AtomReq) (q : Result) : State :=
  let t := s.updTeam r.team (fun t => { t with results := t.results ++ [q] })
  if wideScope r.sc then t.updCore c (fun k => { k with l1 := [] }) else t

section
variable (q : Result)

theorem atomEnded_mem : (atomEnded s c r q).mem = s.mem := by unfold atomEnded; dsimp only; split <;> rfl

theorem atomEnded_results : ((atomEnded s c r q).team r.team).results = (s.team r.team).results ++ [q] := by
  have hupd := s.team_updTeam r.team (fun t => { t with results := t.results ++ [q] })
  unfold atomEnded
  dsimp only
  split <;> exact congrArg Team.results hupd

theorem atomEnded_atq : ((atomEnded s c r q).core c).atq = (s.core c).atq := by
  unfold atomEnded
  dsimp only
  split
  · rw [State.core_updCore]
    rfl
  · rfl

theorem atomEnded_l1 (h : Wide r.sc) : ((atomEnded s c r q).core c).l1 = [] := by
  rw [atomEnded, if_pos (wideScope_iff.2 h)]
  exact congrArg Core.l1 (State.core_updCore _ _ _)

end

/-- On a core with nothing else on its way an atomic waits for nothing: its line leaves the L1, its step is done, and it ends (R189). -/
theorem atomHome_idle (hq : (s.core c).stq = []) (ha : (s.core c).arrivals = []) (hg : (s.core c).sigs = [])
    (hm : s.mem.poisoned r.pa (if r.wide = true then 8 else 4) = false) :
    s.atomHome c r = atomEnded (atomStepped (s.updCore c (fun k => k.drop (r.pa / 128))) r) c r (atomReply s r) := by
  generalize hu : s.updCore c (fun k => k.drop (r.pa / 128)) = u
  have hcore : u.core c = (s.core c).drop (r.pa / 128) := by rw [← hu, State.core_updCore]
  have hmem : u.mem = s.mem := by rw [← hu]; rfl
  have hbefore : ∀ n, u.settleBefore c n = u := fun n => by
    refine settleBefore_idle n ?_ ?_ ?_ <;> rw [hcore] <;> assumption
  have hsettled : (if wideScope r.sc || r.rel then u.settleAll c
      else (u.settleBefore c r.after).drainFor c r.pa (if r.wide then 8 else 4)) = u := by
    rw [State.drainFor, State.settleAll, hbefore, hbefore, hbefore, ite_self]
  unfold State.atomHome atomReply
  dsimp only
  rw [hu, hsettled, hmem, hm, if_neg Bool.false_ne_true, ← hmem]
  rfl

/-- The only atomic of a core with nothing else on its way: its step is done and it ends. -/
theorem performAtom_idle (hr : (s.core c).atq = [r]) (hq : (s.core c).stq = []) (ha : (s.core c).arrivals = [])
    (hg : (s.core c).sigs = []) (hm : s.mem.poisoned r.pa (if r.wide = true then 8 else 4) = false) :
    ∃ k u, Performed s c k s.mem u ∧ k.atq = [] ∧ s.performAtom c 0 = atomEnded (atomStepped u r) c r (atomReply s r) := by
  have hsent := performed_updCore s c (fun k => { k with atq := dropAt k.atq 0 })
  refine ⟨_, _, hsent.trans (performed_updCore _ c (fun k => k.drop (r.pa / 128))), by rw [hsent.core, hr]; rfl, ?_⟩
  simp only [State.performAtom, hr, List.getElem?_cons_zero, List.take_zero, List.any_nil, Bool.false_eq_true, if_false]
  exact atomHome_idle (s := s.updCore c (fun k => { k with atq := dropAt k.atq 0 })) (by rw [hsent.core]; exact hq)
    (by rw [hsent.core]; exact ha) (by rw [hsent.core]; exact hg) hm

end

/-- Settles O40: the oldest store waits for nothing, an atomic finds the core idle, and an update finds the stores before it
performed. -/
theorem accessesArePerformedAtTheirHomes : Obligations.AccessesArePerformedAtTheirHomes := by
  unfold Obligations.AccessesArePerformedAtTheirHomes
  refine ⟨fun s c st rest hq hquiet hv hsync => ?_, fun s c r hr hq ha hg hquiet hv hm hop => ?_, fun s c r hr hquiet hplain hm =>
    ⟨fun hafter => ?_, fun ha hg hstores => ?_⟩⟩
  · have h := performed_performStoreAt hq hv hquiet
    rw [← performStore_oldest hq hsync] at h
    refine ⟨_, rfl, h.mem, by rw [h.core], h.teams, fun hwf => ?_⟩
    rw [h.mem]
    refine ⟨Memory.read_write_self hwf _ _, fun a ha => ?_⟩
    rw [Memory.get_write hwf, if_neg (by omega)]
  · obtain ⟨k, u, hsent, hatq, hend⟩ := performAtom_idle hr hq ha hg hm
    obtain ⟨m, hstep, hword⟩ := performed_atomStepped c (hsent.quiet hquiet) (by rw [hsent.team]; exact hv) hop
    rw [hsent.mem] at hword
    refine ⟨_, _, congrArg Host.Outcome.next hend, ?_, ?_, ?_, atomReply_brings s r, atomEnded_l1 _⟩
    · rw [atomEnded_atq, hstep.core, hsent.core, hatq]
    · rw [atomEnded_mem, hstep.mem]
      exact hword
    · rw [atomEnded_results, hstep.team, hsent.team]
  · have h := performed_performNm_alone (i := 0) (by rw [hr]; rfl) hplain (.inl hafter) hm hquiet
    exact ⟨_, rfl, by rw [h.core, hr]; rfl, h.teams, by rw [h.core], h.mem⟩
  · have hdrop := performed_updCore s c (fun k => { k with nmq := dropAt k.nmq 0 })
    have hsettled := performed_settleBefore (by rw [hdrop.core]; exact ha) (by rw [hdrop.core]; exact hg) (hdrop.quiet hquiet)
      (by rw [hdrop.core]; exact hstores)
    have hbefore := hdrop.trans hsettled
    rw [hdrop.core, hdrop.mem] at hbefore
    have h := performed_performNm (by rw [hr]; rfl) hplain (poisoned_storesWritten _ hm) hbefore hquiet
    exact ⟨_, rfl, by rw [h.core, hr]; rfl, h.teams, by rw [h.core], h.mem⟩

end Sys2Proof.Proofs
end

section
/-! SUPPORT. What a FENCE does for its thread (R181, R188, R249). -/

namespace Sys2Proof.Proofs

open Sys2Proof Sys2Proof.Machine Sys2Proof.Claims

/-! ### The issue to one thread -/

/-- A FENCE of a scope that is not denied does for the one real thread of its group what the fence does, and nothing else. -/
theorem exec_fence {f : FFence} {s : State} {x : Ctx} {j : Nat} (h : Solo s x j none [] [])
    (hsc : s.scopeDenied (s.team x.team).vmid f.sc = false) : exec (.fence f) s = .next (s.fence x.core x.team j f.kind f.sc) := by
  obtain ⟨⟨⟨hx, hearly, -⟩, -, -, hv⟩, hgroup, hpawn⟩ := h
  have hlane : (fenceInstr f).lane x s j = (.done, s.fence x.core x.team j f.kind f.sc) := by
    rw [lane_of_acting rfl rfl hv]
    simp [fenceInstr, hsc, hpawn]
  have hlanes : (fenceInstr f).lanes x s (sortNat x.group) = ([(j, .done)], s.fence x.core x.team j f.kind f.sc) := by
    rw [hgroup]
    exact lanes_cons hlane trivial
  have hissue := threadIssue_of_completes rfl hearly hlanes fun o ho => by
    rw [List.mem_singleton.1 ho]
    trivial
  show execThreads (fenceInstr f) s = _
  rw [execThreads, hx]
  exact congrArg _ hissue

/-! ### What is performed before a FENCE's acquire -/

section
variable (s : State) (c k j : Nat) (kd : FenceKind)

/-- The updates that a FENCE performs: its thread's where it is NM (R188). -/
def fenceUpdates : List NmReq := if kd = .nm then (s.core c).nmq.filter (ofThread k j) else []

/-- The updates that a FENCE leaves on their way. -/
def otherUpdates : List NmReq := if kd = .nm then (s.core c).nmq.filter (fun r => !ofThread k j r) else (s.core c).nmq

/-- The state in which a FENCE has performed its updates. -/
def fenceDrained : State := if kd = .nm then s.drainNm c k j (s.core c).nmq.length else s

end

section
variable {s : State} {c k j : Nat} {kd : FenceKind} {sc : Scope}

/-- The updates of a FENCE are ones that it can perform at once: plain, each following nothing, where nothing waits for a line and
nothing is poisoned. -/
def PlainFence (s : State) (c k j : Nat) (kd : FenceKind) : Prop :=
  kd = .nm → Quiet s ∧ s.mem.bad = [] ∧ s.mem.lost = [] ∧ ∀ r ∈ fenceUpdates s c k j kd, PlainUpdate r ∧ FollowsNothing (s.core c) r

/-- A FENCE performs its updates and nothing else. -/
theorem performed_fenceDrained (h : PlainFence s c k j kd) :
    Performed s c { s.core c with nmq := otherUpdates s c k j kd } ((fenceUpdates s c k j kd).foldl updated s.mem)
      (fenceDrained s c k j kd) := by
  unfold PlainFence fenceUpdates at h
  unfold fenceUpdates otherUpdates fenceDrained
  by_cases hk : kd = .nm
  · obtain ⟨hquiet, hbad, hlost, hr⟩ := h hk
    simp only [if_pos hk] at hr ⊢
    exact performed_drainNm rfl (List.length_filter_le _ _) hr (poisoned_of_nil hbad hlost) hquiet
  · simp only [if_neg hk]
    exact Performed.refl s c

/-- At CLUSTER or wider the core's stores follow, and the L1 is dropped. -/
theorem performed_acquired_wide (h : PlainFence s c k j kd) (hon : (s.team k).onCore = some c) (hw : Wide sc) (hquiet : Quiet s)
    (ht : (s.core c).atq = []) (ha : (s.core c).arrivals = []) (hg : (s.core c).sigs = []) (hv : ∀ st ∈ (s.core c).stq, st.vmid = 0) :
    Performed s c { s.core c with nmq := otherUpdates s c k j kd, stq := [], l1 := [] }
      (storesWritten ((fenceUpdates s c k j kd).foldl updated s.mem) (s.core c).stq)
      (((fenceDrained s c k j kd).release c sc).acquire k sc) := by
  have hdrained := performed_fenceDrained h
  have hrelease := performed_release hw (by rw [hdrained.core]; exact ht) (by rw [hdrained.core]; exact ha)
    (by rw [hdrained.core]; exact hg) (hdrained.quiet hquiet) (by rw [hdrained.core]; exact hv)
  have hreleased := hdrained.trans hrelease
  have hdrop := performed_updCore ((fenceDrained s c k j kd).release c sc) c (fun x => { x with l1 := [] })
  rw [hdrained.core, hdrained.mem] at hreleased
  rw [hreleased.core, hreleased.mem] at hdrop
  rw [acquire_wide hw (by rw [hreleased.team]; exact hon)]
  exact hreleased.trans hdrop

/-! ### What it leaves -/

/-- ACQ: the thread's later stores follow the ones that it has read, and the acquire drops the L1 (R181, R187). -/
theorem fence_acq (j : Nat) (sc : Scope) (hon : (s.team k).onCore = some c) :
    let y := (s.team k).thread j
    let t := s.fence c k j .acq sc
    t.mem = s.mem ∧ (t.team k).thread j = { y with after := max y.seen y.after } ∧ (∀ n, n ≠ k → t.team n = s.team n) ∧
      (Wide sc → t.core c = { s.core c with l1 := [] }) ∧ (¬Wide sc → t.core c = s.core c) := by
  intro y t
  have hthread := s.thread_updThread k j (fun x => { x with after := max x.seen x.after })
  have hothers : ∀ n, n ≠ k → (s.updThread k j (fun x => { x with after := max x.seen x.after })).team n = s.team n :=
    fun n hn => State.team_setTeam_ne _ _ _ hn
  have hcore : ((s.updThread k j (fun x => { x with after := max x.seen x.after })).team k).onCore = some c := by
    rw [State.updThread, State.team_setTeam]
    exact hon
  by_cases hw : Wide sc
  · have ht : t = _ := acquire_wide hw hcore
    rw [ht]
    exact ⟨rfl, hthread, hothers, fun _ => State.core_updCore _ c _, fun hn => absurd hw hn⟩
  · have ht : t = _ := acquire_narrow hw
    rw [ht]
    exact ⟨rfl, hthread, hothers, fun h => absurd h hw, fun _ => rfl⟩

/-- AR and NM fence the thread's later stores, NM its later updates too (R188, R190). -/
theorem fence_fenced (c : Nat) (sc : Scope) (hk : kd = .ar ∨ kd = .nm) :
    let y := ((s.fence c k j kd sc).team k).thread j
    y.fenced = true ∧ (kd = .nm → y.nmFenced = true) := by
  rcases hk with rfl | rfl
  · exact ⟨congrArg Thread.fenced (State.thread_updThread _ k j _), nofun⟩
  · refine ⟨(congrArg Thread.fenced (State.thread_updThread _ k j _)).trans ?_, fun _ => ?_⟩
    · exact congrArg Thread.fenced (State.thread_updThread _ k j _)
    · exact congrArg Thread.nmFenced (State.thread_updThread _ k j _)

/-- Beside the teams AR leaves what its release and acquire leave, and NM drops the L1 at every scope (R188). -/
theorem fence_leaves (j : Nat) (sc : Scope) (hk : kd = .ar ∨ kd = .nm) :
    let u := ((fenceDrained s c k j kd).release c sc).acquire k sc
    let t := s.fence c k j kd sc
    t.mem = u.mem ∧ t.core c = if kd = .nm then { u.core c with l1 := [] } else u.core c := by
  rcases hk with rfl | rfl
  · exact ⟨rfl, rfl⟩
  · exact ⟨rfl, State.core_updCore _ c (fun x => { x with l1 := [] })⟩

/-- AR and NM at GANG and TEAM: the updates are performed, and the stores stay on their way (R187, R188). -/
theorem fence_narrow (hk : kd = .ar ∨ kd = .nm) (hw : ¬Wide sc) (h : PlainFence s c k j kd) :
    let t := s.fence c k j kd sc
    t.mem = (fenceUpdates s c k j kd).foldl updated s.mem ∧ (t.core c).stq = (s.core c).stq ∧
      (t.core c).nmq = otherUpdates s c k j kd ∧ (t.core c).l1 = if kd = .nm then [] else (s.core c).l1 := by
  obtain ⟨hmem, hcore⟩ := fence_leaves (s := s) (c := c) (k := k) j sc hk
  have hdrained := performed_fenceDrained h
  rw [acquire_narrow hw, release_narrow hw] at hmem hcore
  rw [hdrained.core] at hcore
  dsimp only
  rw [hmem, hdrained.mem, hcore]
  refine ⟨rfl, ?_, ?_, ?_⟩ <;> split <;> rfl

/-- AR and NM at CLUSTER and wider: the updates are performed, then the stores, and the L1 is dropped (R187, R188). -/
theorem fence_wide (hk : kd = .ar ∨ kd = .nm) (hw : Wide sc) (h : PlainFence s c k j kd) (hon : (s.team k).onCore = some c)
    (hquiet : Quiet s) (ht : (s.core c).atq = []) (ha : (s.core c).arrivals = []) (hg : (s.core c).sigs = [])
    (hv : ∀ st ∈ (s.core c).stq, st.vmid = 0) :
    let t := s.fence c k j kd sc
    t.mem = storesWritten ((fenceUpdates s c k j kd).foldl updated s.mem) (s.core c).stq ∧ (t.core c).stq = [] ∧
      (t.core c).nmq = otherUpdates s c k j kd ∧ (t.core c).l1 = [] := by
  obtain ⟨hmem, hcore⟩ := fence_leaves (s := s) (c := c) (k := k) j sc hk
  have hacquired := performed_acquired_wide h hon hw hquiet ht ha hg hv
  rw [hacquired.core] at hcore
  dsimp only
  rw [hmem, hacquired.mem, hcore]
  refine ⟨rfl, ?_, ?_, ?_⟩ <;> split <;> rfl

end

/-- Settles O26: kind by kind, and for AR and NM at either reach of the scope. -/
theorem fenceResults : Obligations.FenceResults := by
  unfold Obligations.FenceResults
  intro f s x j h hon hsc y mine updates plain others
  have hexec := exec_fence h hsc
  refine ⟨fun hk => ?_, fun hw hk hplain => ?_, fun hk => ?_, fun hw hk hplain hquiet ht ha hg hv => ?_⟩
  · obtain ⟨hmem, hthread, hothers, hwide, hnarrow⟩ := fence_acq j f.sc hon
    rw [hk] at hexec
    refine ⟨_, hexec, hmem, fun hw => by rw [hwide hw], fun hw => by rw [hnarrow hw], ?_, hthread, hothers⟩
    by_cases hw : Wide f.sc
    · rw [hwide hw]
    · rw [hnarrow hw]
  · obtain ⟨hfenced, hnm⟩ := fence_fenced (s := s) (k := x.team) (j := j) x.core f.sc hk
    obtain ⟨hmem, hstq, hnmq, hl1⟩ := fence_narrow hk hw hplain
    exact ⟨_, hexec, hfenced, hnm, hstq, hnmq, hmem, hl1⟩
  · rw [hk] at hexec
    exact ⟨_, hexec, congrArg Thread.fenced (State.thread_updThread _ _ _ _), rfl, rfl⟩
  · obtain ⟨hfenced, hnm⟩ := fence_fenced (s := s) (k := x.team) (j := j) x.core f.sc hk
    obtain ⟨hmem, hstq, hnmq, hl1⟩ := fence_wide hk hw hplain hon hquiet ht ha hg hv
    exact ⟨_, hexec, hfenced, hnm, hstq, hnmq, hl1, hmem⟩

end Sys2Proof.Proofs
end
